-- ==== Sys2Proof/Word.lean ====
section
/-!
DEFINITION. Word.lean: the words, indices and small records that every other file uses. A register word is 32 bits
(R6, R7). Instants and durations are natural numbers of 2^-16 ns, the unit of the hall-time fraction (R226).
-/

namespace Sys2Proof

/-- A register word (R6, R7). -/
abbrev Word := BitVec 32
abbrev Byte := BitVec 8
/-- A 64-bit item: inner-queue item (R334), lane block payload. -/
abbrev Dword := BitVec 64
/-- A carriage or a cart: one 128-bit slot of a frame (R190). -/
abbrev Slot := BitVec 128

/-- Arm 0 to 5 of a hub (Table 1 of spec/01). -/
abbrev Arm := Fin 6
/-- Ring, by ring port, 0 to 31. -/
abbrev Ring := Fin 32
/-- Position of a Tread on its ring, 0 to 31. -/
abbrev Pos := Fin 32
/-- Local index of a cell: ring * 32 + position (R24). -/
abbrev Cell := Fin 1024
/-- Hub number of a hall, 0 to 15. -/
abbrev Hub := Fin 16
/-- Measurement channel. -/
abbrev Chan := Fin 16
/-- Logical core. -/
abbrev CoreNo := Fin 4
/-- Host ring of spec/13. -/
abbrev HRing := Fin 64
/-- An instant or a duration in 2^-16 ns. -/
abbrev Time := Nat

/-- The requesters of Table 6 of spec/01. -/
inductive Requester where
  | safety | hubHw | core (c : CoreNo) | cartRing (n : Fin 4) | host | jtag
  deriving DecidableEq, Repr

/-- A frame of a ring, bit b as R186 numbers it. -/
abbrev Frame := BitVec 5888

/-- Levels of the pins of a Tread that are delivered with a conversion (log entry 52): SUPOK, the gate-fault inputs, the
guard comparator, BYP_CONF. -/
structure TPins where
  supok : Bool
  flt   : BitVec 4
  ov    : Bool
  conf  : Bool
  deriving DecidableEq, Repr

/-- A request at a shared resource (R36, R37): its requester, its place key and what it asks for. -/
structure Ask where
  who : Requester
  key : Nat := 0
  off : Nat := 0
  val : Word := 0
  deriving DecidableEq, Repr

/-- The requesters of a Tread's register writes, in the order of Table 6 of spec/01. -/
inductive TReq where
  | guard | cart | firmware
  deriving DecidableEq, Repr

/-- A register write presented in a Tread (R36, R37). -/
structure TAsk where
  who : TReq
  off : Nat
  val : Word
  deriving DecidableEq, Repr

/-- The requests presented in one grant slot: at a resource of the hub, by its row of Table 6 of spec/01, or at the
registers of a Tread. -/
inductive Grant where
  | hub (res : Fin 12) (asks : List Ask)
  | tread (cell : Cell) (asks : List TAsk)
  deriving DecidableEq, Repr

/-- A word of the engine's edit windows: of the descriptors, of the gain sets (R134). -/
inductive EditWord where
  | desc (k : Fin 4096) | gain (k : Fin 16384)
  deriving DecidableEq, Repr

/-- A receive lane: of a ring port, of a Tread's near or far port, or of a Titajor port (EAST lanes 0 and 1, WEST lanes 2
and 3). -/
inductive Lane where
  | port (r : Ring) | near (i : Cell) | far (i : Cell) | tit (n : Fin 4)
  deriving DecidableEq, Repr

/-- A diagnostic of the safety island (Table 6 of spec/11): one that holds or fails as a whole, the oscillator against
its two references, the safe block outputs' read-back. -/
inductive SafDiag where
  | lockstep | sram | romCrc | paramCrc | watchdog | limitTest | osc (ref25 stack : Nat) | readBack (levels : Nat)
  deriving DecidableEq, Repr

/-- What the load of the PRB finds of the two copies of a register's word: the first copy and the one written second,
each where it passes its check (R501). -/
structure PrbCopies where
  off    : Nat
  first  : Option Word
  second : Option Word
  deriving DecidableEq, Repr

/-- What the part finds at the release of a chip reset: the straps (R525), and the copies of the PRB words that do not
both hold the committed value (R501). -/
structure StartIn where
  hubId : Hub
  dup   : Fin 4
  pref  : Bool
  src   : Bool
  loads : List PrbCopies
  deriving DecidableEq, Repr

/-- A JTAG instruction (R493, R495): one that is always available, one that drives balls, any other. -/
inductive JtagOp where
  | bypass | idcode | sample | drive | other
  deriving DecidableEq, Repr

/-- The level of a rail (R474, R521): inside its operating range, above it, below it, below its reset threshold. -/
inductive RailLevel where
  | good | high | low | reset
  deriving DecidableEq, Repr

/-- A CAN frame on the bus (Table 3 of spec/16); `data`: byte 0 lowest. -/
structure CanFrame where
  id   : Nat
  ide  : Bool
  rtr  : Bool
  fdf  : Bool
  dlc  : Nat
  brs  : Bool
  esi  : Bool
  data : Nat
  deriving DecidableEq, Repr

/-- How an attempt to send a frame ends (R461, R462). -/
inductive CanEnd where
  | lost | sent | error
  deriving DecidableEq, Repr

/-- A field of a register: the register's offset, the field's lowest bit and its width. -/
structure Fld where
  reg : Nat
  lo  : Nat
  w   : Nat
  deriving DecidableEq, Repr

/-- A row of a register map: first offset, (stride, count) of each index, reset value, and the bits of each access
code of Table 2 of spec/00 (`rd`: the bits that a read returns). -/
structure RegRow where
  base  : Nat
  dims  : List (Nat × Nat)
  reset : Nat
  rw    : Nat
  rc    : Nat
  w1c   : Nat
  pw    : Nat
  lrw   : Nat
  rd    : Nat
  deriving DecidableEq, Repr

/-- Sparse storage: pairs of a key and a value, keys strictly rising, no value equal to what an unlisted key reads
as. The operations are in Machine/Bits.lean. -/
abbrev Store (α : Type) := List (Nat × α)

/-- What a HEARTBEAT carries (R392, R448). -/
structure Heartbeat where
  role    : Nat := 0
  active  : Bool := false
  ready   : Bool := false
  fenced  : Bool := false
  healthy : Bool := false
  epoch   : Nat := 0
  pref    : Bool := false
  newel   : Nat := 0
  hblk    : Bool := false
  htrip   : Bool := false
  hallblk : Nat := 0
  /-- From the newel: the exchange period DIV (R399). -/
  exDiv   : Nat := 1
  /-- Trigger-bus lines driven, and the age of each in ns (R448). -/
  tb      : Nat := 0
  tbAge   : List Nat := []
  deriving DecidableEq, Repr

/-- What a block keeps between passes (R107, R116, R121, R125); binary32 words. -/
structure AceBlk where
  y     : Nat := 0
  /-- x of PI, y_(n-1) of RES and LEADLAG, v of JERK, c_(n-1) of FF; y_(n-2) of RES. -/
  s1    : Nat := 0
  s2    : Nat := 0
  /-- u_(n-1) and u_(n-2); for PI the error of the previous pass. -/
  u1    : Nat := 0
  u2    : Nat := 0
  hi    : Bool := false
  lo    : Bool := false
  meas  : Bool := false
  numf  : Bool := false
  /-- Gain set of the latest execution, and the Kp it used. -/
  set   : Nat := 0
  kp    : Nat := 0
  /-- The block has executed since reset or since the switch that reset it. -/
  ran   : Bool := false
  deriving DecidableEq, Repr

/-- Gallery state of an arm in a snapshot (Table 2 of spec/12). -/
structure SnapArm where
  band   : Nat
  edges  : Nat
  cycles : Nat
  dcell  : Option Nat
  dHeld  : Nat
  n      : Int
  delta  : Int
  m      : Int
  d      : Nat
  live   : Bool
  deriving DecidableEq, Repr

/-- Gallery state of a cell in a snapshot: local index, c_i, recorded level, exclusion bits, HEALTH, refresh. -/
structure SnapCell where
  i      : Nat
  csw    : Nat
  level  : Int
  excl   : Nat
  health : Bool
  refr   : Option Time
  deriving DecidableEq, Repr

/-- Estimator sums of a cell in a snapshot. -/
structure SnapEst where
  i    : Nat
  a    : Nat
  b    : Nat
  e    : Nat
  nacc : Nat
  deriving DecidableEq, Repr

/-- A snapshot (R371, Table 2 of spec/12); `good`: complete, with its CRC-32 right. `det` holds `ACE_RGNd_STAT`. -/
structure Snap where
  cyc   : Nat
  epoch : Nat
  dig   : Nat
  good  : Bool
  blks  : Store AceBlk
  mbx   : List Word
  det   : List Word
  arms  : List SnapArm
  cells : List SnapCell
  est   : List SnapEst
  deriving DecidableEq, Repr

/-- A journal record (R372, Table 3 of spec/12): engine inputs (source code, value, flag), mailbox commits, checkpoint,
changed exclusions, carriages of the primary's own segment of split rings (local index, carriage), and per arm, bit a:
command block, deblocked, block by a latch. -/
structure JRec where
  cyc     : Nat
  epoch   : Nat
  good    : Bool
  inputs  : List (Nat × Nat × Bool)
  commits : List (Nat × List Word)
  chk     : Option (Store AceBlk × List Word)
  excl    : List (Nat × Nat)
  cars    : List (Nat × Slot)
  cmdBlk  : Nat
  live    : Nat
  latched : Nat
  /-- Entries of the cell table that changed: local index and the six words of the entry. -/
  table   : List (Nat × List Word)
  deriving DecidableEq, Repr

/-- The payload of a Titajor message, by MTYPE (Table 7 of spec/12). -/
inductive TitBody where
  | block
  | trip
  | heartbeat (h : Heartbeat)
  | resign (cycle : Nat)
  | revert (cycle : Nat)
  | admitHub (epoch : Nat)
  | relayDn (ring : Ring) (dir : Nat) (block commit land : Bool) (pfar hop : Nat) (carriages carts : List Slot)
      (epoch : Nat)
  | relayUp (ring : Ring) (frame : BitVec 5888)
  /-- The standby's report of trigger (b) of R219; Table 7 of spec/12 names no type for it (log entry 72). -/
  | copyMissing (ring : Ring) (cycle : Nat)
  | time (hall : Time) (len : Nat) (corr : Time) (step : Option (Nat × Int))
  | exch (words : List Word)
  | journal (j : JRec)
  | snapshot (x : Snap)
  /-- A forwarded message: its MTYPE and PAYLOAD as they came, and the residence that a TIME message adds to its correction
  field, whose place in the payload the spec does not give (R389, R395). -/
  | passed (mtype : Nat) (payload : BitVec 160) (residence : Time)
  deriving DecidableEq, Repr

structure TitMsg where
  src  : Nat
  dst  : Nat
  ttl  : Nat
  /-- false ring A, true ring B. -/
  ringB : Bool
  cycle : Nat
  body : TitBody
  deriving DecidableEq, Repr

end Sys2Proof
end

