-- ==== Sys2Proof/Syntax.lean ====
section
/-!
DEFINITION. Syntax.lean: the commands that the chip set takes, one constructor for each row of the opcode table. A command
is something that reaches the hub or one of its Treads from outside, or an instant at which an engine, a timer or a
comparator of theirs acts. `who`: the requester; `cell`: the local index of a Tread; `t`: the instant, in 2^-16 ns from the
power-on of the machine, at which the command takes place (one before the present instant: the present instant).
-/

namespace Sys2Proof

inductive Instr where
  /-- `REGISTER_WRITE` (R9): A write to a register that has no row of its own takes effect under its access code and the
  write rules of its block. -/
  | registerWrite (who : Requester) (tgt : Option Cell) (off : Nat) (v : Word) (t : Time)
  /-- `RC_READ` (R9): A read of an RC field returns the value and then clears the field; an event in the same clock is
  kept for the next read. -/
  | rcRead (who : Requester) (tgt : Option Cell) (off : Nat) (t : Time)
  /-- `COUNTER_LOW_READ` (R6): A read of the low word of a 48-bit or 64-bit counter latches the high word for the next
  read of the high word. -/
  | counterLowRead (who : Requester) (n : Option (Fin 64)) (t : Time)
  /-- `PW_COMMIT` (R499): The PRB commit engine completes the commit of a queued PW word, after which the new value
  governs behaviour and the write is acknowledged. -/
  | pwCommit (t : Time)
  /-- `TOPOLOGY_WRITE` (R43): A write to GEN_TOPO.DUP_MODE, GEN_ARM_CFGn or GEN_RING_ARMn is ignored with a
  topology-write fault while an arm is deblocked, and otherwise takes effect at the next cycle start. -/
  | topologyWrite (who : Requester) (which : Fin 11) (v : Word) (t : Time)
  /-- `RESOURCE_GRANT` (R36): In each grant slot a shared resource grants one waiting request in the fixed order of
  Table 6 and counts deferred requests. -/
  | resourceGrant (g : Grant) (t : Time)
  /-- `REQUEST_WITHDRAWAL` (R38): A requester withdraws a waiting request, which leaves the queue without moving any
  other request. -/
  | requestWithdrawal (res : Fin 12) (who : Requester) (key : Nat) (t : Time)
  /-- `ISLAND_CLOCK_FAULT` (R29): An island's clock stops or leaves its band, and the clock monitor raises that island's
  clock fault source within 2 µs. -/
  | islandClockFault (n : Fin 39) (t : Time)
  /-- `CYCLE_START` (R48): At t_k the cycle number increments and every ring port begins emitting frame k, with pending
  configuration taking effect. -/
  | cycleStart (off : List Nat)
  /-- `CYCLE_LENGTH_WRITE` (R49): A write to GEN_CYC_LEN is ignored with a cycle-write fault when out of range or while
  an arm is deblocked, and otherwise takes effect at the next cycle start. -/
  | cycleLengthWrite (who : Requester) (v : Word) (t : Time)
  /-- `CYCLE_CONTROL_WRITE` (R80): A write to GEN_CYC_CTRL sets the late-train limit from the next cycle start. -/
  | cycleControlWrite (who : Requester) (v : Word) (t : Time)
  /-- `TRAIN_ARRIVAL` (R62): A ring port receives the inbound frame and writes the train of uplink carriages into the
  gallery island. -/
  | trainArrival (r : Ring) (f : Frame) (tIn : Time) (t : Time)
  /-- `GALLERY_DEADLINE` (R64): At t_k + 2T − 450 ns every incomplete train is marked late and its cells use stale data,
  with late counts and the late-train limit checked. -/
  | galleryDeadline
  /-- `LATE_TRAIN_COMPLETE` (R65): A late train completes and goes to the fault collector, servo, recorder and journal
  but not to the gallery. -/
  | lateTrainComplete (r : Ring) (f : Frame) (tIn : Time) (t : Time)
  /-- `PRESET_OUTPUT` (R93): A preset of a measurement channel completes an output at its output instant, with code,
  flags and sequence count. -/
  | presetOutput (c : Chan) (p : Fin 4) (rise : Nat) (fall : Nat) (per : Time) (t : Time)
  /-- `MI_CLOCK_FAULT` (R84): An external modulator clock goes out of range or has no edge for 400 ns, raising
  clock-loss and freezing the channel's outputs. -/
  | miClockFault (c : Chan) (period : Option Time) (t : Time)
  /-- `MI_CLOCK_RECOVERY` (R84): After 64 consecutive periods in range the channel's clock fault flag clears. -/
  | miClockRecovery (c : Chan) (period : Time) (t : Time)
  /-- `MODULATOR_STUCK` (R97): MI_DATc holds one value for 64 modulator periods, setting OVR and the sticky bit and
  raising the modulator-stuck source. -/
  | modulatorStuck (c : Chan) (t : Time)
  /-- `MODULATOR_STUCK_END` (R97): The first bit of the other value clears MI_STATc.OVR. -/
  | modulatorStuckEnd (c : Chan) (t : Time)
  /-- `MI_CONFIG_WRITE` (R103): A write to MI_CTRL.MCLK_DIV or MI_CFGc is ignored with a measurement-write fault while
  deblocked or out of range, and otherwise realigns the channels. -/
  | miConfigWrite (who : Requester) (c : Option Chan) (v : Word) (t : Time)
  /-- `SCALE_APPLY` (R91): A write of MI_CMD.SCALE_APPLY requests that all gain and offset shadows take effect at the
  next cycle start. -/
  | scaleApply (t : Time)
  /-- `REALIGN` (R94): A write of MI_CMD.REALIGN realigns all hub-clock channels, or is ignored with a fault while an
  arm is deblocked. -/
  | realign (t : Time)
  /-- `ENGINE_PASS` (R105): At t_j − 900 ns the arm control engine latches its sources and executes the active block
  list once, delivering arm output records by t_j − 600 ns. -/
  | enginePass
  /-- `STG_COMMIT` (R131): A write of ACE_STG_COMMIT copies the requester's staging words into a commit for a mailbox,
  or is refused while a commit is pending. -/
  | stgCommit (who : Requester) (m : Fin 64) (t : Time)
  /-- `MAILBOX_COMMIT_GRANT` (R131): A waiting mailbox commit is granted, one per mailbox per cycle, and its words
  become active at the next cycle start. -/
  | mailboxCommitGrant (m : Fin 64) (t : Time)
  /-- `EDIT_BANK_WRITE` (R134): A write to the descriptor or gain-set edit window changes the edit bank and clears OK,
  or is ignored with IGN during a pending switch or a busy command. -/
  | editBankWrite (w : EditWord) (v : Word) (t : Time)
  /-- `COPY` (R135): ACE_LIST_CMD.COPY starts copying the active bank into the edit bank. -/
  | copy (t : Time)
  /-- `COPY_DONE` (R135): A copy completes, clearing BUSY and OK. -/
  | copyDone (t : Time)
  /-- `CHECK` (R135): ACE_LIST_CMD.CHECK starts the load check of the edit bank. -/
  | check (t : Time)
  /-- `CHECK_DONE` (R135): The load check completes and sets OK or reports the first failure in ERR, BLOCK and KIND. -/
  | checkDone (t : Time)
  /-- `SWITCH` (R136): ACE_LIST_CMD.SWITCH requests the bank exchange at the next cycle start, or is ignored with a
  list-switch fault. -/
  | switch (t : Time)
  /-- `INJECT_START` (R140): ACE_INJ_CMD.START starts the generator from IDLE, or is refused. -/
  | injectStart (t : Time)
  /-- `INJECT_STOP` (R140): ACE_INJ_CMD.STOP ends RUN into fade-out or IDLE. -/
  | injectStop (t : Time)
  /-- `CAPTURE_START` (R141): ACE_CAP_CMD.START starts a capture into RUN or ARMED. -/
  | captureStart (t : Time)
  /-- `CAPTURE_STOP` (R141): ACE_CAP_CMD.STOP aborts a running or armed capture. -/
  | captureStop (t : Time)
  /-- `DFT_DONE` (R142): The DFT bins complete within 2 ms of a capture's DONE and set DFT_DONE. -/
  | dftDone (t : Time)
  /-- `GALLERY_RANKING` (R157): Once the on-time trains and engine records are present, the gallery ranks the cells,
  selects the set, places edges and hands carriage contents to the ring ports. -/
  | galleryRanking (done : Nat) (stored : Bool)
  /-- `BAND_ADAPT` (R158): At the end of every 1,024 deblocked cycles an adapting arm adjusts its band half-width from
  the measured edge rate. -/
  | bandAdapt (a : Arm)
  /-- `ESTIMATOR_WINDOW` (R171): The capacitance estimator takes or rejects a window of two consecutive fresh uplinks
  and updates its sums and confidence. -/
  | estimatorWindow (cell : Cell)
  /-- `HEALTH_CHECK` (R172): Every 2^PER_SH cycles the gallery compares each arm's cell estimates with their median and
  sets HEALTH flags. -/
  | healthCheck (a : Arm)
  /-- `GALLERY_WRITE` (R177): A write to gallery arm or cell control registers takes effect at the next cycle start,
  with protected fields refused while deblocked. -/
  | galleryWrite (off : Fin 0x20000) (v : Word) (t : Time)
  /-- `ESTIMATE_LOAD` (R178): A write to GAL_CELL_ESTA, ESTB or ESTE loads a binary64 sum and sets NACC to 64, or is
  refused while the cell is in service. -/
  | estimateLoad (cell : Cell) (which : Fin 3) (v : Word) (t : Time)
  /-- `BLOCK_LOCK` (R182): A receiver gains block lock after 64 consecutive valid blocks. -/
  | blockLock (l : Lane) (t : Time)
  /-- `LOSS_OF_LOCK` (R182): A receiver loses lock when 16 of 64 blocks are invalid, driving LINK_FAULT and role or
  state changes. -/
  | lossOfLock (l : Lane) (t : Time)
  /-- `LOSS_OF_SIGNAL` (R182): The received amplitude stays below threshold for 100 ns and the receiver declares loss of
  signal. -/
  | lossOfSignal (l : Lane) (t : Time)
  /-- `SIGNAL_RETURN` (R182): After 1 µs above threshold the receiver clears loss of signal. -/
  | signalReturn (l : Lane) (t : Time)
  /-- `OUTBOUND_FRAME` (R200): A Tread repeats an outbound frame, accepts its header, reads its carriage and carts, and
  turns it when it holds the loop-back role. -/
  | outboundFrame (cell : Cell) (far : Bool) (f : Frame) (ta : Time) (tc : Time)
  /-- `INBOUND_FRAME` (R196): On the inbound pass a Tread writes its uplink carriage and its cart replies into the
  frame. -/
  | inboundFrame (cell : Cell) (f : Frame) (tb : Time)
  /-- `RD` (R205): A RD cart reads one or two words of the target Tread's register space. -/
  | rd (cell : Cell) (c : Fin 8) (tag : Fin 64) (pos : Pos) (word : Fin 1024) (two : Bool)
  /-- `WR` (R205): A WR cart writes one or two words of the target Tread's register space and replies with RSTAT. -/
  | wr (cell : Cell) (c : Fin 8) (tag : Fin 64) (pos : Pos) (word : Fin 1024) (two : Bool) (data : Dword)
  /-- `BWR` (R205): A BWR cart writes a word in every admitted Tread and collects a mask reply. -/
  | bwr (cell : Cell) (c : Fin 8) (tag : Fin 64) (word : Fin 1024) (two : Bool) (data : Dword)
  /-- `FWBLK` (R300): A FWBLK cart writes 8 image bytes into the inactive slot of every update-enabled Tread. -/
  | fwblk (cell : Cell) (c : Fin 8) (tag : Fin 64) (blk : BitVec 16) (data : Dword)
  /-- `CART_ADMIT` (R215): An ADMIT cart admits the newcomer at its position when its unique identity matches. -/
  | cartAdmit (cell : Cell) (c : Fin 8) (tag : Fin 64) (pos : Pos) (uid : Dword)
  /-- `LINK_TAKE` (R201): A LINK cart with ARG[0] = 1 makes the target Tread take a commanded loop-back role. -/
  | linkTake (cell : Cell) (c : Fin 8) (tag : Fin 64) (pos : Pos)
  /-- `LINK_RELEASE` (R201): A LINK cart with ARG[0] = 0 releases a commanded loop-back role. -/
  | linkRelease (cell : Cell) (c : Fin 8) (tag : Fin 64) (pos : Pos)
  /-- `RATE_QUERY` (R217): A RATE query cart asks every admitted Tread whether it is ready for the target rate. -/
  | rateQuery (cell : Cell) (c : Fin 8) (tag : Fin 64) (low : Bool)
  /-- `RATE_GO` (R217): A RATE go cart names the cycle at which every admitted Tread switches rate. -/
  | rateGo (cell : Cell) (c : Fin 8) (tag : Fin 64) (low : Bool) (cyc : Word)
  /-- `IDENT` (R205): An IDENT cart returns a 64-bit quarter of the target's ENUM answers. -/
  | ident (cell : Cell) (c : Fin 8) (tag : Fin 64) (pos : Pos) (quarter : Fin 4)
  /-- `RP_CONFIG_WRITE` (R225): A write to RP_CFG that changes EN or LOWRATE is refused while the arm is deblocked, and
  otherwise drives the port state machine. -/
  | rpConfigWrite (q : Ring) (v : Word) (t : Time)
  /-- `ENUM` (R212): RP_CMD.ENUM starts enumeration of the ring while its arm is blocked, or is ignored with a
  ring-write fault. -/
  | enum (q : Ring) (t : Time)
  /-- `ENUM_UNSTABLE` (R212): Enumeration not stable after 64 frames raises the ring-enumeration fault source. -/
  | enumUnstable (r : Ring) (t : Time)
  /-- `REJOIN` (R223): RP_CMD.REJOIN ends a split while the arm is blocked and re-enumerates the ring. -/
  | rejoin (q : Ring) (t : Time)
  /-- `RATE` (R217): RP_CMD.RATE starts a ring rate change to the rate in RP_CFG.LOWRATE. -/
  | rate (q : Ring) (t : Time)
  /-- `RATE_SWITCH` (R217): At the named cycle start the port and Treads switch lane rate and the port returns through
  LINK to RUN. -/
  | rateSwitch (l : Lane) (t : Time)
  /-- `RP_ADMIT` (R215): A write of RP_ADMIT sends an ADMIT cart to each named newcomer. -/
  | rpAdmit (q : Ring) (mask : Word) (t : Time)
  /-- `FAR_END_MISSING` (R218): No far-end copy of frame k has arrived by t_k + LATEST + 200 ns and the copy is declared
  missing. -/
  | farEndMissing (q : Ring) (k : Word)
  /-- `RING_SPLIT` (R219): At the first cycle start 200 ns after a split trigger both ports serve the ring and the
  redundant-path-lost source is raised. -/
  | ringSplit (r : Ring) (t : Time)
  /-- `OFFSET_COMMIT` (R231): A write of HT_OFFS_S commits an offset, and the servo updates its rates, steps or holds.
  -/
  | offsetCommit (t : Time) (secs : Word)
  /-- `PPS_IN_EDGE` (R247): A rising edge of PPS_IN is time-stamped and, with SRC = 2, delivers an offset to the servo.
  -/
  | ppsInEdge (t : Time)
  /-- `SOURCE_LOSS` (R232): The time source is lost and the hub enters holdover. -/
  | sourceLoss (t : Time)
  /-- `STEP` (R234): HT_CMD.STEP makes a pending hall-time step while every arm of the hall is blocked. -/
  | step (t : Time)
  /-- `HALL_STEP` (R235): At the named cycle start every hub steps hall time by −θ, records it and realigns its
  channels. -/
  | hallStep
  /-- `TIME_READ` (R229): A read of HT_TIME_FR latches the whole present hall time for the other time words. -/
  | timeRead (t : Time)
  /-- `RTT_BROADCAST` (R238): Every 256 cycles the emitting port sends R̄ to its Treads by a BWR cart in a free
  position. -/
  | rttBroadcast (q : Ring)
  /-- `TXQ_READ` (R246): A read of HT_ETHn_TXQ_ID removes the oldest transmit time-stamp and latches its time. -/
  | txqRead (n : Fin 2) (t : Time)
  /-- `PPS_OUT_PULSE` (R248): PPS_OUT rises ODLY before each whole second of hall time for WIDTH ms. -/
  | ppsOutPulse
  /-- `PLL_LOCK` (R250): A PLL declares lock after CNT reference cycles inside WIN. -/
  | pllLock (p : Fin 3) (n : Nat) (err : Time) (t : Time)
  /-- `PLL_LOCK_LOSS` (R250): A PLL loses lock, sets its error bit and raises its lock fault source, moving core domains
  to the safe clock. -/
  | pllLockLoss (p : Fin 3) (n : Nat) (err : Time) (t : Time)
  /-- `APPLY` (R252): CLK_CMD.APPLY moves the core PLL domains to the safe clock and takes the new multiplier and
  dividers, or is refused. -/
  | apply (t : Time)
  /-- `APPLY_COMPLETE` (R252): The core PLL relocks and the trees switch to the new outputs. -/
  | applyComplete (t : Time)
  /-- `APPLY_TIMEOUT` (R252): No lock within 1 ms of APPLY sets TIMEOUT and raises the core PLL lock source. -/
  | applyTimeout (t : Time)
  /-- `REF_LOSS` (R253): REF25_IN is lost and the DPLL moves to its fallback reference or holds frequency. -/
  | refLoss (t : Time)
  /-- `SYNC_ARM` (R254): CLK_CMD.SYNC_ARM arms the CLK_SYNC input while every arm is blocked. -/
  | syncArm (t : Time)
  /-- `CLK_SYNC_EDGE` (R254): The first CLK_SYNC edge after arming restarts the DPLL output dividers and records its
  hall time. -/
  | clkSyncEdge (t : Time)
  /-- `ACTION_INSTANT` (R259): At the action instant A the Tread executes its carriage command. -/
  | actionInstant (cell : Cell)
  /-- `DITHER_EDGE` (R259): At A + DUTY × 250 ps the dither pulse ends and the cell enters the level below STATE. -/
  | ditherEdge (cell : Cell)
  /-- `DEAD_TIME_TURN_ON` (R263): The complementary output turns on once dead time has passed and feedback reports off.
  -/
  | deadTimeTurnOn (cell : Cell) (leg : Fin 2)
  /-- `GATE_FEEDBACK_OFF` (R265): A device's feedback reports off, giving a turn-off sample to the dead-time filter. -/
  | gateFeedbackOff (cell : Cell) (n : Fin 4) (t : Time)
  /-- `GFB_MISMATCH` (R268): A gate feedback disagreement beyond WIN or FILT latches, blocks the cell and forwards the
  gate-feedback code. -/
  | gfbMismatch (cell : Cell) (n : Fin 4) (t : Time)
  /-- `CARRIER_EDGE` (R270): The hall-time carrier crosses a duty boundary and the cell changes between ON and level 0.
  -/
  | carrierEdge (cell : Cell) (h : Time)
  /-- `REFRESH_REQUEST` (R275): A high-side on-time timer reaches INTERVAL and the Tread sets its refresh request. -/
  | refreshRequest (cell : Cell) (leg : Fin 2)
  /-- `NOTCH_END` (R276): The refresh notch ends at A + NOTCH and held commands proceed. -/
  | notchEnd (cell : Cell)
  /-- `CARRIER_NOTCH` (R277): In carrier mode the Tread holds the refresh notch around the first qualifying period
  start. -/
  | carrierNotch (cell : Cell)
  /-- `BYP_CONF_RISE` (R279): BYP_CONF goes high during a bypass sequence and BYPASSED sets. -/
  | bypConfRise (cell : Cell) (t : Time)
  /-- `BYPASS_GATES_OFF` (R279): 2 µs after confirmation, or 10 µs after firing, all gate outputs turn off. -/
  | bypassGatesOff (cell : Cell)
  /-- `BYPASS_CONF_TIMEOUT` (R279): No BYP_CONF within CONF_TO starts THY_FIRE pulses and sets THY and BYPASSED. -/
  | bypassConfTimeout (cell : Cell)
  /-- `THY_FIRE_PULSE` (R279): A 10 µs THY_FIRE pulse fires every 100 µs while firing continues. -/
  | thyFirePulse (cell : Cell)
  /-- `BYPASS_TEST` (R280): Once per TEST_PER the Tread pulses BYP and checks its read-back. -/
  | bypassTest (cell : Cell) (rb1 : Option Nat) (rb2 : Option Nat) (t : Time)
  /-- `BYPASS_RELEASE` (R281): A write to T_BYP_CMD with RELEASE and KEY 0x5A ends a bypass while the cell is blocked by
  a command. -/
  | bypassRelease (cell : Cell) (v : Word) (t : Time)
  /-- `LANDING_ACTION_BASE` (R284): At the landing action base of a missed cycle an armed Tread plays its entry or
  blocks. -/
  | landingActionBase (cell : Cell) (c : Word)
  /-- `FRAME_LOSS_WATCHDOG` (R329): The watchdog expires at the landing action base of cycle k0 + 3, forwarding frame
  loss and blocking an unarmed cell. -/
  | frameLossWatchdog (cell : Cell)
  /-- `GUARD_WATCHDOG` (R330): The guard island blocks all outputs when no valid frame has arrived for its RC-timed
  bound. -/
  | guardWatchdog (cell : Cell) (t : Time)
  /-- `TREAD_SUPPLY_GOOD` (R290): VDD33 passes the rising threshold and the Tread starts up into self-keep. -/
  | treadSupplyGood (cell : Cell) (full : Bool) (uv : Nat) (t : Time)
  /-- `TREAD_BOOT_DECISION` (R298): The ROM checks the firmware slots and starts a valid image or the self-keep code. -/
  | treadBootDecision (cell : Cell) (t : Time)
  /-- `TREAD_SUPPLY_FALL` (R523): VDD33 falls below the falling threshold, driving the outputs low and resetting the
  Tread. -/
  | treadSupplyFall (cell : Cell) (vmin : Bool) (t : Time)
  /-- `OV_SET_MEASURE` (R291): Every 100 ms the guard island remeasures OV_SET and lowers the threshold on a strap
  fault. -/
  | ovSetMeasure (cell : Cell) (uv : Nat) (t : Time)
  /-- `GUARD_TRIP` (R292): VCAP_IN stays above the threshold for 500 ns and the guard starts the bypass sequence. -/
  | guardTrip (cell : Cell) (t : Time)
  /-- `SUPOK_LOSS` (R296): SUPOK stays low for 1 ms at full rate and the Tread blocks the cell. -/
  | supokLoss (cell : Cell) (t : Time)
  /-- `VERIFY` (R300): T_FW_CMD.VERIFY starts checking the inactive firmware slot. -/
  | verify (cell : Cell) (t : Time)
  /-- `VERIFY_DONE` (R300): The slot check completes and sets VRES and RESULT. -/
  | verifyDone (cell : Cell) (t : Time)
  /-- `FW_SWITCH` (R300): T_FW_CMD.SWITCH with KEY 0xA5 makes the verified slot active and restarts the core island. -/
  | fwSwitch (cell : Cell) (key : Byte) (t : Time)
  /-- `ADC_CONVERSION` (R301): The ADC converts VCAP or the next sequencer input at its sampling instant, and the
  detectors of that input run. -/
  | adcConversion (cell : Cell) (num : Int) (den : Nat) (ovf : Bool) (pins : TPins) (t : Time)
  /-- `DESAT_FAULT` (R306): A fault input stays active for 200 ns and both outputs of its leg turn off and latch. -/
  | desatFault (cell : Cell) (n : Fin 4) (t : Time)
  /-- `DIGEST_UPDATE` (R312): Within 1 ms of a PW write the Tread updates its configuration digest. -/
  | digestUpdate (cell : Cell) (t : Time)
  /-- `T_SCH_READY` (R309): Tread scheduler READY makes a waiting or suspended thread ready. -/
  | tSchReady (cell : Cell) (th : Fin 16) (t : Time)
  /-- `T_SCH_WAIT` (R309): Tread scheduler WAIT blocks the caller for a READY or a time-out. -/
  | tSchWait (cell : Cell) (t : Time)
  /-- `T_SCH_SLEEP` (R309): Tread scheduler SLEEP makes the caller ready after ARG ticks. -/
  | tSchSleep (cell : Cell) (t : Time)
  /-- `T_SCH_PRIO` (R308): Tread scheduler PRIO sets a thread's priority. -/
  | tSchPrio (cell : Cell) (th : Fin 16) (prio : Fin 8) (t : Time)
  /-- `T_SCH_SUSPEND` (R309): Tread scheduler SUSPEND removes a thread from the ready queues and the delay list. -/
  | tSchSuspend (cell : Cell) (th : Fin 16) (t : Time)
  /-- `T_SCH_WAKE` (R309): A Tread thread's wake tick falls due and it becomes ready. -/
  | tSchWake (cell : Cell) (t : Time)
  /-- `T_EVC_SELECT` (R313): A write of T_EVC_SELn selects a source and clears its counter. -/
  | tEvcSelect (cell : Cell) (n : Fin 8) (src : Fin 16) (t : Time)
  /-- `SEVERITY_WRITE` (R321): A write of FLT_SEVs.SEV stores the severity, limited by the floor, for the next raise. -/
  | severityWrite (who : Requester) (src : Fin 544) (v : Word) (t : Time)
  /-- `LATCH_CLEAR` (R331): A 1 written to a fault latch or cell bit clears it unless its cause persists. -/
  | latchClear (who : Requester) (cell : Option Cell) (j : Fin 17) (v : Word) (t : Time)
  /-- `T_FLT_CLR` (R333): A write to T_FLT_CLR with KEY 0x3C clears the Tread's latched local faults whose cause has
  ended. -/
  | tFltClr (cell : Cell) (v : Word) (t : Time)
  /-- `IQ_READ` (R337): A read of FLT_IQ_RDLq removes the oldest item of an inner queue and latches its high word. -/
  | iqRead (q : Fin 48) (ecc : Nat) (t : Time)
  /-- `PERMIT_TOKEN` (R342): Every 100 ns without override the safety island writes a permit token to every ring-port
  island. -/
  | permitToken (t : Time)
  /-- `TOKEN_TIMEOUT` (R342): The last permit token becomes older than 400 ns and the ring port sets BLOCK = 1 and LAND
  = 0. -/
  | tokenTimeout (t : Time)
  /-- `SELFTEST_DONE` (R345): The start tests finish and the island enters SAFE or HALT. -/
  | selftestDone (pass : Bool) (t : Time)
  /-- `SAFETY_INTERNAL_FAULT` (R345): An internal fault puts the island into HALT with outputs low and raises 0x075. -/
  | safetyInternalFault (t : Time)
  /-- `SAF_RESET` (R345): SAF_RESET_N or the safety rail holds the island in reset and returns it to SELFTEST. -/
  | safReset (held : Bool) (rail : Bool) (a : Fin 256) (b : Fin 256) (t : Time)
  /-- `SAFETY_TRIP` (R345): A trip cause moves the island from PERMIT to SAFE with outputs low within 1 µs. -/
  | safetyTrip (t : Time)
  /-- `SBO_REL` (R346): SAF_CMD.SBO_REL with KEY 0x6B releases the safe block outputs into PERMIT, or is refused. -/
  | sboRel (key : Byte) (t : Time)
  /-- `DCLR` (R351): SAF_CMD.DCLR clears the discrepancy latch of consistent pairs, or is refused. -/
  | dclr (mask : Byte) (t : Time)
  /-- `TEST` (R348): SAF_CMD.TEST starts one extra pulse test of every enabled output. -/
  | test (t : Time)
  /-- `SBO_PULSE_TEST` (R348): Each TPER an enabled output is pulsed low for PW and its read-back checked. -/
  | sboPulseTest (n : Fin 4) (late : Time) (t : Time)
  /-- `READBACK_FAILURE` (R348): A read-back that disagrees longer than RBW sets SBOF, raises 0x074 and is a trip cause.
  -/
  | readbackFailure (n : Fin 4) (rb : Bool) (since : Time) (t : Time)
  /-- `SAFETY_INPUT_CHANGE` (R349): A filtered safety input level changes, starting or ending a demand and the
  discrepancy timer. -/
  | safetyInputChange (p : Fin 8) (chB : Bool) (level : Bool) (since : Time) (t : Time)
  /-- `DISCREPANCY_TIMEOUT` (R350): An inconsistency lasts DISC × 100 µs and the discrepancy latch sets and raises 0x078
  + p. -/
  | discrepancyTimeout (p : Fin 8) (t : Time)
  /-- `BALUSTRADE_OUTPUT` (R353): A balustrade channel completes an output, and SLC limits are checked on it. -/
  | balustradeOutput (c : Fin 8) (rise : Nat) (fall : Nat) (per : Time) (t : Time)
  /-- `BALUSTRADE_CLOCK_LOSS` (R354): A balustrade channel clock has no edge for 1 µs and the channel faults. -/
  | balustradeClockLoss (c : Fin 8) (edge : Time) (t : Time)
  /-- `LOCK_KEY` (R364): Writes of SAF_LOCK.KEY with 0xC5 then 0x3A open the safety parameter lock, or raise a lock
  violation. -/
  | lockKey (key : Byte) (t : Time)
  /-- `CLOSE` (R365): SAF_LOCK.CLOSE activates the shadow parameter set when its CRC matches, else discards it. -/
  | close (t : Time)
  /-- `ABANDON` (R365): SAF_LOCK.ABANDON discards the shadow set and closes the lock. -/
  | abandon (t : Time)
  /-- `LOCK_TIMEOUT` (R365): 10 minutes after opening the lock closes with ABANDON and sets LOCK_TO. -/
  | lockTimeout (t : Time)
  /-- `SAFETY_DIAGNOSTIC` (R361): A periodic diagnostic of the safety island runs at its interval. -/
  | safetyDiagnostic (d : SafDiag) (ok : Bool) (t : Time)
  /-- `HEARTBEAT_SEND` (R392): At t_k + 100 ns every hub queues its heartbeat. -/
  | heartbeatSend
  /-- `HEARTBEAT` (R392): A hub receives a heartbeat, updating presence, newel, hall block and trigger-bus lines. -/
  | heartbeat (d : Hub) (ringB : Bool) (hops : Nat) (dly : Nat) (hb : Heartbeat) (cyc : Word) (t : Time)
  /-- `HEARTBEAT_MISSING` (R393): A heartbeat is missing at its deadline, feeding 0x069 and the takeover condition. -/
  | heartbeatMissing (d : Hub) (k : Word)
  /-- `PARTNER_WAIT` (R368): An even whole-unit hub waits 64 cycles after link lock and enters ACTIVE or STANDBY. -/
  | partnerWait (t : Time)
  /-- `NEWEL_CHANGE` (R394): At the cycle start 16 cycles after a new newel names itself the change takes effect and
  raises 0x06D. -/
  | newelChange (t : Time)
  /-- `TIME` (R395): A hub receives the newel's TIME message and forms its offset θ. -/
  | timeMessage (ringB : Bool) (dep : Time) (len : Nat) (corr : Time) (step : Option (Nat × Int)) (cyc : Word) (delay :
      Time) (t : Time)
  /-- `BLOCK` (R398): A hub receives a stack-wide BLOCK and blocks all its arms while the block holds. -/
  | blockMessage (d : Hub) (cyc : Word) (t : Time)
  /-- `TRIP_MESSAGE` (R327): A hub receives a stack-wide TRIP, blocks its arms and asserts its safe block outputs. -/
  | tripMessage (d : Hub) (cyc : Word) (t : Time)
  /-- `RESIGN` (R383): STK_CMD.RESIGN with KEY 0x4E sends RESIGN to a READY partner naming the cycle 64 ahead, or is
  refused. -/
  | resign (key : Byte) (t : Time)
  /-- `RESIGN_MESSAGE` (R380): A standby receives RESIGN and meets the takeover condition at the named cycle. -/
  | resignMessage (k : Word) (t : Time)
  /-- `REVERT` (R386): An odd partner receives REVERT and takes it as its RESIGN. -/
  | revert (k : Word) (t : Time)
  /-- `REVERT_HOLD` (R386): An even standby has been READY for HOLD × 100 ms and sends REVERT. -/
  | revertHold (t : Time)
  /-- `STK_ADMIT` (R379): STK_CMD.ADMIT at the newel sends ADMIT to a fenced healthy hub, or is refused. -/
  | stkAdmit (d : Hub) (t : Time)
  /-- `ADMIT` (R379): A fenced hub receives ADMIT, stores the epoch and enters STANDBY. -/
  | admitMessage (e : Fin 65536) (t : Time)
  /-- `RELAY_DN` (R222): The standby receives relayed carriages and carts and emits them on its port. -/
  | relayDn (r : Ring) (dir : Fin 4) (block : Bool) (commit : Bool) (land : Bool) (pfar : Pos) (hop : Fin 64) (cars :
      List Slot) (carts : List Slot) (epoch : Fin 65536) (k : Word) (t : Time)
  /-- `RELAY_UP` (R222): The primary receives a relayed train back from the standby. -/
  | relayUp (r : Ring) (f : Frame) (t : Time)
  /-- `EXCH` (R399): A hub receives an energy-balance exchange message from another hub. -/
  | exch (d : Hub) (k : Word) (w0 : Word) (w1 : Word) (w2 : Word) (w3 : Word) (t : Time)
  /-- `SNAPSHOT` (R371): The standby receives a snapshot and makes it its base when complete and correct. -/
  | snapshot (x : Snap) (t : Time)
  /-- `JOURNAL` (R372): The standby receives and stores a journal record. -/
  | journal (j : JRec) (t : Time)
  /-- `SNAPSHOT_LOAD_DONE` (R381): The base is loaded from LPDDR5 into engine, gallery and ring ports. -/
  | snapshotLoadDone (t : Time)
  /-- `REPLAY_DONE` (R382): Journal replay completes and the hub writes epoch + 1 and takes the emitting role. -/
  | replayDone (t : Time)
  /-- `POWER_ON_RESET` (R474): The power-on reset releases the chip 2 ms after every rail monitor is good. -/
  | powerOnReset (t : Time) (x : StartIn)
  /-- `RESET_PIN` (R480): RESET_N held low for 1 µs resets the chip. -/
  | resetPin (since : Time) (t : Time)
  /-- `CHIP` (R482): CLK_RST_CMD.CHIP with KEY 0x9D starts a chip reset 1 µs later while every arm is blocked. -/
  | chip (bit : Bool) (key : Byte) (w : Time) (t : Time) (x : StartIn)
  /-- `THERMAL_SHUTDOWN` (R483): Die temperature above 135 °C for 1 ms holds the chip in reset until below 110 °C. -/
  | thermalShutdown (since : Time) (t : Time)
  /-- `PFAIL` (R500): PFAIL_N falls, discarding queued and waiting PW writes that have not started. -/
  | pfail (t : Time)
  /-- `AVS_PERIOD` (R477): Every PER × 100 µs the AVS loop reads the slack monitors and steps the core voltage. -/
  | avsPeriod (ack : Bool) (mons : List Nat) (vmeas : Nat) (t : Time)
  /-- `BOOT_VERIFY` (R491): The boot engine reads and verifies a flash slot and starts core 0 or sets FAIL. -/
  | bootVerify (a : Option (List Byte)) (b : Option (List Byte)) (t : Time)
  /-- `GO` (R492): GEN_BOOT_CMD.GO with KEY 0x47 starts verification of a host-loaded image. -/
  | go (go : Bool) (key : Byte) (t : Time)
  /-- `CHAL` (R494): GEN_DBG_CMD.CHAL with KEY 0xD1 generates a new debug challenge. -/
  | chal (key : Byte) (t : Time)
  /-- `SUBMIT` (R494): GEN_DBG_CMD.SUBMIT with KEY 0xD1 starts checking the debug certificate and response. -/
  | submit (key : Byte) (t : Time)
  /-- `DEBUG_CHECK_DONE` (R494): The debug check completes, opening the lock or counting a failure. -/
  | debugCheckDone (t : Time)
  /-- `DEBUG_CLOSE` (R496): GEN_DBG_CMD.CLOSE with KEY 0xD1 closes the debug lock. -/
  | debugClose (key : Byte) (t : Time)
  /-- `HOST_RESET` (R403): A function-level, hot or link reset resets the host island and both CAN controllers only. -/
  | hostReset (lost : Bool) (t : Time)
  /-- `BAR2_WRITE` (R402): A BAR2 write reaches core memory only while BAR2_WE is 1. -/
  | bar2Write (off : Nat) (bytes : List Byte) (t : Time)
  /-- `BAD_ACC` (R404): A misaligned BAR0 write is discarded and sets BAD_ACC. -/
  | badAcc (write : Bool) (off : Nat) (n : Nat) (t : Time)
  /-- `DOORBELL` (R408): A write of HQ_DBn hands entries to the hub or returns device-written entries. -/
  | doorbell (n : HRing) (idx : Nat) (t : Time)
  /-- `RING_CONFIG_WRITE` (R424): A write to a ring's configuration enables or disables it, or is refused for an enabled
  ring's layout fields. -/
  | ringConfigWrite (n : HRing) (which : Fin 8) (v : Word) (t : Time)
  /-- `READ_FAIL` (R411): A descriptor or buffer read returns an error and the ring stops. -/
  | readFail (n : HRing) (t : Time)
  /-- `NOP` (R412): NOP completes with no action. -/
  | nop (n : HRing) (opc : Nat) (cid : Nat) (t : Time)
  /-- `REG_WR` (R415): REG_WR performs a masked register write and returns the previous value. -/
  | regWr (n : HRing) (cid : Nat) (off : Nat) (v : Word) (mask : Word) (t : Time)
  /-- `REG_RD` (R415): REG_RD reads a register with its side effects. -/
  | regRd (n : HRing) (cid : Nat) (off : Nat) (t : Time)
  /-- `MBX_COMMIT` (R416): MBX_COMMIT stages four words in the host area and commits them to a mailbox. -/
  | mbxCommit (n : HRing) (cid : Nat) (m : Nat) (words : List Word) (t : Time)
  /-- `ARM_DEBLOCK` (R418): ARM_DEBLOCK deblocks every arm of its mask at the next qualifying cycle start, or refuses
  all with their causes. -/
  | armDeblock (n : HRing) (cid : Nat) (mask : Nat) (t : Time)
  /-- `ARM_BLOCK` (R419): ARM_BLOCK sets BLOCK = 1 in every frame of the arms in its mask. -/
  | armBlock (n : HRing) (cid : Nat) (mask : Nat) (t : Time)
  /-- `RING_COMMIT` (R420): RING_COMMIT sets COMMIT = 1 in a named or next frame of the masked rings. -/
  | ringCommit (n : HRing) (cid : Nat) (mask : Nat) (k : Nat) (next : Bool) (t : Time)
  /-- `CAR_DUTY` (R420): CAR_DUTY makes a carrier-mode cell's carriages carry a new duty. -/
  | carDuty (n : HRing) (cid : Nat) (cell : Nat) (duty : Nat) (on : Nat) (t : Time)
  /-- `WAIT_CYCLE` (R412): WAIT_CYCLE stalls its command ring until the named cycle starts. -/
  | waitCycle (n : HRing) (cid : Nat) (k : Nat) (t : Time)
  /-- `ETH_TX` (R422): ETH_TX sends an Ethernet frame, optionally time-stamped. -/
  | ethTx (n : HRing) (cid : Nat) (port : Nat) (ts : Bool) (tsid : Nat) (frame : List Byte) (t : Time)
  /-- `ETH_TX_COMPLETE` (R422): An Ethernet transmission ends and its completion is written. -/
  | ethTxComplete (n : HRing) (age : Nat) (t : Time)
  /-- `ETH_RXBUF` (R422): ETH_RXBUF posts a receive buffer for a port. -/
  | ethRxbuf (n : HRing) (cid : Nat) (port : Nat) (addr : Nat) (len : Nat) (t : Time)
  /-- `ETH_RECEIVE` (R422): A MAC receives a frame, filters it, fills a posted buffer and writes an event. -/
  | ethReceive (port : Fin 2) (bytes : List Byte) (fcsOk : Bool) (age : Nat) (t : Time)
  /-- `CART` (R414): A cart descriptor queues a cart at a ring port and completes with its reply. -/
  | cart (who : Requester) (n : HRing) (cid : Nat) (r : Ring) (op : Nat) (pos : Nat) (arg : Nat) (data : Nat) (raddr :
      Nat) (t : Time)
  /-- `MODERATION_TIMER` (R423): MOD_TMR µs after the first unsignalled entry the ring sends its MSI-X vector. -/
  | moderationTimer (n : HRing) (t : Time)
  /-- `SCH_READY` (R436): READY ends a thread's WAIT or sets its pending signal. -/
  | schReady (who : Option CoreNo) (th : Fin 256) (t : Time)
  /-- `SCH_WAIT` (R436): WAIT blocks the caller for a signal with an optional time-out. -/
  | schWait (who : Option CoreNo) (t : Time)
  /-- `SCH_SLEEP` (R434): SLEEP makes the caller ready after ARG ticks. -/
  | schSleep (who : Option CoreNo) (t : Time)
  /-- `SCH_PRIO` (R434): PRIO sets a thread's priority and may preempt. -/
  | schPrio (who : Option CoreNo) (th : Fin 256) (prio : Fin 32) (t : Time)
  /-- `SCH_SUSPEND` (R439): SUSPEND takes a thread out of any wait into SUSPENDED, abandoning its ticket. -/
  | schSuspend (who : Option CoreNo) (th : Fin 256) (t : Time)
  /-- `SCH_RESUME` (R434): RESUME makes a suspended thread ready with SUSP set. -/
  | schResume (who : Option CoreNo) (th : Fin 256) (t : Time)
  /-- `WAIT_Q` (R434): WAIT_Q blocks the caller until an inner queue holds an item or the time-out. -/
  | waitQ (who : Option CoreNo) (q : Fin 256) (t : Time)
  /-- `WAIT_CYC` (R437): WAIT_CYC blocks the caller until a named cycle starts, or returns LATE. -/
  | waitCyc (who : Option CoreNo) (t : Time)
  /-- `FLOW_ENTER` (R438): FLOW_ENTER gives the caller the next ticket of a flow, waiting when 64 are outstanding. -/
  | flowEnter (who : Option CoreNo) (f : Fin 16) (t : Time)
  /-- `FLOW_RELEASE` (R439): FLOW_RELEASE releases the caller's ticket once every earlier ticket is released. -/
  | flowRelease (who : Option CoreNo) (f : Fin 16) (t : Time)
  /-- `EXIT` (R434): EXIT makes the caller DORMANT and abandons its ticket. -/
  | exit (who : Option CoreNo) (t : Time)
  /-- `START` (R434): START makes a DORMANT or FAULTED thread ready. -/
  | start (who : Option CoreNo) (th : Fin 256) (t : Time)
  /-- `SCH_TIMEOUT` (R437): A wait's time-out tick falls due and the thread becomes ready with TIMEOUT. -/
  | schTimeout (t : Time)
  /-- `DISPATCH` (R432): A dispatch slot offers a ready thread to a core and raises its dispatch interrupt. -/
  | dispatch (t : Time)
  /-- `SCH_SWITCH` (R433): A write of SCH_SWITCH confirms the offered thread or idle, or is refused. -/
  | schSwitch (c : CoreNo) (th : Fin 256) (idle : Bool) (t : Time)
  /-- `SCH_RES_READ` (R435): A read of SCH_RES stalls until the core's latest operation has executed. -/
  | schResRead (c : CoreNo) (t : Time)
  /-- `LOCKSTEP_MISMATCH` (R426): The halves of a logical core disagree, halting the core and faulting its thread. -/
  | lockstepMismatch (c : CoreNo) (t : Time)
  /-- `CORE_RUN` (R441): A write of RUN = 1 starts a core at its vector unless its lockstep latch is set. -/
  | coreRun (c : CoreNo) (v : Bool) (t : Time)
  /-- `TRIG_IN_EDGE` (R447): A filtered TRIG_IN edge fires its recorder trigger and may drive a bus line. -/
  | trigInEdge (n : Fin 4) (level : Bool) (h : Time)
  /-- `TRIG` (R447): REC_CMD.TRIG fires a software trigger. -/
  | trig (t : Time)
  /-- `REC_STOP` (R450): REC_CMD.STOP frees the armed segment. -/
  | recStop (t : Time)
  /-- `REC_FREE` (R450): REC_CMD.FREE frees a named FULL segment. -/
  | recFree (j : Fin 4096) (t : Time)
  /-- `REC_ENABLE` (R445): A write of REC_CTRL.EN enables the recorder or is refused for a bad region or segment size.
  -/
  | recEnable (v : Word) (t : Time)
  /-- `SEGMENT_FULL` (R450): The POST slices complete, the segment enters FULL and the next segment is armed. -/
  | segmentFull (t : Time)
  /-- `SEGMENT_COPY_DONE` (R453): A FULL segment is copied to the host area and its ring entry written. -/
  | segmentCopyDone (t : Time)
  /-- `CAN_INIT_WRITE` (R459): A write of CAN_CTRL.INIT stops the controller and discards its frames, or starts bus
  integration. -/
  | canInitWrite (n : Fin 2) (v : Bool) (t : Time)
  /-- `CAN_INTEGRATION_DONE` (R459): After 11 recessive bits the controller becomes error active. -/
  | canIntegrationDone (n : Fin 2) (t : Time)
  /-- `PUSH` (R460): CAN_CMD.PUSH appends the staged frame to the transmit queue, or is refused when full. -/
  | push (n : Fin 2) (who : Requester) (t : Time)
  /-- `URGENT` (R460): CAN_CMD.URGENT copies the staged frame into the urgent buffer, or is refused when busy. -/
  | urgent (n : Fin 2) (who : Requester) (t : Time)
  /-- `CANCEL` (R463): CAN_CMD.CANCEL removes a waiting frame or the urgent frame. -/
  | cancel (n : Fin 2) (urg : Bool) (tag : Fin 65536) (t : Time)
  /-- `RECOVER` (R465): CAN_CMD.RECOVER starts bus-off recovery. -/
  | recover (n : Fin 2) (t : Time)
  /-- `CAN_RING_FETCH` (R460): The controller fetches a frame from its transmit ring into the queue. -/
  | canRingFetch (n : Fin 2) (words : List Word) (t : Time)
  /-- `CAN_START_OF_FRAME` (R461): At a start of frame the controller offers the urgent frame or the queue head to
  arbitration. -/
  | canStartOfFrame (n : Fin 2) (t : Time)
  /-- `CAN_TX_DONE` (R464): A frame leaves with its outcome, retried on error up to RETRY. -/
  | canTxDone (n : Fin 2) (e : CanEnd) (delay : Nat) (tec : Nat) (rec : Nat) (t : Time)
  /-- `CAN_BUS_OFF` (R465): The transmit error counter passes 255 and the controller enters bus-off. -/
  | canBusOff (n : Fin 2) (t : Time)
  /-- `CAN_RECOVERY_DONE` (R465): After 128 recessive idle sequences recovery ends with error counters 0. -/
  | canRecoveryDone (n : Fin 2) (t : Time)
  /-- `CAN_RECEIVE` (R467): A correct received frame is filtered and routed to a queue or mailbox. -/
  | canReceive (n : Fin 2) (f : CanFrame) (ok : Bool) (age : Nat) (tec : Nat) (rec : Nat) (t : Time)
  /-- `RXQ_ACK` (R468): A write of CAN_RXQq_ACK removes the head entry of a receive queue. -/
  | rxqAck (n : Fin 2) (q : Fin 2) (t : Time)
  /-- `SMB_LOCK_READ` (R470): A read of word 0 of a safety mailbox locks it. -/
  | smbLockRead (who : Requester) (n : Fin 2) (m : Fin 4) (t : Time)
  /-- `SMB_UNLOCK_READ` (R470): A read of word 23 of a safety mailbox unlocks it and promotes a pending frame. -/
  | smbUnlockRead (who : Requester) (n : Fin 2) (m : Fin 4) (t : Time)
  /-- `UNLOCK` (R470): CAN_SMBm_CMD.UNLOCK unlocks a safety mailbox. -/
  | unlock (n : Fin 2) (m : Fin 4) (t : Time)
  /-- `EVC_SELECT` (R509): A write of EVC_SELn zeroes the counter and selects its source from the next clock. -/
  | evcSelect (n : Fin 64) (src : Fin 512) (clear : Bool) (t : Time)
  /-- `FREEZE` (R510): A write of EVC_CTRL.FREEZE stops or resumes every event counter. -/
  | freeze (v : Bool) (t : Time)
  /-- `LINK_FAULT_RECEIVED` (R541): A receive lane that keeps block lock receives its fourth consecutive LINK_FAULT
  block and becomes link-down, taking a Tread into the loop-back role or a ring port into LINK with a split trigger. -/
  | linkFaultReceived (l : Lane) (t : Time)
  /-- `LINK_FAULT_CLEARED` (R541): A link-down lane that kept block lock receives blocks other than LINK_FAULT again and
  is no longer link-down, letting a ring port leave LINK. -/
  | linkFaultCleared (l : Lane) (t : Time)
  /-- `FAREND_RECEIVED` (R201): A Tread's downstream receive lane starts carrying FAREND blocks, and the Tread takes the
  loop-back role with CAUSE 0b00 and sends far-end copies. -/
  | farendReceived (l : Lane) (t : Time)
  /-- `FAREND_STOPS` (R201): FAREND stops arriving on a Tread's downstream lane and its FAREND loop-back role ends. -/
  | farendStops (l : Lane) (t : Time)
  /-- `FAR_END_COPY_ARRIVAL` (R218): A far-end copy of a frame arrives at a port in FAR, which records its arrival for
  LATEST and counts it as far-end evidence of its cycle. -/
  | farEndCopyArrival (q : Ring) (f : Frame) (t : Time)
  /-- `TITAJOR_MESSAGE_FORWARD` (R389): A hub receives a Titajor message not addressed to it and forwards it with TTL −
  1, or discards it when it returns to its source, when its TTL is 0, or when its CRC or MTYPE fails. -/
  | titajorMessageForward (m : BitVec 256) (residence : Time) (t : Time)
  /-- `ISLAND_CLOCK_RETURN` (R29): A monitored island clock returns to its permitted band, and that island's clock fault
  source is no longer live. -/
  | islandClockReturn (n : Fin 39) (t : Time)
  /-- `RAIL_OUT_OF_RANGE` (R521): A Stairhead rail monitor leaves or re-enters its operating range, changing
  CLK_RAIL_STAT.GOOD and source 0x0B5, acting as PFAIL_N low for the PRB, and holding the chip in reset below the reset
  threshold. -/
  | railOutOfRange (rail : Fin 8) (lv : RailLevel) (t : Time)
  /-- `CORE_VOLTAGE_OUT_OF_RANGE` (R478): The on-die sensor measures VDD_CORE outside 630 to 870 mV for 10 µs, and
  source 0x0B4 becomes live. -/
  | coreVoltageOutOfRange (mv : Nat) (since : Time) (t : Time)
  /-- `DIE_TEMPERATURE_HIGH` (R504): The die temperature rises above or falls to CLK_TEMP.HI, and source 0x0B6 is live
  or ends. -/
  | dieTemperatureHigh (c : Int) (t : Time)
  /-- `THERMAL_SHUTDOWN_END` (R483): The die temperature falls below 110 °C and the chip leaves its thermal reset and
  starts up. -/
  | thermalShutdownEnd (c : Int) (t : Time) (x : StartIn)
  /-- `RESET_N_RELEASE` (R474): RESET_N rises and the chip leaves reset, starting the sequence of Table 4. -/
  | resetNRelease (t : Time) (x : StartIn)
  /-- `PFAIL_N_RISE` (R500): PFAIL_N rises again without a reset, and PW writes presented afterwards commit normally
  while PRB_STAT.PFAIL stays set. -/
  | pfailNRise (t : Time)
  /-- `UNCORRECTABLE_ECC_ERROR` (R428): An uncorrectable ECC error is detected in core memory, staging, gallery tables,
  ring buffers or LPDDR5, raising its source 0x0C0 to 0x0C4 and faulting the accessing core where one made the access.
  -/
  | uncorrectableEccError (src : Fin 5) (t : Time)
  /-- `PCIE_LINK_UP` (R423): The PCI Express data link layer becomes active, which sets HQ_STAT.LINK_UP, ends source
  0x0E0 and sends the error vector when it is enabled. -/
  | pcieLinkUp (speed : Nat) (width : Nat) (t : Time)
  /-- `BUS_MASTER_ENABLE_WRITE` (R411): A configuration write changes Bus Master Enable, and clearing it stalls every
  ring and sets HQ_ERR.BME_OFF. -/
  | busMasterEnableWrite (bme : Bool) (msix : Bool) (t : Time)
  /-- `JTAG_INSTRUCTION` (R495): A JTAG instruction is loaded, which is accepted only within the open debug scope and,
  for a ball-driving instruction, only while all arms are blocked; leaving a ball-driving instruction starts a chip
  reset. -/
  | jtagInstruction (op : JtagOp) (t : Time) (x : StartIn)
  /-- `CAN_PROTOCOL_EXCEPTION` (R456): A recessive res bit in an FD frame makes the controller start bus integration and
  increment CAN_CNT.PEXC. -/
  | canProtocolException (n : Fin 2) (t : Time)
  deriving DecidableEq, Repr

end Sys2Proof
end

