-- ==== Sys2Proof/Config.lean ====
section
/-!
DEFINITION. Config.lean: what an implementation of the part fixes and the spec does not, and the free values. Every
constant here is opaque: no proof can see what it is.
-/

namespace Sys2Proof.Config

/-- A value the spec leaves open, fresh for each value of the state's counter (log entry 3). -/
opaque freeValue : Nat → Nat

/-- A value of a Tread that the spec leaves open, by the Tread's unique identity and its counter (log entry 3). -/
opaque treadFree : Nat → Nat → Nat

/-- The word of the persistent register bank that backs a register, by its offset: the fixed assignment of R498,
which the spec does not give (log entry 4). -/
opaque prbWord : Nat → Nat

/-- Where a generator sine lies inside the band of 2^-20 that R139 allows, by its argument (log entry 32). -/
opaque sineError : Nat → Nat

/-- The payload of a NaN that the part writes, less 1, by the precision of its format (log entry 30). -/
opaque nanPayload : Nat → Nat

/-- The error of a DFT result that R142 leaves to the hardware's sines and order of summation (log entry 33): the
argument is the bin, the part and the state's counter. -/
opaque dftError : Nat → Nat → Nat → Int

/-- The weights of the FIR stages of a preset over its sinc3 outputs, from the outer one inwards: the spec gives none (log
entry 68). -/
opaque firTap : Nat → Nat → Int

/-- The VCAP average of fewer conversions than R303 names, newest first (log entry 51). -/
opaque vcapShort : List Nat → Nat

/-- The configuration digest of the registers and list words that R373 covers: it does not give their order in the CRC
(log entry 57). -/
opaque cfgDigest : List (Nat × BitVec 32) → Nat

/-- The LPDDR5 fitted to the part, in units of 64 MiB (log entry 58). -/
opaque fittedMem : Nat

end Sys2Proof.Config
end

