-- ==== Sys2Proof/Machine/RegMap.lean ====
section
/-!
DEFINITION. Machine/RegMap.lean: where every register and every field of the part lies, and what each register reads
after reset. One function per register and per field, named as the spec names them, with the indices the spec gives.
The tables are those of spec/01 to spec/18; the values of `kept` registers are the factory values of R44, R79, R104,
R288, R314, R318, R343, R366, R400 and R504. A Stairhead register is named by its BAR0 offset (R404); the six core-local
scheduler registers (spec/14, Table 5) lie on pages above BAR0, one page per core. A Tread register is named by its
offset in the Tread's own 4 KiB space (R7).
-/

namespace Sys2Proof.Machine

/-! Registers. -/

/-- 01: `GEN_ID`. -/
def R.GEN_ID : Nat := 0x0
/-- 01: `GEN_UIDL`. -/
def R.GEN_UIDL : Nat := 0x4
/-- 01: `GEN_UIDH`. -/
def R.GEN_UIDH : Nat := 0x8
/-- 01: `GEN_TOPO`. -/
def R.GEN_TOPO : Nat := 0x200
/-- 01: `GEN_ARM_CFG`. -/
def R.GEN_ARM_CFG (n : Nat) : Nat := 0x204 + 0x4 * n
/-- 01: `GEN_RING_ARM`. -/
def R.GEN_RING_ARM (n : Nat) : Nat := 0x220 + 0x4 * n
/-- 01: `GEN_ARM_RINGS`. -/
def R.GEN_ARM_RINGS : Nat := 0x230
/-- 01: `GEN_CONT`. -/
def R.GEN_CONT (n : Nat) : Nat := 0x300 + 0x4 * n
/-- 02: `GEN_CYC_LEN`. -/
def R.GEN_CYC_LEN : Nat := 0x400
/-- 02: `GEN_CYC_CTRL`. -/
def R.GEN_CYC_CTRL : Nat := 0x404
/-- 02: `GEN_CYC_NUM`. -/
def R.GEN_CYC_NUM : Nat := 0x408
/-- 02: `GEN_CYC_STAT`. -/
def R.GEN_CYC_STAT : Nat := 0x40c
/-- 02: `GEN_ARM_LEAD`. -/
def R.GEN_ARM_LEAD (n : Nat) : Nat := 0x420 + 0x4 * n
/-- 02: `GEN_RING_DLV`. -/
def R.GEN_RING_DLV (n : Nat) : Nat := 0x500 + 0x4 * n
/-- 02: `GEN_RING_RET`. -/
def R.GEN_RING_RET (n : Nat) : Nat := 0x580 + 0x4 * n
/-- 02: `GEN_RING_LATE`. -/
def R.GEN_RING_LATE (n : Nat) : Nat := 0x600 + 0x4 * n
/-- 03: `MI_CTRL`. -/
def R.MI_CTRL : Nat := 0x40000
/-- 03: `MI_STAT`. -/
def R.MI_STAT : Nat := 0x40004
/-- 03: `MI_CMD`. -/
def R.MI_CMD : Nat := 0x40008
/-- 03: `MI_ERR`. -/
def R.MI_ERR : Nat := 0x4000c
/-- 03: `MI_CFG`. -/
def R.MI_CFG (c : Nat) : Nat := 0x40100 + 0x40 * c
/-- 03: `MI_GAIN`. -/
def R.MI_GAIN (c : Nat) : Nat := 0x40104 + 0x40 * c
/-- 03: `MI_OFFS`. -/
def R.MI_OFFS (c : Nat) : Nat := 0x40108 + 0x40 * c
/-- 03: `MI_GUARD_CFG`. -/
def R.MI_GUARD_CFG (c : Nat) : Nat := 0x4010c + 0x40 * c
/-- 03: `MI_GUARD_HI`. -/
def R.MI_GUARD_HI (c : Nat) : Nat := 0x40110 + 0x40 * c
/-- 03: `MI_GUARD_LO`. -/
def R.MI_GUARD_LO (c : Nat) : Nat := 0x40114 + 0x40 * c
/-- 03: `MI_SWIFT`. -/
def R.MI_SWIFT (c : Nat) : Nat := 0x40118 + 0x40 * c
/-- 03: `MI_CONTROL`. -/
def R.MI_CONTROL (c : Nat) : Nat := 0x4011c + 0x40 * c
/-- 03: `MI_QUIET`. -/
def R.MI_QUIET (c : Nat) : Nat := 0x40120 + 0x40 * c
/-- 03: `MI_RECORD`. -/
def R.MI_RECORD (c : Nat) : Nat := 0x40124 + 0x40 * c
/-- 03: `MI_CHSTAT`. -/
def R.MI_CHSTAT (c : Nat) : Nat := 0x40128 + 0x40 * c
/-- 04: `ACE_STAT`. -/
def R.ACE_STAT : Nat := 0x80000
/-- 04: `ACE_LIST_CMD`. -/
def R.ACE_LIST_CMD : Nat := 0x80004
/-- 04: `ACE_LIST_STAT`. -/
def R.ACE_LIST_STAT : Nat := 0x80008
/-- 04: `ACE_NUM_STAT`. -/
def R.ACE_NUM_STAT : Nat := 0x8000c
/-- 04: `ACE_MHOLD0`. -/
def R.ACE_MHOLD0 : Nat := 0x80010
/-- 04: `ACE_MHOLD1`. -/
def R.ACE_MHOLD1 : Nat := 0x80014
/-- 04: `ACE_ARM_CFG`. -/
def R.ACE_ARM_CFG (a : Nat) : Nat := 0x80040 + 0x10 * a
/-- 04: `ACE_ARM_OUT`. -/
def R.ACE_ARM_OUT (a : Nat) : Nat := 0x80044 + 0x10 * a
/-- 04: `ACE_ARM_FRAC`. -/
def R.ACE_ARM_FRAC (a : Nat) : Nat := 0x80048 + 0x10 * a
/-- 04: `ACE_ARM_POS`. -/
def R.ACE_ARM_POS (a : Nat) : Nat := 0x8004c + 0x10 * a
/-- 04: `ACE_CONST`. -/
def R.ACE_CONST (n : Nat) : Nat := 0x80100 + 0x4 * n
/-- 04: `ACE_RGN_CFG`. -/
def R.ACE_RGN_CFG (d : Nat) : Nat := 0x80200 + 0x40 * d
/-- 04: `ACE_RGN_MAP0`. -/
def R.ACE_RGN_MAP0 (d : Nat) : Nat := 0x80204 + 0x40 * d
/-- 04: `ACE_RGN_MAP1`. -/
def R.ACE_RGN_MAP1 (d : Nat) : Nat := 0x80208 + 0x40 * d
/-- 04: `ACE_RGN_HYS1`. -/
def R.ACE_RGN_HYS1 (d : Nat) : Nat := 0x8020c + 0x40 * d
/-- 04: `ACE_RGN_HYS2`. -/
def R.ACE_RGN_HYS2 (d : Nat) : Nat := 0x80210 + 0x40 * d
/-- 04: `ACE_RGN_TH1`. -/
def R.ACE_RGN_TH1 (d k : Nat) : Nat := 0x80214 + 0x40 * d + 0x4 * k
/-- 04: `ACE_RGN_TH2`. -/
def R.ACE_RGN_TH2 (d k : Nat) : Nat := 0x80220 + 0x40 * d + 0x4 * k
/-- 04: `ACE_RGN_STAT`. -/
def R.ACE_RGN_STAT (d : Nat) : Nat := 0x8022c + 0x40 * d
/-- 04: `ACE_STG_W`. -/
def R.ACE_STG_W (n : Nat) : Nat := 0x80400 + 0x4 * n
/-- 04: `ACE_STG_COMMIT`. -/
def R.ACE_STG_COMMIT : Nat := 0x80410
/-- 04: `ACE_STG_STAT`. -/
def R.ACE_STG_STAT : Nat := 0x80414
/-- 04: `ACE_INJ_CTRL`. -/
def R.ACE_INJ_CTRL : Nat := 0x80500
/-- 04: `ACE_INJ_CMD`. -/
def R.ACE_INJ_CMD : Nat := 0x80504
/-- 04: `ACE_INJ_STAT`. -/
def R.ACE_INJ_STAT : Nat := 0x80508
/-- 04: `ACE_INJ_AMP`. -/
def R.ACE_INJ_AMP : Nat := 0x8050c
/-- 04: `ACE_INJ_F0`. -/
def R.ACE_INJ_F0 : Nat := 0x80510
/-- 04: `ACE_INJ_F1`. -/
def R.ACE_INJ_F1 : Nat := 0x80514
/-- 04: `ACE_INJ_LEN`. -/
def R.ACE_INJ_LEN : Nat := 0x80518
/-- 04: `ACE_INJ_PERIOD`. -/
def R.ACE_INJ_PERIOD : Nat := 0x8051c
/-- 04: `ACE_TONE_AMP`. -/
def R.ACE_TONE_AMP (n : Nat) : Nat := 0x80580 + 0x4 * n
/-- 04: `ACE_TONE_PH`. -/
def R.ACE_TONE_PH (n : Nat) : Nat := 0x805c0 + 0x4 * n
/-- 04: `ACE_CAP_CTRL`. -/
def R.ACE_CAP_CTRL : Nat := 0x80600
/-- 04: `ACE_CAP_CMD`. -/
def R.ACE_CAP_CMD : Nat := 0x80604
/-- 04: `ACE_CAP_STAT`. -/
def R.ACE_CAP_STAT : Nat := 0x80608
/-- 04: `ACE_CAP_BASE`. -/
def R.ACE_CAP_BASE : Nat := 0x8060c
/-- 04: `ACE_CAP_CYC`. -/
def R.ACE_CAP_CYC : Nat := 0x80610
/-- 04: `ACE_CAP_LEN`. -/
def R.ACE_CAP_LEN : Nat := 0x80614
/-- 04: `ACE_CAP_CNT`. -/
def R.ACE_CAP_CNT : Nat := 0x80618
/-- 04: `ACE_DFT_CFG`. -/
def R.ACE_DFT_CFG (j : Nat) : Nat := 0x80700 + 0x20 * j
/-- 04: `ACE_DFT_NRE`. -/
def R.ACE_DFT_NRE (j : Nat) : Nat := 0x80704 + 0x20 * j
/-- 04: `ACE_DFT_NIM`. -/
def R.ACE_DFT_NIM (j : Nat) : Nat := 0x80708 + 0x20 * j
/-- 04: `ACE_DFT_DRE`. -/
def R.ACE_DFT_DRE (j : Nat) : Nat := 0x8070c + 0x20 * j
/-- 04: `ACE_DFT_DIM`. -/
def R.ACE_DFT_DIM (j : Nat) : Nat := 0x80710 + 0x20 * j
/-- 04: `ACE_DFT_ZRE`. -/
def R.ACE_DFT_ZRE (j : Nat) : Nat := 0x80714 + 0x20 * j
/-- 04: `ACE_DFT_ZIM`. -/
def R.ACE_DFT_ZIM (j : Nat) : Nat := 0x80718 + 0x20 * j
/-- 04: `ACE_MBX`. -/
def R.ACE_MBX (n : Nat) : Nat := 0x81000 + 0x4 * n
/-- 05: `GAL_CTRL`. -/
def R.GAL_CTRL : Nat := 0x100000
/-- 05: `GAL_STAT`. -/
def R.GAL_STAT : Nat := 0x100004
/-- 05: `GAL_QMIN`. -/
def R.GAL_QMIN : Nat := 0x100008
/-- 05: `GAL_HEALTH_CFG`. -/
def R.GAL_HEALTH_CFG : Nat := 0x10000c
/-- 05: `GAL_ARM_CFG`. -/
def R.GAL_ARM_CFG (a : Nat) : Nat := 0x100100 + 0x40 * a
/-- 05: `GAL_ARM_QV`. -/
def R.GAL_ARM_QV (a : Nat) : Nat := 0x100104 + 0x40 * a
/-- 05: `GAL_ARM_CNOM`. -/
def R.GAL_ARM_CNOM (a : Nat) : Nat := 0x100108 + 0x40 * a
/-- 05: `GAL_ARM_WGT`. -/
def R.GAL_ARM_WGT (a : Nat) : Nat := 0x10010c + 0x40 * a
/-- 05: `GAL_ARM_BAND`. -/
def R.GAL_ARM_BAND (a : Nat) : Nat := 0x100110 + 0x40 * a
/-- 05: `GAL_ARM_RATE`. -/
def R.GAL_ARM_RATE (a : Nat) : Nat := 0x100114 + 0x40 * a
/-- 05: `GAL_ARM_STAT`. -/
def R.GAL_ARM_STAT (a : Nat) : Nat := 0x100118 + 0x40 * a
/-- 05: `GAL_ARM_AVAIL`. -/
def R.GAL_ARM_AVAIL (a : Nat) : Nat := 0x10011c + 0x40 * a
/-- 05: `GAL_ARM_VC`. -/
def R.GAL_ARM_VC (a : Nat) : Nat := 0x100120 + 0x40 * a
/-- 05: `GAL_ARM_MRATE`. -/
def R.GAL_ARM_MRATE (a : Nat) : Nat := 0x100124 + 0x40 * a
/-- 05: `GAL_ARM_CMED`. -/
def R.GAL_ARM_CMED (a : Nat) : Nat := 0x100128 + 0x40 * a
/-- 05: `GAL_ARM_CNT`. -/
def R.GAL_ARM_CNT (a : Nat) : Nat := 0x10012c + 0x40 * a
/-- 05: `GAL_ARM_HLTH`. -/
def R.GAL_ARM_HLTH (a : Nat) : Nat := 0x100130 + 0x40 * a
/-- 05: `GAL_ARM_IPRED`. -/
def R.GAL_ARM_IPRED (a : Nat) : Nat := 0x100134 + 0x40 * a
/-- 05: `GAL_CELL_CTRL`. -/
def R.GAL_CELL_CTRL (i : Nat) : Nat := 0x110000 + 0x40 * i
/-- 05: `GAL_CELL_STAT`. -/
def R.GAL_CELL_STAT (i : Nat) : Nat := 0x110004 + 0x40 * i
/-- 05: `GAL_CELL_KEY`. -/
def R.GAL_CELL_KEY (i : Nat) : Nat := 0x110008 + 0x40 * i
/-- 05: `GAL_CELL_MEAS`. -/
def R.GAL_CELL_MEAS (i : Nat) : Nat := 0x11000c + 0x40 * i
/-- 05: `GAL_CELL_SW`. -/
def R.GAL_CELL_SW (i : Nat) : Nat := 0x110010 + 0x40 * i
/-- 05: `GAL_CELL_EDGES`. -/
def R.GAL_CELL_EDGES (i : Nat) : Nat := 0x110014 + 0x40 * i
/-- 05: `GAL_CELL_CEST`. -/
def R.GAL_CELL_CEST (i : Nat) : Nat := 0x110018 + 0x40 * i
/-- 05: `GAL_CELL_CONF`. -/
def R.GAL_CELL_CONF (i : Nat) : Nat := 0x11001c + 0x40 * i
/-- 05: `GAL_CELL_ESTA`. -/
def R.GAL_CELL_ESTA (i : Nat) : Nat := 0x110020 + 0x40 * i
/-- 05: `GAL_CELL_ESTB`. -/
def R.GAL_CELL_ESTB (i : Nat) : Nat := 0x110024 + 0x40 * i
/-- 05: `GAL_CELL_ESTE`. -/
def R.GAL_CELL_ESTE (i : Nat) : Nat := 0x110028 + 0x40 * i
/-- 06: `RP_CFG`. -/
def R.RP_CFG (r : Nat) : Nat := 0x200000 + 0x1000 * r
/-- 06: `RP_CMD`. -/
def R.RP_CMD (r : Nat) : Nat := 0x200004 + 0x1000 * r
/-- 06: `RP_STAT`. -/
def R.RP_STAT (r : Nat) : Nat := 0x200008 + 0x1000 * r
/-- 06: `RP_ERR`. -/
def R.RP_ERR (r : Nat) : Nat := 0x20000c + 0x1000 * r
/-- 06: `RP_POP`. -/
def R.RP_POP (r : Nat) : Nat := 0x200010 + 0x1000 * r
/-- 06: `RP_ADM`. -/
def R.RP_ADM (r : Nat) : Nat := 0x200014 + 0x1000 * r
/-- 06: `RP_NEWC`. -/
def R.RP_NEWC (r : Nat) : Nat := 0x200018 + 0x1000 * r
/-- 06: `RP_SILENT`. -/
def R.RP_SILENT (r : Nat) : Nat := 0x20001c + 0x1000 * r
/-- 06: `RP_ADMIT`. -/
def R.RP_ADMIT (r : Nat) : Nat := 0x200020 + 0x1000 * r
/-- 06: `RP_FE`. -/
def R.RP_FE (r : Nat) : Nat := 0x200024 + 0x1000 * r
/-- 06: `RP_RELAY`. -/
def R.RP_RELAY (r : Nat) : Nat := 0x200028 + 0x1000 * r
/-- 06: `RP_CNT_LINK`. -/
def R.RP_CNT_LINK (r : Nat) : Nat := 0x200030 + 0x1000 * r
/-- 06: `RP_CNT_CRC`. -/
def R.RP_CNT_CRC (r : Nat) : Nat := 0x200034 + 0x1000 * r
/-- 06: `RP_CNT_CART`. -/
def R.RP_CNT_CART (r : Nat) : Nat := 0x200038 + 0x1000 * r
/-- 06: `RP_EQ`. -/
def R.RP_EQ (r : Nat) : Nat := 0x200040 + 0x1000 * r
/-- 06: `RP_CELL_UIDL`. -/
def R.RP_CELL_UIDL (r p : Nat) : Nat := 0x200400 + 0x1000 * r + 0x20 * p
/-- 06: `RP_CELL_UIDH`. -/
def R.RP_CELL_UIDH (r p : Nat) : Nat := 0x200404 + 0x1000 * r + 0x20 * p
/-- 06: `RP_CELL_VER`. -/
def R.RP_CELL_VER (r p : Nat) : Nat := 0x200408 + 0x1000 * r + 0x20 * p
/-- 06: `RP_CELL_DIG`. -/
def R.RP_CELL_DIG (r p : Nat) : Nat := 0x20040c + 0x1000 * r + 0x20 * p
/-- 06: `RP_CELL_VPC`. -/
def R.RP_CELL_VPC (r p : Nat) : Nat := 0x200410 + 0x1000 * r + 0x20 * p
/-- 06: `RP_CELL_INFO`. -/
def R.RP_CELL_INFO (r p : Nat) : Nat := 0x200414 + 0x1000 * r + 0x20 * p
/-- 06: `RP_CELL_ERR`. -/
def R.RP_CELL_ERR (r p : Nat) : Nat := 0x200418 + 0x1000 * r + 0x20 * p
/-- 07: `HT_CTRL`. -/
def R.HT_CTRL : Nat := 0x20000
/-- 07: `HT_SERVO`. -/
def R.HT_SERVO : Nat := 0x20004
/-- 07: `HT_STAT`. -/
def R.HT_STAT : Nat := 0x20008
/-- 07: `HT_CMD`. -/
def R.HT_CMD : Nat := 0x2000c
/-- 07: `HT_OFFS_FR`. -/
def R.HT_OFFS_FR : Nat := 0x20010
/-- 07: `HT_OFFS_NS`. -/
def R.HT_OFFS_NS : Nat := 0x20014
/-- 07: `HT_OFFS_S`. -/
def R.HT_OFFS_S : Nat := 0x20018
/-- 07: `HT_TIME_FR`. -/
def R.HT_TIME_FR : Nat := 0x20020
/-- 07: `HT_TIME_NS`. -/
def R.HT_TIME_NS : Nat := 0x20024
/-- 07: `HT_TIME_SL`. -/
def R.HT_TIME_SL : Nat := 0x20028
/-- 07: `HT_TIME_SH`. -/
def R.HT_TIME_SH : Nat := 0x2002c
/-- 07: `HT_FADJ`. -/
def R.HT_FADJ : Nat := 0x20030
/-- 07: `HT_LAST`. -/
def R.HT_LAST : Nat := 0x20034
/-- 07: `HT_STEP_CNT`. -/
def R.HT_STEP_CNT : Nat := 0x20040
/-- 07: `HT_STEP_SIZE`. -/
def R.HT_STEP_SIZE : Nat := 0x20044
/-- 07: `HT_STEP_CYC`. -/
def R.HT_STEP_CYC : Nat := 0x20048
/-- 07: `HT_PPS_CFG`. -/
def R.HT_PPS_CFG : Nat := 0x20060
/-- 07: `HT_PPS_IDLY`. -/
def R.HT_PPS_IDLY : Nat := 0x20064
/-- 07: `HT_PPS_ODLY`. -/
def R.HT_PPS_ODLY : Nat := 0x20068
/-- 07: `HT_PPS_STAMP`. -/
def R.HT_PPS_STAMP : Nat := 0x2006c
/-- 07: `HT_ETH_CFG`. -/
def R.HT_ETH_CFG (n : Nat) : Nat := 0x20100 + 0x40 * n
/-- 07: `HT_ETH_TXLAT`. -/
def R.HT_ETH_TXLAT (n : Nat) : Nat := 0x20104 + 0x40 * n
/-- 07: `HT_ETH_RXLAT`. -/
def R.HT_ETH_RXLAT (n : Nat) : Nat := 0x20108 + 0x40 * n
/-- 07: `HT_ETH_TXQ_ID`. -/
def R.HT_ETH_TXQ_ID (n : Nat) : Nat := 0x2010c + 0x40 * n
/-- 07: `HT_ETH_TXQ_FR`. -/
def R.HT_ETH_TXQ_FR (n : Nat) : Nat := 0x20110 + 0x40 * n
/-- 07: `HT_ETH_TXQ_NS`. -/
def R.HT_ETH_TXQ_NS (n : Nat) : Nat := 0x20114 + 0x40 * n
/-- 07: `HT_ETH_TXQ_SL`. -/
def R.HT_ETH_TXQ_SL (n : Nat) : Nat := 0x20118 + 0x40 * n
/-- 07: `HT_ETH_TXQ_SH`. -/
def R.HT_ETH_TXQ_SH (n : Nat) : Nat := 0x2011c + 0x40 * n
/-- 07: `HT_ETH_TXQ_STAT`. -/
def R.HT_ETH_TXQ_STAT (n : Nat) : Nat := 0x20120 + 0x40 * n
/-- 07: `HT_RING_TERR`. -/
def R.HT_RING_TERR (r : Nat) : Nat := 0x20200 + 0x4 * r
/-- 07: `HT_RING_RTT`. -/
def R.HT_RING_RTT (r : Nat) : Nat := 0x20280 + 0x4 * r
/-- 07: `CLK_CFG`. -/
def R.CLK_CFG : Nat := 0x10000
/-- 07: `CLK_DIV`. -/
def R.CLK_DIV : Nat := 0x10004
/-- 07: `CLK_CMD`. -/
def R.CLK_CMD : Nat := 0x10008
/-- 07: `CLK_STAT`. -/
def R.CLK_STAT : Nat := 0x1000c
/-- 07: `CLK_ERR`. -/
def R.CLK_ERR : Nat := 0x10010
/-- 07: `CLK_LOCK`. -/
def R.CLK_LOCK (n : Nat) : Nat := 0x10014 + 0x4 * n
/-- 07: `CLK_SYNC_NS`. -/
def R.CLK_SYNC_NS : Nat := 0x10020
/-- 07: `T_HT_RTT`. -/
def R.T_HT_RTT : Nat := 0x300
/-- 07: `T_HT_RTTC`. -/
def R.T_HT_RTTC : Nat := 0x304
/-- 07: `T_HT_ASYM_N`. -/
def R.T_HT_ASYM_N : Nat := 0x308
/-- 07: `T_HT_ASYM_F`. -/
def R.T_HT_ASYM_F : Nat := 0x30c
/-- 07: `T_HT_CFG`. -/
def R.T_HT_CFG : Nat := 0x310
/-- 07: `T_HT_STAT`. -/
def R.T_HT_STAT : Nat := 0x314
/-- 07: `T_HT_STEPS`. -/
def R.T_HT_STEPS : Nat := 0x318
/-- 08: `T_SW_CFG`. -/
def R.T_SW_CFG : Nat := 0x400
/-- 08: `T_SW_DT`. -/
def R.T_SW_DT : Nat := 0x404
/-- 08: `T_SW_DTB`. -/
def R.T_SW_DTB : Nat := 0x408
/-- 08: `T_GFB_CFG`. -/
def R.T_GFB_CFG : Nat := 0x40c
/-- 08: `T_SW_TCYC`. -/
def R.T_SW_TCYC : Nat := 0x410
/-- 08: `T_SW_STAT`. -/
def R.T_SW_STAT : Nat := 0x414
/-- 08: `T_SW_CNT`. -/
def R.T_SW_CNT : Nat := 0x418
/-- 08: `T_DT_A`. -/
def R.T_DT_A : Nat := 0x41c
/-- 08: `T_DT_B`. -/
def R.T_DT_B : Nat := 0x420
/-- 08: `T_GFB_STAT`. -/
def R.T_GFB_STAT : Nat := 0x424
/-- 08: `T_CAR_PER`. -/
def R.T_CAR_PER : Nat := 0x440
/-- 08: `T_CAR_PH`. -/
def R.T_CAR_PH : Nat := 0x444
/-- 08: `T_CAR_OPT`. -/
def R.T_CAR_OPT : Nat := 0x448
/-- 08: `T_CAR_DUTY`. -/
def R.T_CAR_DUTY : Nat := 0x44c
/-- 08: `T_CAR_APER`. -/
def R.T_CAR_APER : Nat := 0x450
/-- 08: `T_CAR_APH`. -/
def R.T_CAR_APH : Nat := 0x454
/-- 08: `T_CAR_AOPT`. -/
def R.T_CAR_AOPT : Nat := 0x458
/-- 08: `T_CAR_ADUTY`. -/
def R.T_CAR_ADUTY : Nat := 0x45c
/-- 08: `T_REFR_CFG`. -/
def R.T_REFR_CFG : Nat := 0x460
/-- 08: `T_REFR_STAT`. -/
def R.T_REFR_STAT : Nat := 0x464
/-- 08: `T_BYP_CFG`. -/
def R.T_BYP_CFG : Nat := 0x470
/-- 08: `T_BYP_STAT`. -/
def R.T_BYP_STAT : Nat := 0x474
/-- 08: `T_BYP_CMD`. -/
def R.T_BYP_CMD : Nat := 0x478
/-- 08: `T_LAND_CFG`. -/
def R.T_LAND_CFG : Nat := 0x480
/-- 08: `T_LAND_STAT`. -/
def R.T_LAND_STAT : Nat := 0x484
/-- 08: `T_LAND_VAL0`. -/
def R.T_LAND_VAL0 : Nat := 0x488
/-- 08: `T_LAND_VAL1`. -/
def R.T_LAND_VAL1 : Nat := 0x48c
/-- 08: `T_LAND_TBL`. -/
def R.T_LAND_TBL (n : Nat) : Nat := 0x500 + 0x4 * n
/-- 09: `T_ID_UIDL`. -/
def R.T_ID_UIDL : Nat := 0x0
/-- 09: `T_ID_UIDH`. -/
def R.T_ID_UIDH : Nat := 0x4
/-- 09: `T_ID_INFO`. -/
def R.T_ID_INFO : Nat := 0x8
/-- 09: `T_STAT`. -/
def R.T_STAT : Nat := 0xc
/-- 09: `T_DIGEST`. -/
def R.T_DIGEST : Nat := 0x10
/-- 09: `T_ADC_CFG`. -/
def R.T_ADC_CFG : Nat := 0x100
/-- 09: `T_ADC_SEQ0`. -/
def R.T_ADC_SEQ0 : Nat := 0x104
/-- 09: `T_ADC_SEQ1`. -/
def R.T_ADC_SEQ1 : Nat := 0x108
/-- 09: `T_ADC_VPC`. -/
def R.T_ADC_VPC : Nat := 0x10c
/-- 09: `T_ADC_VCAP`. -/
def R.T_ADC_VCAP : Nat := 0x110
/-- 09: `T_ADC_RES`. -/
def R.T_ADC_RES (n : Nat) : Nat := 0x120 + 0x4 * n
/-- 09: `T_NTC_TBL`. -/
def R.T_NTC_TBL (n : Nat) : Nat := 0x140 + 0x4 * n
/-- 09: `T_OVG_CFG`. -/
def R.T_OVG_CFG : Nat := 0x200
/-- 09: `T_OVG_STAT`. -/
def R.T_OVG_STAT : Nat := 0x204
/-- 09: `T_PROT_TEMP`. -/
def R.T_PROT_TEMP : Nat := 0x208
/-- 09: `T_PROT_SUP`. -/
def R.T_PROT_SUP : Nat := 0x20c
/-- 09: `T_PROT_VCAP`. -/
def R.T_PROT_VCAP : Nat := 0x210
/-- 09: `T_PROT_STAT`. -/
def R.T_PROT_STAT : Nat := 0x214
/-- 09: `T_FW_CTRL`. -/
def R.T_FW_CTRL : Nat := 0x280
/-- 09: `T_FW_CMD`. -/
def R.T_FW_CMD : Nat := 0x284
/-- 09: `T_FW_STAT`. -/
def R.T_FW_STAT : Nat := 0x288
/-- 09: `T_FW_VER`. -/
def R.T_FW_VER : Nat := 0x28c
/-- 09: `T_LN_STAT`. -/
def R.T_LN_STAT : Nat := 0x600
/-- 09: `T_LN_EQN`. -/
def R.T_LN_EQN : Nat := 0x604
/-- 09: `T_LN_EQF`. -/
def R.T_LN_EQF : Nat := 0x608
/-- 09: `T_LN_CNT`. -/
def R.T_LN_CNT : Nat := 0x60c
/-- 09: `T_EVC_SEL`. -/
def R.T_EVC_SEL (n : Nat) : Nat := 0x700 + 0x4 * n
/-- 09: `T_EVC_CNT`. -/
def R.T_EVC_CNT (n : Nat) : Nat := 0x720 + 0x4 * n
/-- 09: `T_SCH_CMD`. -/
def R.T_SCH_CMD : Nat := 0x780
/-- 09: `T_SCH_ARG`. -/
def R.T_SCH_ARG : Nat := 0x784
/-- 09: `T_SCH_STAT`. -/
def R.T_SCH_STAT : Nat := 0x788
/-- 09: `T_SCH_TICK`. -/
def R.T_SCH_TICK : Nat := 0x78c
/-- 09: `T_PW`. -/
def R.T_PW (w : Nat) : Nat := 0x800 + 0x4 * w
/-- 09: `T_PW_WEAR`. -/
def R.T_PW_WEAR (b : Nat) : Nat := 0xc00 + 0x4 * b
/-- 10: `FLT_CTRL`. -/
def R.FLT_CTRL : Nat := 0x3c0000
/-- 10: `FLT_STAT`. -/
def R.FLT_STAT : Nat := 0x3c0004
/-- 10: `FLT_REFUSED`. -/
def R.FLT_REFUSED : Nat := 0x3c0008
/-- 10: `FLT_ERR`. -/
def R.FLT_ERR : Nat := 0x3c000c
/-- 10: `FLT_LAST`. -/
def R.FLT_LAST : Nat := 0x3c0010
/-- 10: `FLT_RAISES`. -/
def R.FLT_RAISES : Nat := 0x3c0014
/-- 10: `FLT_LATCH`. -/
def R.FLT_LATCH (n : Nat) : Nat := 0x3c0040 + 0x4 * n
/-- 10: `FLT_LIVE`. -/
def R.FLT_LIVE (n : Nat) : Nat := 0x3c00c0 + 0x4 * n
/-- 10: `FLT_SEV`. -/
def R.FLT_SEV (s : Nat) : Nat := 0x3c1000 + 0x4 * s
/-- 10: `FLT_CELL`. -/
def R.FLT_CELL (i : Nat) : Nat := 0x3c2000 + 0x4 * i
/-- 10: `FLT_IQ_RDL`. -/
def R.FLT_IQ_RDL (q : Nat) : Nat := 0x3c3000 + 0x10 * q
/-- 10: `FLT_IQ_RDH`. -/
def R.FLT_IQ_RDH (q : Nat) : Nat := 0x3c3004 + 0x10 * q
/-- 10: `FLT_IQ_CFG`. -/
def R.FLT_IQ_CFG (q : Nat) : Nat := 0x3c3008 + 0x10 * q
/-- 10: `FLT_IQ_STAT`. -/
def R.FLT_IQ_STAT (q : Nat) : Nat := 0x3c300c + 0x10 * q
/-- 10: `T_FLT_CLR`. -/
def R.T_FLT_CLR : Nat := 0x220
/-- 10: `T_FLT_STAT`. -/
def R.T_FLT_STAT : Nat := 0x224
/-- 10: `T_FLT_LOG`. -/
def R.T_FLT_LOG (n : Nat) : Nat := 0x230 + 0x4 * n
/-- 11: `SAF_ID`. -/
def R.SAF_ID : Nat := 0x380000
/-- 11: `SAF_LOCK`. -/
def R.SAF_LOCK : Nat := 0x380004
/-- 11: `SAF_STAT`. -/
def R.SAF_STAT : Nat := 0x380008
/-- 11: `SAF_CMD`. -/
def R.SAF_CMD : Nat := 0x38000c
/-- 11: `SAF_ERR`. -/
def R.SAF_ERR : Nat := 0x380010
/-- 11: `SAF_PCRC`. -/
def R.SAF_PCRC : Nat := 0x380014
/-- 11: `SAF_PCRC_ACT`. -/
def R.SAF_PCRC_ACT : Nat := 0x380018
/-- 11: `SAF_CNT`. -/
def R.SAF_CNT : Nat := 0x38001c
/-- 11: `SAF_SEV0`. -/
def R.SAF_SEV0 : Nat := 0x380020
/-- 11: `SAF_SEV1`. -/
def R.SAF_SEV1 : Nat := 0x380024
/-- 11: `SAF_SI`. -/
def R.SAF_SI (p : Nat) : Nat := 0x380040 + 0x4 * p
/-- 11: `SAF_SI_STAT`. -/
def R.SAF_SI_STAT : Nat := 0x380060
/-- 11: `SAF_SBO`. -/
def R.SAF_SBO (n : Nat) : Nat := 0x380080 + 0x4 * n
/-- 11: `SAF_SBO_STAT`. -/
def R.SAF_SBO_STAT : Nat := 0x380090
/-- 11: `SAF_BCH`. -/
def R.SAF_BCH (c : Nat) : Nat := 0x3800a0 + 0x4 * c
/-- 11: `SAF_BVAL`. -/
def R.SAF_BVAL (c : Nat) : Nat := 0x3800c0 + 0x4 * c
/-- 11: `SAF_SLC`. -/
def R.SAF_SLC (a : Nat) : Nat := 0x380100 + 0x4 * a
/-- 11: `SAF_PWR_CFG`. -/
def R.SAF_PWR_CFG : Nat := 0x380120
/-- 11: `SAF_SLR_RATE`. -/
def R.SAF_SLR_RATE : Nat := 0x380124
/-- 11: `SAF_SLR_BAND`. -/
def R.SAF_SLR_BAND : Nat := 0x380128
/-- 11: `SAF_SLD_CFG`. -/
def R.SAF_SLD_CFG : Nat := 0x38012c
/-- 11: `SAF_PM`. -/
def R.SAF_PM : Nat := 0x380130
/-- 11: `SAF_PENV`. -/
def R.SAF_PENV : Nat := 0x380134
/-- 12: `STK_CFG`. -/
def R.STK_CFG : Nat := 0x300000
/-- 12: `STK_STAT`. -/
def R.STK_STAT : Nat := 0x300004
/-- 12: `STK_CMD`. -/
def R.STK_CMD : Nat := 0x300008
/-- 12: `STK_ERR`. -/
def R.STK_ERR : Nat := 0x30000c
/-- 12: `STK_HUBS`. -/
def R.STK_HUBS : Nat := 0x300010
/-- 12: `STK_RED_CFG`. -/
def R.STK_RED_CFG : Nat := 0x300020
/-- 12: `STK_RED_STAT`. -/
def R.STK_RED_STAT : Nat := 0x300024
/-- 12: `STK_EPOCH`. -/
def R.STK_EPOCH : Nat := 0x300028
/-- 12: `STK_CFGDIG`. -/
def R.STK_CFGDIG : Nat := 0x30002c
/-- 12: `STK_HO_CYC`. -/
def R.STK_HO_CYC : Nat := 0x300030
/-- 12: `STK_HO_CNT`. -/
def R.STK_HO_CNT : Nat := 0x300034
/-- 12: `STK_SNAP`. -/
def R.STK_SNAP : Nat := 0x300038
/-- 12: `STK_LAND_CFG`. -/
def R.STK_LAND_CFG (a : Nat) : Nat := 0x300040 + 0x4 * a
/-- 12: `STK_PAIR`. -/
def R.STK_PAIR : Nat := 0x300060
/-- 12: `STK_ASYM_E`. -/
def R.STK_ASYM_E : Nat := 0x300064
/-- 12: `STK_ASYM_W`. -/
def R.STK_ASYM_W : Nat := 0x300068
/-- 12: `STK_LINK`. -/
def R.STK_LINK : Nat := 0x300070
/-- 12: `STK_CNT_LINK`. -/
def R.STK_CNT_LINK : Nat := 0x300074
/-- 12: `STK_HB_LAT`. -/
def R.STK_HB_LAT (n : Nat) : Nat := 0x300080 + 0x4 * n
/-- 12: `STK_DLY`. -/
def R.STK_DLY (n : Nat) : Nat := 0x3000c0 + 0x4 * n
/-- 12: `STK_EX_TX`. -/
def R.STK_EX_TX (n : Nat) : Nat := 0x300100 + 0x4 * n
/-- 12: `STK_EX_CFG`. -/
def R.STK_EX_CFG : Nat := 0x300110
/-- 12: `STK_EX_STAT`. -/
def R.STK_EX_STAT : Nat := 0x300114
/-- 12: `STK_EX_RX`. -/
def R.STK_EX_RX (n w : Nat) : Nat := 0x300200 + 0x10 * n + 0x4 * w
/-- 12: `T_EPOCH`. -/
def R.T_EPOCH : Nat := 0x330
/-- 13: `HQ_CTRL`. -/
def R.HQ_CTRL : Nat := 0x400000
/-- 13: `HQ_STAT`. -/
def R.HQ_STAT : Nat := 0x400004
/-- 13: `HQ_ERR`. -/
def R.HQ_ERR : Nat := 0x400008
/-- 13: `HQ_EV_ROUTE`. -/
def R.HQ_EV_ROUTE : Nat := 0x40000c
/-- 13: `HQ_ERR_VEC`. -/
def R.HQ_ERR_VEC : Nat := 0x400010
/-- 13: `HQ_ETH_CNT`. -/
def R.HQ_ETH_CNT : Nat := 0x400014
/-- 13: `HQ_ARM_STAT`. -/
def R.HQ_ARM_STAT (a : Nat) : Nat := 0x400020 + 0x4 * a
/-- 13: `HQ_ETH_CFG`. -/
def R.HQ_ETH_CFG (n : Nat) : Nat := 0x400040 + 0x10 * n
/-- 13: `HQ_ETH_MACL`. -/
def R.HQ_ETH_MACL (n : Nat) : Nat := 0x400044 + 0x10 * n
/-- 13: `HQ_ETH_MACH`. -/
def R.HQ_ETH_MACH (n : Nat) : Nat := 0x400048 + 0x10 * n
/-- 13: `HQ_ETH_STAT`. -/
def R.HQ_ETH_STAT (n : Nat) : Nat := 0x40004c + 0x10 * n
/-- 13: `HQ_RING_BASEL`. -/
def R.HQ_RING_BASEL (n : Nat) : Nat := 0x400100 + 0x20 * n
/-- 13: `HQ_RING_BASEH`. -/
def R.HQ_RING_BASEH (n : Nat) : Nat := 0x400104 + 0x20 * n
/-- 13: `HQ_RING_CFG`. -/
def R.HQ_RING_CFG (n : Nat) : Nat := 0x400108 + 0x20 * n
/-- 13: `HQ_RING_MOD`. -/
def R.HQ_RING_MOD (n : Nat) : Nat := 0x40010c + 0x20 * n
/-- 13: `HQ_RING_STAT`. -/
def R.HQ_RING_STAT (n : Nat) : Nat := 0x400110 + 0x20 * n
/-- 13: `HQ_RING_CNT`. -/
def R.HQ_RING_CNT (n : Nat) : Nat := 0x400114 + 0x20 * n
/-- 13: `HQ_DB`. -/
def R.HQ_DB (n : Nat) : Nat := 0x410000 + 0x1000 * n
/-- 14: `SCH_STAT`. -/
def R.SCH_STAT : Nat := 0x500000
/-- 14: `SCH_TICKL`. -/
def R.SCH_TICKL : Nat := 0x500008
/-- 14: `SCH_TICKH`. -/
def R.SCH_TICKH : Nat := 0x50000c
/-- 14: `SCH_CNT`. -/
def R.SCH_CNT : Nat := 0x500010
/-- 14: `SCH_CORE_CTRL`. -/
def R.SCH_CORE_CTRL (c : Nat) : Nat := 0x500020 + 0x4 * c
/-- 14: `SCH_CORE_VEC`. -/
def R.SCH_CORE_VEC (c : Nat) : Nat := 0x500030 + 0x4 * c
/-- 14: `SCH_CORE_STAT`. -/
def R.SCH_CORE_STAT (c : Nat) : Nat := 0x500040 + 0x4 * c
/-- 14: `SCH_FLOW`. -/
def R.SCH_FLOW (f : Nat) : Nat := 0x500100 + 0x4 * f
/-- 14: `SCH_FLOW_CNT`. -/
def R.SCH_FLOW_CNT (f : Nat) : Nat := 0x500140 + 0x4 * f
/-- 14: `SCH_HOP`. -/
def R.SCH_HOP : Nat := 0x500200
/-- 14: `SCH_HARG`. -/
def R.SCH_HARG : Nat := 0x500204
/-- 14: `SCH_HRES`. -/
def R.SCH_HRES : Nat := 0x500208
/-- 14: `SCH_THR_CFG`. -/
def R.SCH_THR_CFG (t : Nat) : Nat := 0x501000 + 0x4 * t
/-- 14: `SCH_THR_STAT`. -/
def R.SCH_THR_STAT (t : Nat) : Nat := 0x501400 + 0x4 * t
/-- 14: `SCH_OP`. -/
def R.SCH_OP (c : Nat) : Nat := 0x10000000 + 0x1000 * c
/-- 14: `SCH_ARG`. -/
def R.SCH_ARG (c : Nat) : Nat := 0x10000004 + 0x1000 * c
/-- 14: `SCH_RES`. -/
def R.SCH_RES (c : Nat) : Nat := 0x10000008 + 0x1000 * c
/-- 14: `SCH_NEXT`. -/
def R.SCH_NEXT (c : Nat) : Nat := 0x1000000c + 0x1000 * c
/-- 14: `SCH_SWITCH`. -/
def R.SCH_SWITCH (c : Nat) : Nat := 0x10000010 + 0x1000 * c
/-- 14: `SCH_SELF`. -/
def R.SCH_SELF (c : Nat) : Nat := 0x10000014 + 0x1000 * c
/-- 15: `REC_CTRL`. -/
def R.REC_CTRL : Nat := 0x480000
/-- 15: `REC_STAT`. -/
def R.REC_STAT : Nat := 0x480004
/-- 15: `REC_CMD`. -/
def R.REC_CMD : Nat := 0x480008
/-- 15: `REC_ERR`. -/
def R.REC_ERR : Nat := 0x48000c
/-- 15: `REC_MEM`. -/
def R.REC_MEM : Nat := 0x480010
/-- 15: `REC_SEG`. -/
def R.REC_SEG : Nat := 0x480014
/-- 15: `REC_SEGLEN`. -/
def R.REC_SEGLEN : Nat := 0x480018
/-- 15: `REC_PP`. -/
def R.REC_PP : Nat := 0x48001c
/-- 15: `REC_TRG_EN`. -/
def R.REC_TRG_EN : Nat := 0x480020
/-- 15: `REC_TRG_CFG`. -/
def R.REC_TRG_CFG : Nat := 0x480024
/-- 15: `REC_CNT`. -/
def R.REC_CNT : Nat := 0x480028
/-- 15: `REC_HBASEL`. -/
def R.REC_HBASEL : Nat := 0x480030
/-- 15: `REC_HBASEH`. -/
def R.REC_HBASEH : Nat := 0x480034
/-- 15: `REC_HSIZE`. -/
def R.REC_HSIZE : Nat := 0x480038
/-- 15: `REC_HOFFS`. -/
def R.REC_HOFFS : Nat := 0x48003c
/-- 15: `REC_TBUS_OUT`. -/
def R.REC_TBUS_OUT (l : Nat) : Nat := 0x480040 + 0x4 * l
/-- 16: `CAN_CTRL`. -/
def R.CAN_CTRL (n : Nat) : Nat := 0x4c0000 + 0x1000 * n
/-- 16: `CAN_STAT`. -/
def R.CAN_STAT (n : Nat) : Nat := 0x4c0004 + 0x1000 * n
/-- 16: `CAN_CMD`. -/
def R.CAN_CMD (n : Nat) : Nat := 0x4c0008 + 0x1000 * n
/-- 16: `CAN_ERR`. -/
def R.CAN_ERR (n : Nat) : Nat := 0x4c000c + 0x1000 * n
/-- 16: `CAN_NBT`. -/
def R.CAN_NBT (n : Nat) : Nat := 0x4c0010 + 0x1000 * n
/-- 16: `CAN_DBT`. -/
def R.CAN_DBT (n : Nat) : Nat := 0x4c0014 + 0x1000 * n
/-- 16: `CAN_TDC`. -/
def R.CAN_TDC (n : Nat) : Nat := 0x4c0018 + 0x1000 * n
/-- 16: `CAN_CNT`. -/
def R.CAN_CNT (n : Nat) : Nat := 0x4c001c + 0x1000 * n
/-- 16: `CAN_TXRES`. -/
def R.CAN_TXRES (n : Nat) : Nat := 0x4c0020 + 0x1000 * n
/-- 16: `CAN_TXS_W`. -/
def R.CAN_TXS_W (n n' : Nat) : Nat := 0x4c0040 + 0x1000 * n + 0x4 * n'
/-- 16: `CAN_FLT`. -/
def R.CAN_FLT (n k : Nat) : Nat := 0x4c0100 + 0x1000 * n + 0x8 * k
/-- 16: `CAN_FLTM`. -/
def R.CAN_FLTM (n k : Nat) : Nat := 0x4c0104 + 0x1000 * n + 0x8 * k
/-- 16: `CAN_RXQ_WIN`. -/
def R.CAN_RXQ_WIN (n q w : Nat) : Nat := 0x4c0200 + 0x1000 * n + 0x80 * q + 0x4 * w
/-- 16: `CAN_RXQ_CFG`. -/
def R.CAN_RXQ_CFG (n q : Nat) : Nat := 0x4c0260 + 0x1000 * n + 0x80 * q
/-- 16: `CAN_RXQ_STAT`. -/
def R.CAN_RXQ_STAT (n q : Nat) : Nat := 0x4c0264 + 0x1000 * n + 0x80 * q
/-- 16: `CAN_RXQ_ACK`. -/
def R.CAN_RXQ_ACK (n q : Nat) : Nat := 0x4c0268 + 0x1000 * n + 0x80 * q
/-- 16: `CAN_SMB`. -/
def R.CAN_SMB (n m w : Nat) : Nat := 0x4c0400 + 0x1000 * n + 0x80 * m + 0x4 * w
/-- 16: `CAN_SMB_STAT`. -/
def R.CAN_SMB_STAT (n m : Nat) : Nat := 0x4c0460 + 0x1000 * n + 0x80 * m
/-- 16: `CAN_SMB_CMD`. -/
def R.CAN_SMB_CMD (n m : Nat) : Nat := 0x4c0464 + 0x1000 * n + 0x80 * m
/-- 17: `CLK_AVS_CFG`. -/
def R.CLK_AVS_CFG : Nat := 0x10100
/-- 17: `CLK_AVS_STAT`. -/
def R.CLK_AVS_STAT : Nat := 0x10104
/-- 17: `CLK_AVS_MON`. -/
def R.CLK_AVS_MON : Nat := 0x10108
/-- 17: `CLK_RAIL_STAT`. -/
def R.CLK_RAIL_STAT : Nat := 0x1010c
/-- 17: `CLK_TEMP`. -/
def R.CLK_TEMP : Nat := 0x10110
/-- 17: `CLK_RST_CAUSE`. -/
def R.CLK_RST_CAUSE : Nat := 0x10114
/-- 17: `CLK_RST_CMD`. -/
def R.CLK_RST_CMD : Nat := 0x10118
/-- 17: `GEN_BOOT_CFG`. -/
def R.GEN_BOOT_CFG : Nat := 0x700
/-- 17: `GEN_BOOT_STAT`. -/
def R.GEN_BOOT_STAT : Nat := 0x704
/-- 17: `GEN_BOOT_CMD`. -/
def R.GEN_BOOT_CMD : Nat := 0x708
/-- 17: `GEN_BOOT_SVN`. -/
def R.GEN_BOOT_SVN : Nat := 0x70c
/-- 17: `GEN_DBG_STAT`. -/
def R.GEN_DBG_STAT : Nat := 0x740
/-- 17: `GEN_DBG_CMD`. -/
def R.GEN_DBG_CMD : Nat := 0x744
/-- 17: `GEN_DBG_CHAL`. -/
def R.GEN_DBG_CHAL (n : Nat) : Nat := 0x760 + 0x4 * n
/-- 17: `GEN_DBG_BUF`. -/
def R.GEN_DBG_BUF (w : Nat) : Nat := 0x800 + 0x4 * w
/-- 17: `PRB_STAT`. -/
def R.PRB_STAT : Nat := 0x580000
/-- 17: `PRB_DISC`. -/
def R.PRB_DISC : Nat := 0x580004
/-- 17: `PRB_USER`. -/
def R.PRB_USER (w : Nat) : Nat := 0x584000 + 0x4 * w
/-- 18: `EVC_SEL`. -/
def R.EVC_SEL (n : Nat) : Nat := 0x540000 + 0x4 * n
/-- 18: `EVC_CNTL`. -/
def R.EVC_CNTL (n : Nat) : Nat := 0x540100 + 0x8 * n
/-- 18: `EVC_CNTH`. -/
def R.EVC_CNTH (n : Nat) : Nat := 0x540104 + 0x8 * n
/-- 18: `EVC_CTRL`. -/
def R.EVC_CTRL : Nat := 0x540300
/-- 18: `EVC_SVC_HOLD`. -/
def R.EVC_SVC_HOLD (w : Nat) : Nat := 0x540400 + 0x4 * w
/-- 18: `PRB_WEAR`. -/
def R.PRB_WEAR (b : Nat) : Nat := 0x580100 + 0x4 * b

/-! Fields. -/

def F.GEN_ID_STEP : Fld := ⟨0x0, 0, 8⟩
def F.GEN_ID_PART : Fld := ⟨0x0, 8, 16⟩
def F.GEN_UIDL_UID : Fld := ⟨0x4, 0, 32⟩
def F.GEN_UIDH_UID : Fld := ⟨0x8, 0, 32⟩
def F.GEN_TOPO_HUB_ID : Fld := ⟨0x200, 0, 4⟩
def F.GEN_TOPO_DUP_STRAP : Fld := ⟨0x200, 4, 2⟩
def F.GEN_TOPO_NEWEL_PREF : Fld := ⟨0x200, 6, 1⟩
def F.GEN_TOPO_DUP_MODE : Fld := ⟨0x200, 8, 2⟩
def F.GEN_TOPO_MODE_OK : Fld := ⟨0x200, 10, 1⟩
def F.GEN_TOPO_UNIT : Fld := ⟨0x200, 12, 1⟩
def F.GEN_TOPO_ACTIVE : Fld := ⟨0x200, 13, 1⟩
def F.GEN_ARM_CFG_EN (n : Nat) : Fld := ⟨0x204 + 0x4 * n, 0, 1⟩
def F.GEN_ARM_CFG_TYPE (n : Nat) : Fld := ⟨0x204 + 0x4 * n, 1, 2⟩
def F.GEN_RING_ARM_RING_ARM (n k : Nat) : Fld := ⟨0x220 + 0x4 * n, 4 * k, 4⟩
def F.GEN_ARM_RINGS_ARM0 : Fld := ⟨0x230, 0, 6⟩
def F.GEN_ARM_RINGS_ARM1 : Fld := ⟨0x230, 6, 6⟩
def F.GEN_ARM_RINGS_ARM2 : Fld := ⟨0x230, 12, 6⟩
def F.GEN_ARM_RINGS_ARM3 : Fld := ⟨0x230, 18, 6⟩
def F.GEN_ARM_RINGS_ARM4 : Fld := ⟨0x230, 24, 6⟩
def F.GEN_CONT_COUNT (n : Nat) : Fld := ⟨0x300 + 0x4 * n, 0, 32⟩
def F.GEN_CYC_LEN_LEN : Fld := ⟨0x400, 0, 11⟩
def F.GEN_CYC_CTRL_LATE_LIM : Fld := ⟨0x404, 0, 4⟩
def F.GEN_CYC_NUM_NUM : Fld := ⟨0x408, 0, 32⟩
def F.GEN_CYC_STAT_FIT : Fld := ⟨0x40c, 0, 1⟩
def F.GEN_CYC_STAT_WORST_RING : Fld := ⟨0x40c, 1, 5⟩
def F.GEN_CYC_STAT_MARGIN : Fld := ⟨0x40c, 8, 16⟩
def F.GEN_ARM_LEAD_LEAD (n : Nat) : Fld := ⟨0x420 + 0x4 * n, 0, 13⟩
def F.GEN_ARM_LEAD_SLOW_RING (n : Nat) : Fld := ⟨0x420 + 0x4 * n, 16, 5⟩
def F.GEN_RING_DLV_DLV (n : Nat) : Fld := ⟨0x500 + 0x4 * n, 0, 12⟩
def F.GEN_RING_DLV_BASE_J (n : Nat) : Fld := ⟨0x500 + 0x4 * n, 12, 3⟩
def F.GEN_RING_DLV_OVER (n : Nat) : Fld := ⟨0x500 + 0x4 * n, 15, 1⟩
def F.GEN_RING_DLV_DLV_LAST (n : Nat) : Fld := ⟨0x500 + 0x4 * n, 16, 12⟩
def F.GEN_RING_RET_RET (n : Nat) : Fld := ⟨0x580 + 0x4 * n, 0, 13⟩
def F.GEN_RING_RET_RET_MAX (n : Nat) : Fld := ⟨0x580 + 0x4 * n, 16, 13⟩
def F.GEN_RING_LATE_COUNT (n : Nat) : Fld := ⟨0x600 + 0x4 * n, 0, 16⟩
def F.GEN_RING_LATE_RUN (n : Nat) : Fld := ⟨0x600 + 0x4 * n, 16, 4⟩
def F.MI_CTRL_MCLK_DIV : Fld := ⟨0x40000, 0, 8⟩
def F.MI_STAT_ALIGNED : Fld := ⟨0x40004, 0, 16⟩
def F.MI_CMD_SCALE_APPLY : Fld := ⟨0x40008, 0, 1⟩
def F.MI_CMD_REALIGN : Fld := ⟨0x40008, 1, 1⟩
def F.MI_ERR_OVR_STICKY : Fld := ⟨0x4000c, 0, 16⟩
def F.MI_ERR_CLK_STICKY : Fld := ⟨0x4000c, 16, 16⟩
def F.MI_CFG_EN (c : Nat) : Fld := ⟨0x40100 + 0x40 * c, 0, 1⟩
def F.MI_CFG_CLK_EXT (c : Nat) : Fld := ⟨0x40100 + 0x40 * c, 1, 1⟩
def F.MI_CFG_DATA_EDGE (c : Nat) : Fld := ⟨0x40100 + 0x40 * c, 2, 1⟩
def F.MI_CFG_INVERT (c : Nat) : Fld := ⟨0x40100 + 0x40 * c, 3, 1⟩
def F.MI_CFG_DELAY (c : Nat) : Fld := ⟨0x40100 + 0x40 * c, 4, 8⟩
def F.MI_GAIN_GAIN (c : Nat) : Fld := ⟨0x40104 + 0x40 * c, 0, 32⟩
def F.MI_OFFS_OFFS (c : Nat) : Fld := ⟨0x40108 + 0x40 * c, 0, 24⟩
def F.MI_GUARD_CFG_COUNT (c : Nat) : Fld := ⟨0x4010c + 0x40 * c, 0, 5⟩
def F.MI_GUARD_CFG_HI_EN (c : Nat) : Fld := ⟨0x4010c + 0x40 * c, 5, 1⟩
def F.MI_GUARD_CFG_LO_EN (c : Nat) : Fld := ⟨0x4010c + 0x40 * c, 6, 1⟩
def F.MI_GUARD_HI_THRESH (c : Nat) : Fld := ⟨0x40110 + 0x40 * c, 0, 24⟩
def F.MI_GUARD_LO_THRESH (c : Nat) : Fld := ⟨0x40114 + 0x40 * c, 0, 24⟩
def F.MI_SWIFT_CODE (c : Nat) : Fld := ⟨0x40118 + 0x40 * c, 0, 24⟩
def F.MI_SWIFT_OVR (c : Nat) : Fld := ⟨0x40118 + 0x40 * c, 24, 1⟩
def F.MI_SWIFT_CLKF (c : Nat) : Fld := ⟨0x40118 + 0x40 * c, 25, 1⟩
def F.MI_SWIFT_SETTLING (c : Nat) : Fld := ⟨0x40118 + 0x40 * c, 26, 1⟩
def F.MI_SWIFT_SEQ (c : Nat) : Fld := ⟨0x40118 + 0x40 * c, 27, 5⟩
def F.MI_CONTROL_CODE (c : Nat) : Fld := ⟨0x4011c + 0x40 * c, 0, 24⟩
def F.MI_CONTROL_OVR (c : Nat) : Fld := ⟨0x4011c + 0x40 * c, 24, 1⟩
def F.MI_CONTROL_CLKF (c : Nat) : Fld := ⟨0x4011c + 0x40 * c, 25, 1⟩
def F.MI_CONTROL_SETTLING (c : Nat) : Fld := ⟨0x4011c + 0x40 * c, 26, 1⟩
def F.MI_CONTROL_SEQ (c : Nat) : Fld := ⟨0x4011c + 0x40 * c, 27, 5⟩
def F.MI_QUIET_CODE (c : Nat) : Fld := ⟨0x40120 + 0x40 * c, 0, 24⟩
def F.MI_QUIET_OVR (c : Nat) : Fld := ⟨0x40120 + 0x40 * c, 24, 1⟩
def F.MI_QUIET_CLKF (c : Nat) : Fld := ⟨0x40120 + 0x40 * c, 25, 1⟩
def F.MI_QUIET_SETTLING (c : Nat) : Fld := ⟨0x40120 + 0x40 * c, 26, 1⟩
def F.MI_QUIET_SEQ (c : Nat) : Fld := ⟨0x40120 + 0x40 * c, 27, 5⟩
def F.MI_RECORD_CODE (c : Nat) : Fld := ⟨0x40124 + 0x40 * c, 0, 24⟩
def F.MI_RECORD_OVR (c : Nat) : Fld := ⟨0x40124 + 0x40 * c, 24, 1⟩
def F.MI_RECORD_CLKF (c : Nat) : Fld := ⟨0x40124 + 0x40 * c, 25, 1⟩
def F.MI_RECORD_SETTLING (c : Nat) : Fld := ⟨0x40124 + 0x40 * c, 26, 1⟩
def F.MI_RECORD_SEQ (c : Nat) : Fld := ⟨0x40124 + 0x40 * c, 27, 5⟩
def F.MI_CHSTAT_OVR (c : Nat) : Fld := ⟨0x40128 + 0x40 * c, 0, 1⟩
def F.MI_CHSTAT_CLK_FAULT (c : Nat) : Fld := ⟨0x40128 + 0x40 * c, 1, 1⟩
def F.MI_CHSTAT_GUARD_HI (c : Nat) : Fld := ⟨0x40128 + 0x40 * c, 2, 1⟩
def F.MI_CHSTAT_GUARD_LO (c : Nat) : Fld := ⟨0x40128 + 0x40 * c, 3, 1⟩
def F.MI_CHSTAT_ALIGNED (c : Nat) : Fld := ⟨0x40128 + 0x40 * c, 4, 1⟩
def F.MI_CHSTAT_EXT_PERIOD (c : Nat) : Fld := ⟨0x40128 + 0x40 * c, 16, 8⟩
def F.ACE_STAT_BANK : Fld := ⟨0x80000, 0, 1⟩
def F.ACE_STAT_SWITCH_PEND : Fld := ⟨0x80000, 1, 1⟩
def F.ACE_STAT_PASS : Fld := ⟨0x80000, 16, 16⟩
def F.ACE_LIST_CMD_COPY : Fld := ⟨0x80004, 0, 1⟩
def F.ACE_LIST_CMD_CHECK : Fld := ⟨0x80004, 1, 1⟩
def F.ACE_LIST_CMD_SWITCH : Fld := ⟨0x80004, 2, 1⟩
def F.ACE_LIST_STAT_OK : Fld := ⟨0x80008, 0, 1⟩
def F.ACE_LIST_STAT_BUSY : Fld := ⟨0x80008, 1, 1⟩
def F.ACE_LIST_STAT_IGN : Fld := ⟨0x80008, 2, 1⟩
def F.ACE_LIST_STAT_ERR : Fld := ⟨0x80008, 4, 4⟩
def F.ACE_LIST_STAT_BLOCK : Fld := ⟨0x80008, 8, 8⟩
def F.ACE_LIST_STAT_COST : Fld := ⟨0x80008, 16, 9⟩
def F.ACE_LIST_STAT_KIND : Fld := ⟨0x80008, 25, 2⟩
def F.ACE_NUM_STAT_NUMF : Fld := ⟨0x8000c, 0, 1⟩
def F.ACE_NUM_STAT_DETF : Fld := ⟨0x8000c, 1, 1⟩
def F.ACE_NUM_STAT_FIRST_BLOCK : Fld := ⟨0x8000c, 8, 8⟩
def F.ACE_NUM_STAT_COUNT : Fld := ⟨0x8000c, 16, 16⟩
def F.ACE_MHOLD0_HOLD : Fld := ⟨0x80010, 0, 32⟩
def F.ACE_MHOLD1_HOLD : Fld := ⟨0x80014, 0, 32⟩
def F.ACE_ARM_CFG_DITHER (a : Nat) : Fld := ⟨0x80040 + 0x10 * a, 0, 1⟩
def F.ACE_ARM_CFG_DMAX (a : Nat) : Fld := ⟨0x80040 + 0x10 * a, 1, 11⟩
def F.ACE_ARM_OUT_N (a : Nat) : Fld := ⟨0x80044 + 0x10 * a, 0, 12⟩
def F.ACE_ARM_OUT_DELTA (a : Nat) : Fld := ⟨0x80044 + 0x10 * a, 12, 13⟩
def F.ACE_ARM_OUT_SAT_HI (a : Nat) : Fld := ⟨0x80044 + 0x10 * a, 25, 1⟩
def F.ACE_ARM_OUT_SAT_LO (a : Nat) : Fld := ⟨0x80044 + 0x10 * a, 26, 1⟩
def F.ACE_ARM_OUT_MEAS (a : Nat) : Fld := ⟨0x80044 + 0x10 * a, 27, 1⟩
def F.ACE_ARM_OUT_NUMF (a : Nat) : Fld := ⟨0x80044 + 0x10 * a, 28, 1⟩
def F.ACE_ARM_FRAC_DUTY (a : Nat) : Fld := ⟨0x80048 + 0x10 * a, 0, 12⟩
def F.ACE_ARM_POS_M (a : Nat) : Fld := ⟨0x8004c + 0x10 * a, 0, 32⟩
def F.ACE_CONST_VALUE (n : Nat) : Fld := ⟨0x80100 + 0x4 * n, 0, 32⟩
def F.ACE_RGN_CFG_X1_SRC (d : Nat) : Fld := ⟨0x80200 + 0x40 * d, 0, 10⟩
def F.ACE_RGN_CFG_X2_SRC (d : Nat) : Fld := ⟨0x80200 + 0x40 * d, 16, 10⟩
def F.ACE_RGN_CFG_EN (d : Nat) : Fld := ⟨0x80200 + 0x40 * d, 31, 1⟩
def F.ACE_RGN_MAP0_SET (d k : Nat) : Fld := ⟨0x80204 + 0x40 * d, 3 * k, 3⟩
def F.ACE_RGN_MAP1_SET (d k : Nat) : Fld := ⟨0x80208 + 0x40 * d, 3 * k, 3⟩
def F.ACE_RGN_HYS1_VALUE (d : Nat) : Fld := ⟨0x8020c + 0x40 * d, 0, 32⟩
def F.ACE_RGN_HYS2_VALUE (d : Nat) : Fld := ⟨0x80210 + 0x40 * d, 0, 32⟩
def F.ACE_RGN_TH1_VALUE (d k : Nat) : Fld := ⟨0x80214 + 0x40 * d + 0x4 * k, 0, 32⟩
def F.ACE_RGN_TH2_VALUE (d k : Nat) : Fld := ⟨0x80220 + 0x40 * d + 0x4 * k, 0, 32⟩
def F.ACE_RGN_STAT_BAND1 (d : Nat) : Fld := ⟨0x8022c + 0x40 * d, 0, 2⟩
def F.ACE_RGN_STAT_BAND2 (d : Nat) : Fld := ⟨0x8022c + 0x40 * d, 2, 2⟩
def F.ACE_RGN_STAT_REGION (d : Nat) : Fld := ⟨0x8022c + 0x40 * d, 4, 4⟩
def F.ACE_RGN_STAT_SET (d : Nat) : Fld := ⟨0x8022c + 0x40 * d, 8, 3⟩
def F.ACE_RGN_STAT_NUMF (d : Nat) : Fld := ⟨0x8022c + 0x40 * d, 11, 1⟩
def F.ACE_RGN_STAT_CHANGES (d : Nat) : Fld := ⟨0x8022c + 0x40 * d, 16, 16⟩
def F.ACE_STG_W_VALUE (n : Nat) : Fld := ⟨0x80400 + 0x4 * n, 0, 32⟩
def F.ACE_STG_COMMIT_MBX : Fld := ⟨0x80410, 0, 6⟩
def F.ACE_STG_STAT_PEND : Fld := ⟨0x80414, 0, 1⟩
def F.ACE_STG_STAT_REFUSED : Fld := ⟨0x80414, 1, 1⟩
def F.ACE_STG_STAT_MBX : Fld := ⟨0x80414, 2, 6⟩
def F.ACE_INJ_CTRL_MODE : Fld := ⟨0x80500, 0, 2⟩
def F.ACE_INJ_CTRL_TARGET : Fld := ⟨0x80500, 2, 8⟩
def F.ACE_INJ_CTRL_PRBS : Fld := ⟨0x80500, 10, 3⟩
def F.ACE_INJ_CTRL_HOLD : Fld := ⟨0x80500, 13, 8⟩
def F.ACE_INJ_CTRL_FADE : Fld := ⟨0x80500, 21, 11⟩
def F.ACE_INJ_CMD_START : Fld := ⟨0x80504, 0, 1⟩
def F.ACE_INJ_CMD_STOP : Fld := ⟨0x80504, 1, 1⟩
def F.ACE_INJ_STAT_STATE : Fld := ⟨0x80508, 0, 2⟩
def F.ACE_INJ_STAT_DONE : Fld := ⟨0x80508, 2, 1⟩
def F.ACE_INJ_STAT_ABORTED : Fld := ⟨0x80508, 3, 1⟩
def F.ACE_INJ_STAT_REFUSED : Fld := ⟨0x80508, 4, 1⟩
def F.ACE_INJ_AMP_VALUE : Fld := ⟨0x8050c, 0, 32⟩
def F.ACE_INJ_F0_INC : Fld := ⟨0x80510, 0, 32⟩
def F.ACE_INJ_F1_INC : Fld := ⟨0x80514, 0, 32⟩
def F.ACE_INJ_LEN_LEN : Fld := ⟨0x80518, 0, 32⟩
def F.ACE_INJ_PERIOD_P : Fld := ⟨0x8051c, 0, 17⟩
def F.ACE_TONE_AMP_VALUE (n : Nat) : Fld := ⟨0x80580 + 0x4 * n, 0, 32⟩
def F.ACE_TONE_PH_PH (n : Nat) : Fld := ⟨0x805c0 + 0x4 * n, 0, 32⟩
def F.ACE_CAP_CTRL_CH_EN : Fld := ⟨0x80600, 0, 8⟩
def F.ACE_CAP_CTRL_SYNC_INJ : Fld := ⟨0x80600, 8, 1⟩
def F.ACE_CAP_CTRL_DFT_EN : Fld := ⟨0x80600, 9, 1⟩
def F.ACE_CAP_CTRL_DEC : Fld := ⟨0x80600, 16, 8⟩
def F.ACE_CAP_CMD_START : Fld := ⟨0x80604, 0, 1⟩
def F.ACE_CAP_CMD_STOP : Fld := ⟨0x80604, 1, 1⟩
def F.ACE_CAP_STAT_STATE : Fld := ⟨0x80608, 0, 2⟩
def F.ACE_CAP_STAT_ABORTED : Fld := ⟨0x80608, 2, 1⟩
def F.ACE_CAP_STAT_DFT_DONE : Fld := ⟨0x80608, 3, 1⟩
def F.ACE_CAP_STAT_DFT_NA : Fld := ⟨0x80608, 16, 16⟩
def F.ACE_CAP_BASE_BASE : Fld := ⟨0x8060c, 21, 11⟩
def F.ACE_CAP_CYC_CYC : Fld := ⟨0x80610, 0, 32⟩
def F.ACE_CAP_LEN_LEN : Fld := ⟨0x80614, 0, 17⟩
def F.ACE_CAP_CNT_COUNT : Fld := ⟨0x80618, 0, 17⟩
def F.ACE_DFT_CFG_EN (j : Nat) : Fld := ⟨0x80700 + 0x20 * j, 0, 1⟩
def F.ACE_DFT_CFG_NUM (j : Nat) : Fld := ⟨0x80700 + 0x20 * j, 1, 3⟩
def F.ACE_DFT_CFG_DEN (j : Nat) : Fld := ⟨0x80700 + 0x20 * j, 4, 3⟩
def F.ACE_DFT_CFG_DEN_EN (j : Nat) : Fld := ⟨0x80700 + 0x20 * j, 7, 1⟩
def F.ACE_DFT_CFG_H (j : Nat) : Fld := ⟨0x80700 + 0x20 * j, 8, 17⟩
def F.ACE_DFT_NRE_VALUE (j : Nat) : Fld := ⟨0x80704 + 0x20 * j, 0, 32⟩
def F.ACE_DFT_NIM_VALUE (j : Nat) : Fld := ⟨0x80708 + 0x20 * j, 0, 32⟩
def F.ACE_DFT_DRE_VALUE (j : Nat) : Fld := ⟨0x8070c + 0x20 * j, 0, 32⟩
def F.ACE_DFT_DIM_VALUE (j : Nat) : Fld := ⟨0x80710 + 0x20 * j, 0, 32⟩
def F.ACE_DFT_ZRE_VALUE (j : Nat) : Fld := ⟨0x80714 + 0x20 * j, 0, 32⟩
def F.ACE_DFT_ZIM_VALUE (j : Nat) : Fld := ⟨0x80718 + 0x20 * j, 0, 32⟩
def F.ACE_MBX_VALUE (n : Nat) : Fld := ⟨0x81000 + 0x4 * n, 0, 32⟩
def F.GAL_CTRL_MIN_GAP : Fld := ⟨0x100000, 0, 10⟩
def F.GAL_CTRL_LAMBDA_SH : Fld := ⟨0x100000, 16, 5⟩
def F.GAL_CTRL_CONF_MIN : Fld := ⟨0x100000, 24, 8⟩
def F.GAL_STAT_LAST_DONE : Fld := ⟨0x100004, 0, 9⟩
def F.GAL_STAT_MAX_DONE : Fld := ⟨0x100004, 16, 9⟩
def F.GAL_QMIN_QMIN : Fld := ⟨0x100008, 0, 32⟩
def F.GAL_HEALTH_CFG_PER_SH : Fld := ⟨0x10000c, 0, 5⟩
def F.GAL_HEALTH_CFG_FRAC : Fld := ⟨0x10000c, 8, 16⟩
def F.GAL_HEALTH_CFG_MIN_CELLS : Fld := ⟨0x10000c, 24, 6⟩
def F.GAL_ARM_CFG_ICH (a : Nat) : Fld := ⟨0x100100 + 0x40 * a, 0, 4⟩
def F.GAL_ARM_CFG_IPRE (a : Nat) : Fld := ⟨0x100100 + 0x40 * a, 4, 2⟩
def F.GAL_ARM_CFG_ISIGN (a : Nat) : Fld := ⟨0x100100 + 0x40 * a, 6, 1⟩
def F.GAL_ARM_CFG_MODE (a : Nat) : Fld := ⟨0x100100 + 0x40 * a, 7, 1⟩
def F.GAL_ARM_CFG_REFR_LIM (a : Nat) : Fld := ⟨0x100100 + 0x40 * a, 8, 4⟩
def F.GAL_ARM_CFG_EST_EN (a : Nat) : Fld := ⟨0x100100 + 0x40 * a, 12, 1⟩
def F.GAL_ARM_CFG_ADAPT (a : Nat) : Fld := ⟨0x100100 + 0x40 * a, 13, 1⟩
def F.GAL_ARM_QV_VALUE (a : Nat) : Fld := ⟨0x100104 + 0x40 * a, 0, 32⟩
def F.GAL_ARM_CNOM_VALUE (a : Nat) : Fld := ⟨0x100108 + 0x40 * a, 0, 32⟩
def F.GAL_ARM_WGT_W_SW (a : Nat) : Fld := ⟨0x10010c + 0x40 * a, 0, 8⟩
def F.GAL_ARM_WGT_K_SW (a : Nat) : Fld := ⟨0x10010c + 0x40 * a, 8, 4⟩
def F.GAL_ARM_WGT_W_TH (a : Nat) : Fld := ⟨0x10010c + 0x40 * a, 16, 8⟩
def F.GAL_ARM_WGT_TH_REF (a : Nat) : Fld := ⟨0x10010c + 0x40 * a, 24, 8⟩
def F.GAL_ARM_BAND_BMIN (a : Nat) : Fld := ⟨0x100110 + 0x40 * a, 0, 16⟩
def F.GAL_ARM_BAND_BMAX (a : Nat) : Fld := ⟨0x100110 + 0x40 * a, 16, 16⟩
def F.GAL_ARM_RATE_TARGET (a : Nat) : Fld := ⟨0x100114 + 0x40 * a, 0, 16⟩
def F.GAL_ARM_RATE_GAIN_SH (a : Nat) : Fld := ⟨0x100114 + 0x40 * a, 16, 4⟩
def F.GAL_ARM_RATE_DROT (a : Nat) : Fld := ⟨0x100114 + 0x40 * a, 24, 5⟩
def F.GAL_ARM_STAT_N_EFF (a : Nat) : Fld := ⟨0x100118 + 0x40 * a, 0, 12⟩
def F.GAL_ARM_STAT_POL (a : Nat) : Fld := ⟨0x100118 + 0x40 * a, 12, 1⟩
def F.GAL_ARM_STAT_CLIPPED (a : Nat) : Fld := ⟨0x100118 + 0x40 * a, 13, 1⟩
def F.GAL_ARM_STAT_UNIFORM (a : Nat) : Fld := ⟨0x100118 + 0x40 * a, 14, 1⟩
def F.GAL_ARM_STAT_PRED_OFF (a : Nat) : Fld := ⟨0x100118 + 0x40 * a, 15, 1⟩
def F.GAL_ARM_STAT_BAND (a : Nat) : Fld := ⟨0x100118 + 0x40 * a, 16, 16⟩
def F.GAL_ARM_AVAIL_N_POS (a : Nat) : Fld := ⟨0x10011c + 0x40 * a, 0, 11⟩
def F.GAL_ARM_AVAIL_N_NEG (a : Nat) : Fld := ⟨0x10011c + 0x40 * a, 16, 11⟩
def F.GAL_ARM_VC_VALUE (a : Nat) : Fld := ⟨0x100120 + 0x40 * a, 0, 32⟩
def F.GAL_ARM_MRATE_RATE (a : Nat) : Fld := ⟨0x100124 + 0x40 * a, 0, 16⟩
def F.GAL_ARM_MRATE_DCELL (a : Nat) : Fld := ⟨0x100124 + 0x40 * a, 16, 10⟩
def F.GAL_ARM_MRATE_DVALID (a : Nat) : Fld := ⟨0x100124 + 0x40 * a, 26, 1⟩
def F.GAL_ARM_CMED_VALUE (a : Nat) : Fld := ⟨0x100128 + 0x40 * a, 0, 32⟩
def F.GAL_ARM_CNT_CLIP (a : Nat) : Fld := ⟨0x10012c + 0x40 * a, 0, 8⟩
def F.GAL_ARM_CNT_NOPART (a : Nat) : Fld := ⟨0x10012c + 0x40 * a, 8, 8⟩
def F.GAL_ARM_CNT_MOVED (a : Nat) : Fld := ⟨0x10012c + 0x40 * a, 16, 8⟩
def F.GAL_ARM_CNT_OLD (a : Nat) : Fld := ⟨0x10012c + 0x40 * a, 24, 8⟩
def F.GAL_ARM_HLTH_OUT (a : Nat) : Fld := ⟨0x100130 + 0x40 * a, 0, 11⟩
def F.GAL_ARM_HLTH_CHECKED (a : Nat) : Fld := ⟨0x100130 + 0x40 * a, 16, 11⟩
def F.GAL_ARM_HLTH_VALID (a : Nat) : Fld := ⟨0x100130 + 0x40 * a, 31, 1⟩
def F.GAL_ARM_IPRED_VALUE (a : Nat) : Fld := ⟨0x100134 + 0x40 * a, 0, 32⟩
def F.GAL_CELL_CTRL_SVC (i : Nat) : Fld := ⟨0x110000 + 0x40 * i, 0, 1⟩
def F.GAL_CELL_CTRL_NODITHER (i : Nat) : Fld := ⟨0x110000 + 0x40 * i, 1, 1⟩
def F.GAL_CELL_CTRL_SCALE (i : Nat) : Fld := ⟨0x110000 + 0x40 * i, 16, 16⟩
def F.GAL_CELL_STAT_LEVEL (i : Nat) : Fld := ⟨0x110004 + 0x40 * i, 0, 2⟩
def F.GAL_CELL_STAT_DITHER (i : Nat) : Fld := ⟨0x110004 + 0x40 * i, 2, 1⟩
def F.GAL_CELL_STAT_HEALTH (i : Nat) : Fld := ⟨0x110004 + 0x40 * i, 3, 1⟩
def F.GAL_CELL_STAT_EXCL (i : Nat) : Fld := ⟨0x110004 + 0x40 * i, 4, 6⟩
def F.GAL_CELL_STAT_AGE (i : Nat) : Fld := ⟨0x110004 + 0x40 * i, 16, 4⟩
def F.GAL_CELL_STAT_RANK (i : Nat) : Fld := ⟨0x110004 + 0x40 * i, 22, 10⟩
def F.GAL_CELL_KEY_KEY (i : Nat) : Fld := ⟨0x110008 + 0x40 * i, 0, 16⟩
def F.GAL_CELL_KEY_VP (i : Nat) : Fld := ⟨0x110008 + 0x40 * i, 16, 16⟩
def F.GAL_CELL_MEAS_VM (i : Nat) : Fld := ⟨0x11000c + 0x40 * i, 0, 16⟩
def F.GAL_CELL_MEAS_TEMP (i : Nat) : Fld := ⟨0x11000c + 0x40 * i, 16, 8⟩
def F.GAL_CELL_SW_CSW (i : Nat) : Fld := ⟨0x110010 + 0x40 * i, 0, 16⟩
def F.GAL_CELL_EDGES_EDGES (i : Nat) : Fld := ⟨0x110014 + 0x40 * i, 0, 32⟩
def F.GAL_CELL_CEST_CEST (i : Nat) : Fld := ⟨0x110018 + 0x40 * i, 0, 32⟩
def F.GAL_CELL_CONF_CONF (i : Nat) : Fld := ⟨0x11001c + 0x40 * i, 0, 8⟩
def F.GAL_CELL_CONF_NACC (i : Nat) : Fld := ⟨0x11001c + 0x40 * i, 8, 24⟩
def F.GAL_CELL_ESTA_VALUE (i : Nat) : Fld := ⟨0x110020 + 0x40 * i, 0, 32⟩
def F.GAL_CELL_ESTB_VALUE (i : Nat) : Fld := ⟨0x110024 + 0x40 * i, 0, 32⟩
def F.GAL_CELL_ESTE_VALUE (i : Nat) : Fld := ⟨0x110028 + 0x40 * i, 0, 32⟩
def F.RP_CFG_EN (r : Nat) : Fld := ⟨0x200000 + 0x1000 * r, 0, 1⟩
def F.RP_CFG_LOWRATE (r : Nat) : Fld := ⟨0x200000 + 0x1000 * r, 1, 1⟩
def F.RP_CFG_AUTO_ADMIT (r : Nat) : Fld := ⟨0x200000 + 0x1000 * r, 2, 1⟩
def F.RP_CFG_EQ_FREEZE (r : Nat) : Fld := ⟨0x200000 + 0x1000 * r, 3, 1⟩
def F.RP_CFG_RETRY (r : Nat) : Fld := ⟨0x200000 + 0x1000 * r, 4, 4⟩
def F.RP_CMD_ENUM (r : Nat) : Fld := ⟨0x200004 + 0x1000 * r, 0, 1⟩
def F.RP_CMD_REJOIN (r : Nat) : Fld := ⟨0x200004 + 0x1000 * r, 1, 1⟩
def F.RP_CMD_RATE (r : Nat) : Fld := ⟨0x200004 + 0x1000 * r, 2, 1⟩
def F.RP_STAT_STATE (r : Nat) : Fld := ⟨0x200008 + 0x1000 * r, 0, 3⟩
def F.RP_STAT_ROLE (r : Nat) : Fld := ⟨0x200008 + 0x1000 * r, 3, 2⟩
def F.RP_STAT_LOCK (r : Nat) : Fld := ⟨0x200008 + 0x1000 * r, 5, 1⟩
def F.RP_STAT_LOS (r : Nat) : Fld := ⟨0x200008 + 0x1000 * r, 6, 1⟩
def F.RP_STAT_SPLIT (r : Nat) : Fld := ⟨0x200008 + 0x1000 * r, 7, 1⟩
def F.RP_STAT_LBV (r : Nat) : Fld := ⟨0x200008 + 0x1000 * r, 8, 1⟩
def F.RP_STAT_LBPOS (r : Nat) : Fld := ⟨0x200008 + 0x1000 * r, 9, 6⟩
def F.RP_STAT_CAUSE (r : Nat) : Fld := ⟨0x200008 + 0x1000 * r, 15, 2⟩
def F.RP_STAT_PFAR (r : Nat) : Fld := ⟨0x200008 + 0x1000 * r, 17, 6⟩
def F.RP_STAT_NPOP (r : Nat) : Fld := ⟨0x200008 + 0x1000 * r, 23, 6⟩
def F.RP_STAT_LOWRATE (r : Nat) : Fld := ⟨0x200008 + 0x1000 * r, 29, 1⟩
def F.RP_ERR_LOS (r : Nat) : Fld := ⟨0x20000c + 0x1000 * r, 0, 1⟩
def F.RP_ERR_LOL (r : Nat) : Fld := ⟨0x20000c + 0x1000 * r, 1, 1⟩
def F.RP_ERR_FCRC (r : Nat) : Fld := ⟨0x20000c + 0x1000 * r, 2, 1⟩
def F.RP_ERR_OVERPOP (r : Nat) : Fld := ⟨0x20000c + 0x1000 * r, 3, 1⟩
def F.RP_ERR_DUPUID (r : Nat) : Fld := ⟨0x20000c + 0x1000 * r, 4, 1⟩
def F.RP_ERR_POSERR (r : Nat) : Fld := ⟨0x20000c + 0x1000 * r, 5, 1⟩
def F.RP_ERR_RATE_REF (r : Nat) : Fld := ⟨0x20000c + 0x1000 * r, 6, 1⟩
def F.RP_ERR_CART_FAIL (r : Nat) : Fld := ⟨0x20000c + 0x1000 * r, 7, 1⟩
def F.RP_ERR_FE_MISS (r : Nat) : Fld := ⟨0x20000c + 0x1000 * r, 8, 1⟩
def F.RP_ERR_SPLIT (r : Nat) : Fld := ⟨0x20000c + 0x1000 * r, 9, 1⟩
def F.RP_POP_MASK (r : Nat) : Fld := ⟨0x200010 + 0x1000 * r, 0, 32⟩
def F.RP_ADM_MASK (r : Nat) : Fld := ⟨0x200014 + 0x1000 * r, 0, 32⟩
def F.RP_NEWC_MASK (r : Nat) : Fld := ⟨0x200018 + 0x1000 * r, 0, 32⟩
def F.RP_SILENT_MASK (r : Nat) : Fld := ⟨0x20001c + 0x1000 * r, 0, 32⟩
def F.RP_ADMIT_MASK (r : Nat) : Fld := ⟨0x200020 + 0x1000 * r, 0, 32⟩
def F.RP_FE_LATEST (r : Nat) : Fld := ⟨0x200024 + 0x1000 * r, 0, 13⟩
def F.RP_FE_MISS (r : Nat) : Fld := ⟨0x200024 + 0x1000 * r, 16, 16⟩
def F.RP_RELAY_OUT_LAG (r : Nat) : Fld := ⟨0x200028 + 0x1000 * r, 0, 12⟩
def F.RP_RELAY_IN_LAG (r : Nat) : Fld := ⟨0x200028 + 0x1000 * r, 16, 12⟩
def F.RP_CNT_LINK_LOS (r : Nat) : Fld := ⟨0x200030 + 0x1000 * r, 0, 16⟩
def F.RP_CNT_LINK_LOL (r : Nat) : Fld := ⟨0x200030 + 0x1000 * r, 16, 16⟩
def F.RP_CNT_CRC_FCRC (r : Nat) : Fld := ⟨0x200034 + 0x1000 * r, 0, 16⟩
def F.RP_CNT_CRC_HCRC (r : Nat) : Fld := ⟨0x200034 + 0x1000 * r, 16, 16⟩
def F.RP_CNT_CART_RETRIES (r : Nat) : Fld := ⟨0x200038 + 0x1000 * r, 0, 16⟩
def F.RP_CNT_CART_FAILED (r : Nat) : Fld := ⟨0x200038 + 0x1000 * r, 16, 16⟩
def F.RP_EQ_CTLE (r : Nat) : Fld := ⟨0x200040 + 0x1000 * r, 0, 5⟩
def F.RP_EQ_DFE1 (r : Nat) : Fld := ⟨0x200040 + 0x1000 * r, 8, 6⟩
def F.RP_EQ_DFE2 (r : Nat) : Fld := ⟨0x200040 + 0x1000 * r, 16, 6⟩
def F.RP_EQ_DFE3 (r : Nat) : Fld := ⟨0x200040 + 0x1000 * r, 24, 6⟩
def F.RP_EQ_ADAPT (r : Nat) : Fld := ⟨0x200040 + 0x1000 * r, 31, 1⟩
def F.RP_CELL_UIDL_UID (r p : Nat) : Fld := ⟨0x200400 + 0x1000 * r + 0x20 * p, 0, 32⟩
def F.RP_CELL_UIDH_UID (r p : Nat) : Fld := ⟨0x200404 + 0x1000 * r + 0x20 * p, 0, 32⟩
def F.RP_CELL_VER_VER_A (r p : Nat) : Fld := ⟨0x200408 + 0x1000 * r + 0x20 * p, 0, 16⟩
def F.RP_CELL_VER_VER_B (r p : Nat) : Fld := ⟨0x200408 + 0x1000 * r + 0x20 * p, 16, 16⟩
def F.RP_CELL_DIG_DIGEST (r p : Nat) : Fld := ⟨0x20040c + 0x1000 * r + 0x20 * p, 0, 32⟩
def F.RP_CELL_VPC_VPC (r p : Nat) : Fld := ⟨0x200410 + 0x1000 * r + 0x20 * p, 0, 32⟩
def F.RP_CELL_INFO_STATE (r p : Nat) : Fld := ⟨0x200414 + 0x1000 * r + 0x20 * p, 0, 2⟩
def F.RP_CELL_INFO_BTYPE (r p : Nat) : Fld := ⟨0x200414 + 0x1000 * r + 0x20 * p, 2, 2⟩
def F.RP_CELL_INFO_STEP (r p : Nat) : Fld := ⟨0x200414 + 0x1000 * r + 0x20 * p, 4, 4⟩
def F.RP_CELL_INFO_ACT (r p : Nat) : Fld := ⟨0x200414 + 0x1000 * r + 0x20 * p, 8, 1⟩
def F.RP_CELL_INFO_VA (r p : Nat) : Fld := ⟨0x200414 + 0x1000 * r + 0x20 * p, 9, 1⟩
def F.RP_CELL_INFO_VB (r p : Nat) : Fld := ⟨0x200414 + 0x1000 * r + 0x20 * p, 10, 1⟩
def F.RP_CELL_INFO_LOWP (r p : Nat) : Fld := ⟨0x200414 + 0x1000 * r + 0x20 * p, 11, 1⟩
def F.RP_CELL_INFO_SELFKEEP (r p : Nat) : Fld := ⟨0x200414 + 0x1000 * r + 0x20 * p, 12, 1⟩
def F.RP_CELL_INFO_POSERR (r p : Nat) : Fld := ⟨0x200414 + 0x1000 * r + 0x20 * p, 13, 1⟩
def F.RP_CELL_ERR_CRCERR (r p : Nat) : Fld := ⟨0x200418 + 0x1000 * r + 0x20 * p, 0, 16⟩
def F.RP_CELL_ERR_UNWRIT (r p : Nat) : Fld := ⟨0x200418 + 0x1000 * r + 0x20 * p, 16, 16⟩
def F.HT_CTRL_SRC : Fld := ⟨0x20000, 0, 2⟩
def F.HT_CTRL_LARGE_SLEW : Fld := ⟨0x20000, 2, 1⟩
def F.HT_CTRL_SLEW : Fld := ⟨0x20000, 4, 7⟩
def F.HT_CTRL_STEP_TH : Fld := ⟨0x20000, 16, 12⟩
def F.HT_SERVO_KP_SH : Fld := ⟨0x20004, 0, 4⟩
def F.HT_SERVO_KI_SH : Fld := ⟨0x20004, 4, 4⟩
def F.HT_SERVO_TERR_LIM : Fld := ⟨0x20004, 8, 8⟩
def F.HT_SERVO_HOLD_TO : Fld := ⟨0x20004, 16, 16⟩
def F.HT_STAT_LOCK : Fld := ⟨0x20008, 0, 1⟩
def F.HT_STAT_HOLD : Fld := ⟨0x20008, 1, 1⟩
def F.HT_STAT_STEP_PEND : Fld := ⟨0x20008, 2, 1⟩
def F.HT_STAT_ALIGNING : Fld := ⟨0x20008, 3, 1⟩
def F.HT_STAT_SRC_USED : Fld := ⟨0x20008, 4, 2⟩
def F.HT_STAT_NEWEL : Fld := ⟨0x20008, 6, 1⟩
def F.HT_CMD_STEP : Fld := ⟨0x2000c, 0, 1⟩
def F.HT_OFFS_FR_FR : Fld := ⟨0x20010, 0, 16⟩
def F.HT_OFFS_NS_NS : Fld := ⟨0x20014, 0, 30⟩
def F.HT_OFFS_S_S : Fld := ⟨0x20018, 0, 32⟩
def F.HT_TIME_FR_FR : Fld := ⟨0x20020, 0, 16⟩
def F.HT_TIME_NS_NS : Fld := ⟨0x20024, 0, 30⟩
def F.HT_TIME_SL_S : Fld := ⟨0x20028, 0, 32⟩
def F.HT_TIME_SH_S : Fld := ⟨0x2002c, 0, 16⟩
def F.HT_FADJ_RHO_I : Fld := ⟨0x20030, 0, 32⟩
def F.HT_LAST_THETA : Fld := ⟨0x20034, 0, 32⟩
def F.HT_STEP_CNT_COUNT : Fld := ⟨0x20040, 0, 16⟩
def F.HT_STEP_SIZE_SIZE : Fld := ⟨0x20044, 0, 32⟩
def F.HT_STEP_CYC_CYC : Fld := ⟨0x20048, 0, 32⟩
def F.HT_PPS_CFG_OUT_EN : Fld := ⟨0x20060, 0, 1⟩
def F.HT_PPS_CFG_IN_EN : Fld := ⟨0x20060, 1, 1⟩
def F.HT_PPS_CFG_WIDTH : Fld := ⟨0x20060, 8, 10⟩
def F.HT_PPS_IDLY_DLY : Fld := ⟨0x20064, 0, 24⟩
def F.HT_PPS_ODLY_DLY : Fld := ⟨0x20068, 0, 24⟩
def F.HT_PPS_STAMP_OFFS : Fld := ⟨0x2006c, 0, 32⟩
def F.HT_ETH_CFG_TS_EN (n : Nat) : Fld := ⟨0x20100 + 0x40 * n, 0, 1⟩
def F.HT_ETH_CFG_L2 (n : Nat) : Fld := ⟨0x20100 + 0x40 * n, 1, 1⟩
def F.HT_ETH_CFG_UDP (n : Nat) : Fld := ⟨0x20100 + 0x40 * n, 2, 1⟩
def F.HT_ETH_TXLAT_LAT (n : Nat) : Fld := ⟨0x20104 + 0x40 * n, 0, 24⟩
def F.HT_ETH_RXLAT_LAT (n : Nat) : Fld := ⟨0x20108 + 0x40 * n, 0, 24⟩
def F.HT_ETH_TXQ_ID_ID (n : Nat) : Fld := ⟨0x2010c + 0x40 * n, 0, 16⟩
def F.HT_ETH_TXQ_ID_VALID (n : Nat) : Fld := ⟨0x2010c + 0x40 * n, 16, 1⟩
def F.HT_ETH_TXQ_FR_FR (n : Nat) : Fld := ⟨0x20110 + 0x40 * n, 0, 16⟩
def F.HT_ETH_TXQ_NS_NS (n : Nat) : Fld := ⟨0x20114 + 0x40 * n, 0, 30⟩
def F.HT_ETH_TXQ_SL_S (n : Nat) : Fld := ⟨0x20118 + 0x40 * n, 0, 32⟩
def F.HT_ETH_TXQ_SH_S (n : Nat) : Fld := ⟨0x2011c + 0x40 * n, 0, 16⟩
def F.HT_ETH_TXQ_STAT_LEVEL (n : Nat) : Fld := ⟨0x20120 + 0x40 * n, 0, 5⟩
def F.HT_ETH_TXQ_STAT_OVF (n : Nat) : Fld := ⟨0x20120 + 0x40 * n, 8, 1⟩
def F.HT_ETH_TXQ_STAT_LOST (n : Nat) : Fld := ⟨0x20120 + 0x40 * n, 16, 16⟩
def F.HT_RING_TERR_TERR (r : Nat) : Fld := ⟨0x20200 + 0x4 * r, 0, 12⟩
def F.HT_RING_TERR_POS (r : Nat) : Fld := ⟨0x20200 + 0x4 * r, 12, 5⟩
def F.HT_RING_RTT_RTT (r : Nat) : Fld := ⟨0x20280 + 0x4 * r, 0, 24⟩
def F.CLK_CFG_CORE_REFM : Fld := ⟨0x10000, 0, 2⟩
def F.CLK_CFG_DPLL_REFM : Fld := ⟨0x10000, 2, 2⟩
def F.CLK_CFG_DPLL_FB_EN : Fld := ⟨0x10000, 4, 1⟩
def F.CLK_DIV_CORE : Fld := ⟨0x10004, 0, 6⟩
def F.CLK_DIV_ACE : Fld := ⟨0x10004, 8, 6⟩
def F.CLK_DIV_GAL : Fld := ⟨0x10004, 16, 6⟩
def F.CLK_DIV_REC : Fld := ⟨0x10004, 24, 6⟩
def F.CLK_CMD_APPLY : Fld := ⟨0x10008, 0, 1⟩
def F.CLK_CMD_SYNC_ARM : Fld := ⟨0x10008, 1, 1⟩
def F.CLK_STAT_CORE_LOCK : Fld := ⟨0x1000c, 0, 1⟩
def F.CLK_STAT_SERDES_LOCK : Fld := ⟨0x1000c, 1, 1⟩
def F.CLK_STAT_DPLL_LOCK : Fld := ⟨0x1000c, 2, 1⟩
def F.CLK_STAT_SAFE : Fld := ⟨0x1000c, 3, 1⟩
def F.CLK_STAT_APPLY_PEND : Fld := ⟨0x1000c, 4, 1⟩
def F.CLK_STAT_SYNC_ARMED : Fld := ⟨0x1000c, 5, 1⟩
def F.CLK_STAT_DPLL_FB : Fld := ⟨0x1000c, 6, 1⟩
def F.CLK_ERR_CORE_LOL : Fld := ⟨0x10010, 0, 1⟩
def F.CLK_ERR_SERDES_LOL : Fld := ⟨0x10010, 1, 1⟩
def F.CLK_ERR_DPLL_LOL : Fld := ⟨0x10010, 2, 1⟩
def F.CLK_ERR_TIMEOUT : Fld := ⟨0x10010, 3, 1⟩
def F.CLK_ERR_REF_LOSS : Fld := ⟨0x10010, 4, 1⟩
def F.CLK_LOCK_WIN (n : Nat) : Fld := ⟨0x10014 + 0x4 * n, 0, 7⟩
def F.CLK_LOCK_CNT (n : Nat) : Fld := ⟨0x10014 + 0x4 * n, 16, 13⟩
def F.CLK_SYNC_NS_VALUE : Fld := ⟨0x10020, 0, 32⟩
def F.T_HT_RTT_RTT : Fld := ⟨0x300, 0, 24⟩
def F.T_HT_RTT_DIR : Fld := ⟨0x300, 24, 1⟩
def F.T_HT_RTT_VALID : Fld := ⟨0x300, 25, 1⟩
def F.T_HT_RTTC_VALUE : Fld := ⟨0x304, 0, 32⟩
def F.T_HT_ASYM_N_ASYM : Fld := ⟨0x308, 0, 16⟩
def F.T_HT_ASYM_F_ASYM : Fld := ⟨0x30c, 0, 16⟩
def F.T_HT_CFG_KP_SH : Fld := ⟨0x310, 0, 4⟩
def F.T_HT_CFG_KI_SH : Fld := ⟨0x310, 4, 4⟩
def F.T_HT_CFG_LOCKWIN : Fld := ⟨0x310, 8, 8⟩
def F.T_HT_CFG_STEPWIN : Fld := ⟨0x310, 16, 8⟩
def F.T_HT_STAT_LOCK : Fld := ⟨0x314, 0, 1⟩
def F.T_HT_STAT_HOLD : Fld := ⟨0x314, 1, 1⟩
def F.T_HT_STAT_NORTT : Fld := ⟨0x314, 2, 1⟩
def F.T_HT_STAT_THETA : Fld := ⟨0x314, 16, 16⟩
def F.T_HT_STEPS_COUNT : Fld := ⟨0x318, 0, 16⟩
def F.T_SW_CFG_DT_ADAPT : Fld := ⟨0x400, 0, 1⟩
def F.T_SW_CFG_GFB_EN : Fld := ⟨0x400, 1, 1⟩
def F.T_SW_CFG_DT_ASH : Fld := ⟨0x400, 4, 3⟩
def F.T_SW_DT_DT_NOM : Fld := ⟨0x404, 0, 11⟩
def F.T_SW_DT_DT_MARGIN : Fld := ⟨0x404, 16, 8⟩
def F.T_SW_DTB_DT_MIN : Fld := ⟨0x408, 0, 11⟩
def F.T_SW_DTB_DT_MAX : Fld := ⟨0x408, 16, 11⟩
def F.T_GFB_CFG_WIN : Fld := ⟨0x40c, 0, 9⟩
def F.T_GFB_CFG_FILT : Fld := ⟨0x40c, 16, 4⟩
def F.T_SW_TCYC_LEN : Fld := ⟨0x410, 0, 11⟩
def F.T_SW_STAT_STATE : Fld := ⟨0x414, 0, 3⟩
def F.T_SW_STAT_BLOCKED : Fld := ⟨0x414, 3, 1⟩
def F.T_SW_STAT_BYPASSED : Fld := ⟨0x414, 4, 1⟩
def F.T_SW_STAT_LANDING : Fld := ⟨0x414, 5, 1⟩
def F.T_SW_STAT_MODE : Fld := ⟨0x414, 6, 2⟩
def F.T_SW_STAT_PARTIAL : Fld := ⟨0x414, 8, 1⟩
def F.T_SW_STAT_PER_W : Fld := ⟨0x414, 9, 1⟩
def F.T_SW_STAT_PH_W : Fld := ⟨0x414, 10, 1⟩
def F.T_SW_STAT_OPT_W : Fld := ⟨0x414, 11, 1⟩
def F.T_SW_STAT_DUTY_W : Fld := ⟨0x414, 12, 1⟩
def F.T_SW_STAT_CMT_CYC : Fld := ⟨0x414, 16, 16⟩
def F.T_SW_CNT_LATE : Fld := ⟨0x418, 0, 8⟩
def F.T_SW_CNT_OVERRIDE : Fld := ⟨0x418, 8, 8⟩
def F.T_SW_CNT_INTERLOCK : Fld := ⟨0x418, 16, 8⟩
def F.T_SW_CNT_BADCMD : Fld := ⟨0x418, 24, 8⟩
def F.T_DT_A_TF_HI : Fld := ⟨0x41c, 0, 15⟩
def F.T_DT_A_TF_LO : Fld := ⟨0x41c, 16, 15⟩
def F.T_DT_B_TF_HI : Fld := ⟨0x420, 0, 15⟩
def F.T_DT_B_TF_LO : Fld := ⟨0x420, 16, 15⟩
def F.T_GFB_STAT_LATCH : Fld := ⟨0x424, 0, 4⟩
def F.T_GFB_STAT_LIVE : Fld := ⟨0x424, 4, 4⟩
def F.T_GFB_STAT_EVENTS : Fld := ⟨0x424, 16, 16⟩
def F.T_CAR_PER_PER : Fld := ⟨0x440, 0, 19⟩
def F.T_CAR_PH_PH : Fld := ⟨0x444, 0, 19⟩
def F.T_CAR_OPT_LEGSWAP : Fld := ⟨0x448, 0, 1⟩
def F.T_CAR_OPT_INVERT : Fld := ⟨0x448, 1, 1⟩
def F.T_CAR_DUTY_D : Fld := ⟨0x44c, 0, 19⟩
def F.T_CAR_DUTY_ON : Fld := ⟨0x44c, 20, 2⟩
def F.T_CAR_APER_PER : Fld := ⟨0x450, 0, 19⟩
def F.T_CAR_APH_PH : Fld := ⟨0x454, 0, 19⟩
def F.T_CAR_AOPT_LEGSWAP : Fld := ⟨0x458, 0, 1⟩
def F.T_CAR_AOPT_INVERT : Fld := ⟨0x458, 1, 1⟩
def F.T_CAR_ADUTY_D : Fld := ⟨0x45c, 0, 19⟩
def F.T_CAR_ADUTY_ON : Fld := ⟨0x45c, 20, 2⟩
def F.T_REFR_CFG_INTERVAL : Fld := ⟨0x460, 0, 7⟩
def F.T_REFR_CFG_NOTCH : Fld := ⟨0x460, 8, 5⟩
def F.T_REFR_STAT_REQ : Fld := ⟨0x464, 0, 1⟩
def F.T_REFR_STAT_NOTCH : Fld := ⟨0x464, 1, 1⟩
def F.T_REFR_STAT_NOTCHES : Fld := ⟨0x464, 16, 16⟩
def F.T_BYP_CFG_CONF_TO : Fld := ⟨0x470, 0, 7⟩
def F.T_BYP_CFG_LEVEL0 : Fld := ⟨0x470, 7, 1⟩
def F.T_BYP_CFG_TEST_PER : Fld := ⟨0x470, 8, 8⟩
def F.T_BYP_CFG_TEST_EN : Fld := ⟨0x470, 16, 1⟩
def F.T_BYP_STAT_BYP : Fld := ⟨0x474, 0, 1⟩
def F.T_BYP_STAT_CONF : Fld := ⟨0x474, 1, 1⟩
def F.T_BYP_STAT_BYPASSED : Fld := ⟨0x474, 2, 1⟩
def F.T_BYP_STAT_THY : Fld := ⟨0x474, 3, 1⟩
def F.T_BYP_STAT_TEST_FAIL : Fld := ⟨0x474, 4, 1⟩
def F.T_BYP_STAT_TESTS : Fld := ⟨0x474, 16, 16⟩
def F.T_BYP_CMD_RELEASE : Fld := ⟨0x478, 0, 1⟩
def F.T_BYP_CMD_KEY : Fld := ⟨0x478, 8, 8⟩
def F.T_LAND_CFG_DEPTH : Fld := ⟨0x480, 0, 7⟩
def F.T_LAND_CFG_LEAD_J : Fld := ⟨0x480, 16, 3⟩
def F.T_LAND_STAT_HELD : Fld := ⟨0x484, 0, 7⟩
def F.T_LAND_STAT_ARMED : Fld := ⟨0x484, 7, 1⟩
def F.T_LAND_STAT_PLAYING : Fld := ⟨0x484, 8, 1⟩
def F.T_LAND_STAT_PLAYED : Fld := ⟨0x484, 16, 7⟩
def F.T_LAND_STAT_IGNORED : Fld := ⟨0x484, 24, 8⟩
def F.T_LAND_VAL0_VALUE : Fld := ⟨0x488, 0, 32⟩
def F.T_LAND_VAL1_VALUE : Fld := ⟨0x48c, 0, 32⟩
def F.T_LAND_TBL_ENTRY (n : Nat) : Fld := ⟨0x500 + 0x4 * n, 0, 32⟩
def F.T_ID_UIDL_VALUE : Fld := ⟨0x0, 0, 32⟩
def F.T_ID_UIDH_VALUE : Fld := ⟨0x4, 0, 32⟩
def F.T_ID_INFO_POS : Fld := ⟨0x8, 0, 6⟩
def F.T_ID_INFO_HPOS : Fld := ⟨0x8, 6, 6⟩
def F.T_ID_INFO_BTYPE : Fld := ⟨0x8, 12, 2⟩
def F.T_ID_INFO_STEP : Fld := ⟨0x8, 14, 4⟩
def F.T_ID_INFO_ADM : Fld := ⟨0x8, 18, 1⟩
def F.T_ID_INFO_NEWC : Fld := ⟨0x8, 19, 1⟩
def F.T_STAT_LOWP : Fld := ⟨0xc, 0, 1⟩
def F.T_STAT_SELFKEEP : Fld := ⟨0xc, 1, 1⟩
def F.T_STAT_BOOTED : Fld := ⟨0xc, 2, 1⟩
def F.T_STAT_READY : Fld := ⟨0xc, 3, 1⟩
def F.T_STAT_SUPOK : Fld := ⟨0xc, 4, 1⟩
def F.T_STAT_FQ_LEVEL : Fld := ⟨0xc, 8, 5⟩
def F.T_STAT_FQ_LOST : Fld := ⟨0xc, 16, 16⟩
def F.T_DIGEST_DIGEST : Fld := ⟨0x10, 0, 32⟩
def F.T_ADC_CFG_VAVG : Fld := ⟨0x100, 0, 2⟩
def F.T_ADC_CFG_SEQ_EN : Fld := ⟨0x100, 3, 1⟩
def F.T_ADC_SEQ0_IN (k : Nat) : Fld := ⟨0x104, 4 * k, 3⟩
def F.T_ADC_SEQ0_EN (k : Nat) : Fld := ⟨0x104, 3 + 4 * k, 1⟩
def F.T_ADC_SEQ1_IN (k : Nat) : Fld := ⟨0x108, 4 * k, 3⟩
def F.T_ADC_SEQ1_EN (k : Nat) : Fld := ⟨0x108, 3 + 4 * k, 1⟩
def F.T_ADC_VPC_VPC : Fld := ⟨0x10c, 0, 32⟩
def F.T_ADC_VCAP_CODE : Fld := ⟨0x110, 0, 14⟩
def F.T_ADC_VCAP_OVR : Fld := ⟨0x110, 14, 1⟩
def F.T_ADC_VCAP_CYC : Fld := ⟨0x110, 16, 16⟩
def F.T_ADC_RES_CODE (n : Nat) : Fld := ⟨0x120 + 0x4 * n, 0, 14⟩
def F.T_ADC_RES_OVR (n : Nat) : Fld := ⟨0x120 + 0x4 * n, 14, 1⟩
def F.T_ADC_RES_UNDER (n : Nat) : Fld := ⟨0x120 + 0x4 * n, 15, 1⟩
def F.T_ADC_RES_COUNT (n : Nat) : Fld := ⟨0x120 + 0x4 * n, 16, 16⟩
def F.T_NTC_TBL_CODE (n : Nat) : Fld := ⟨0x140 + 0x4 * n, 0, 14⟩
def F.T_NTC_TBL_TEMP (n : Nat) : Fld := ⟨0x140 + 0x4 * n, 16, 8⟩
def F.T_OVG_CFG_LIM : Fld := ⟨0x200, 0, 12⟩
def F.T_OVG_STAT_STRAP : Fld := ⟨0x204, 0, 12⟩
def F.T_OVG_STAT_STRAP_FAULT : Fld := ⟨0x204, 12, 1⟩
def F.T_OVG_STAT_ARMED : Fld := ⟨0x204, 13, 1⟩
def F.T_OVG_STAT_LIVE : Fld := ⟨0x204, 14, 1⟩
def F.T_OVG_STAT_THR : Fld := ⟨0x204, 16, 12⟩
def F.T_PROT_TEMP_HS_HI : Fld := ⟨0x208, 0, 8⟩
def F.T_PROT_TEMP_DIE_HI : Fld := ⟨0x208, 8, 8⟩
def F.T_PROT_TEMP_HYS : Fld := ⟨0x208, 16, 8⟩
def F.T_PROT_SUP_VGD_MIN : Fld := ⟨0x20c, 0, 8⟩
def F.T_PROT_SUP_VHS_MIN : Fld := ⟨0x20c, 8, 8⟩
def F.T_PROT_SUP_VAUX_MIN : Fld := ⟨0x20c, 16, 8⟩
def F.T_PROT_SUP_SUPOK_HOLD : Fld := ⟨0x20c, 24, 8⟩
def F.T_PROT_VCAP_HI : Fld := ⟨0x210, 0, 14⟩
def F.T_PROT_STAT_LIVE : Fld := ⟨0x214, 0, 7⟩
def F.T_PROT_STAT_DESAT : Fld := ⟨0x214, 8, 4⟩
def F.T_PROT_STAT_OV_TRIP : Fld := ⟨0x214, 12, 1⟩
def F.T_FW_CTRL_UPD_EN : Fld := ⟨0x280, 0, 1⟩
def F.T_FW_CMD_VERIFY : Fld := ⟨0x284, 0, 1⟩
def F.T_FW_CMD_SWITCH : Fld := ⟨0x284, 1, 1⟩
def F.T_FW_CMD_KEY : Fld := ⟨0x284, 8, 8⟩
def F.T_FW_STAT_ACT : Fld := ⟨0x288, 0, 1⟩
def F.T_FW_STAT_VA : Fld := ⟨0x288, 1, 1⟩
def F.T_FW_STAT_VB : Fld := ⟨0x288, 2, 1⟩
def F.T_FW_STAT_BUSY : Fld := ⟨0x288, 3, 1⟩
def F.T_FW_STAT_VRES : Fld := ⟨0x288, 4, 1⟩
def F.T_FW_STAT_RESULT : Fld := ⟨0x288, 5, 3⟩
def F.T_FW_STAT_FUSE_SVN : Fld := ⟨0x288, 8, 8⟩
def F.T_FW_VER_VER_A : Fld := ⟨0x28c, 0, 16⟩
def F.T_FW_VER_VER_B : Fld := ⟨0x28c, 16, 16⟩
def F.T_LN_STAT_NLOCK : Fld := ⟨0x600, 0, 1⟩
def F.T_LN_STAT_NLOS : Fld := ⟨0x600, 1, 1⟩
def F.T_LN_STAT_FLOCK : Fld := ⟨0x600, 2, 1⟩
def F.T_LN_STAT_FLOS : Fld := ⟨0x600, 3, 1⟩
def F.T_LN_STAT_CLKPORT : Fld := ⟨0x600, 4, 1⟩
def F.T_LN_STAT_LOWRATE : Fld := ⟨0x600, 5, 1⟩
def F.T_LN_EQN_CTLE : Fld := ⟨0x604, 0, 5⟩
def F.T_LN_EQN_DFE1 : Fld := ⟨0x604, 8, 6⟩
def F.T_LN_EQN_DFE2 : Fld := ⟨0x604, 16, 6⟩
def F.T_LN_EQN_DFE3 : Fld := ⟨0x604, 24, 6⟩
def F.T_LN_EQN_ADAPT : Fld := ⟨0x604, 31, 1⟩
def F.T_LN_EQF_CTLE : Fld := ⟨0x608, 0, 5⟩
def F.T_LN_EQF_DFE1 : Fld := ⟨0x608, 8, 6⟩
def F.T_LN_EQF_DFE2 : Fld := ⟨0x608, 16, 6⟩
def F.T_LN_EQF_DFE3 : Fld := ⟨0x608, 24, 6⟩
def F.T_LN_EQF_ADAPT : Fld := ⟨0x608, 31, 1⟩
def F.T_LN_CNT_NLOL : Fld := ⟨0x60c, 0, 8⟩
def F.T_LN_CNT_FLOL : Fld := ⟨0x60c, 8, 8⟩
def F.T_LN_CNT_NLOS : Fld := ⟨0x60c, 16, 8⟩
def F.T_LN_CNT_FLOS : Fld := ⟨0x60c, 24, 8⟩
def F.T_EVC_SEL_SRC (n : Nat) : Fld := ⟨0x700 + 0x4 * n, 0, 4⟩
def F.T_EVC_CNT_COUNT (n : Nat) : Fld := ⟨0x720 + 0x4 * n, 0, 32⟩
def F.T_SCH_CMD_OP : Fld := ⟨0x780, 0, 3⟩
def F.T_SCH_CMD_THREAD : Fld := ⟨0x780, 4, 4⟩
def F.T_SCH_CMD_PRIO : Fld := ⟨0x780, 8, 3⟩
def F.T_SCH_ARG_TICKS : Fld := ⟨0x784, 0, 32⟩
def F.T_SCH_STAT_RUN : Fld := ⟨0x788, 0, 4⟩
def F.T_SCH_STAT_IDLE : Fld := ⟨0x788, 4, 1⟩
def F.T_SCH_STAT_TIMEOUT : Fld := ⟨0x788, 5, 1⟩
def F.T_SCH_STAT_READY : Fld := ⟨0x788, 16, 16⟩
def F.T_SCH_TICK_TICK : Fld := ⟨0x78c, 0, 32⟩
def F.T_PW_VALUE (w : Nat) : Fld := ⟨0x800 + 0x4 * w, 0, 32⟩
def F.T_PW_WEAR_WRITES (b : Nat) : Fld := ⟨0xc00 + 0x4 * b, 0, 27⟩
def F.T_PW_WEAR_RDONLY (b : Nat) : Fld := ⟨0xc00 + 0x4 * b, 31, 1⟩
def F.FLT_CTRL_QEN : Fld := ⟨0x3c0000, 0, 4⟩
def F.FLT_STAT_ARM_BLK : Fld := ⟨0x3c0004, 0, 6⟩
def F.FLT_STAT_HALL_BLK : Fld := ⟨0x3c0004, 6, 1⟩
def F.FLT_STAT_TRIP : Fld := ⟨0x3c0004, 7, 1⟩
def F.FLT_STAT_SAFE_OUT : Fld := ⟨0x3c0004, 8, 1⟩
def F.FLT_REFUSED_COUNT : Fld := ⟨0x3c0008, 0, 32⟩
def F.FLT_ERR_FLOOR : Fld := ⟨0x3c000c, 0, 1⟩
def F.FLT_LAST_SOURCE : Fld := ⟨0x3c0010, 0, 10⟩
def F.FLT_LAST_SEV : Fld := ⟨0x3c0010, 10, 3⟩
def F.FLT_LAST_CELLV : Fld := ⟨0x3c0010, 13, 1⟩
def F.FLT_LAST_LOCAL : Fld := ⟨0x3c0010, 14, 10⟩
def F.FLT_RAISES_COUNT : Fld := ⟨0x3c0014, 0, 32⟩
def F.FLT_LATCH_LATCH (n : Nat) : Fld := ⟨0x3c0040 + 0x4 * n, 0, 32⟩
def F.FLT_LIVE_LIVE (n : Nat) : Fld := ⟨0x3c00c0 + 0x4 * n, 0, 32⟩
def F.FLT_SEV_SEV (s : Nat) : Fld := ⟨0x3c1000 + 0x4 * s, 0, 3⟩
def F.FLT_SEV_FLOOR (s : Nat) : Fld := ⟨0x3c1000 + 0x4 * s, 4, 3⟩
def F.FLT_SEV_SCOPE (s : Nat) : Fld := ⟨0x3c1000 + 0x4 * s, 8, 2⟩
def F.FLT_SEV_LIVE (s : Nat) : Fld := ⟨0x3c1000 + 0x4 * s, 10, 1⟩
def F.FLT_SEV_LATCH (s : Nat) : Fld := ⟨0x3c1000 + 0x4 * s, 11, 1⟩
def F.FLT_SEV_COUNT (s : Nat) : Fld := ⟨0x3c1000 + 0x4 * s, 16, 16⟩
def F.FLT_CELL_GRP (i : Nat) : Fld := ⟨0x3c2000 + 0x4 * i, 0, 16⟩
def F.FLT_CELL_LATE (i : Nat) : Fld := ⟨0x3c2000 + 0x4 * i, 16, 1⟩
def F.FLT_CELL_TERR (i : Nat) : Fld := ⟨0x3c2000 + 0x4 * i, 17, 1⟩
def F.FLT_CELL_CLOSS (i : Nat) : Fld := ⟨0x3c2000 + 0x4 * i, 18, 1⟩
def F.FLT_CELL_UNK (i : Nat) : Fld := ⟨0x3c2000 + 0x4 * i, 19, 1⟩
def F.FLT_CELL_SILENT (i : Nat) : Fld := ⟨0x3c2000 + 0x4 * i, 20, 1⟩
def F.FLT_CELL_HEALTH (i : Nat) : Fld := ⟨0x3c2000 + 0x4 * i, 21, 1⟩
def F.FLT_CELL_OOS (i : Nat) : Fld := ⟨0x3c2000 + 0x4 * i, 31, 1⟩
def F.FLT_IQ_RDL_ITEM_LO (q : Nat) : Fld := ⟨0x3c3000 + 0x10 * q, 0, 32⟩
def F.FLT_IQ_RDH_ITEM_HI (q : Nat) : Fld := ⟨0x3c3004 + 0x10 * q, 0, 32⟩
def F.FLT_IQ_CFG_FALLBACK (q : Nat) : Fld := ⟨0x3c3008 + 0x10 * q, 0, 1⟩
def F.FLT_IQ_CFG_MEN (q : Nat) : Fld := ⟨0x3c3008 + 0x10 * q, 1, 1⟩
def F.FLT_IQ_CFG_MCH (q : Nat) : Fld := ⟨0x3c3008 + 0x10 * q, 2, 4⟩
def F.FLT_IQ_CFG_MPRE (q : Nat) : Fld := ⟨0x3c3008 + 0x10 * q, 6, 2⟩
def F.FLT_IQ_STAT_LEVEL (q : Nat) : Fld := ⟨0x3c300c + 0x10 * q, 0, 11⟩
def F.FLT_IQ_STAT_EMPTY (q : Nat) : Fld := ⟨0x3c300c + 0x10 * q, 11, 1⟩
def F.FLT_IQ_STAT_UNDERRUN (q : Nat) : Fld := ⟨0x3c300c + 0x10 * q, 12, 1⟩
def F.FLT_IQ_STAT_CORR (q : Nat) : Fld := ⟨0x3c300c + 0x10 * q, 16, 8⟩
def F.FLT_IQ_STAT_LOST (q : Nat) : Fld := ⟨0x3c300c + 0x10 * q, 24, 8⟩
def F.T_FLT_CLR_GFB : Fld := ⟨0x220, 0, 4⟩
def F.T_FLT_CLR_DESAT : Fld := ⟨0x220, 4, 4⟩
def F.T_FLT_CLR_OV : Fld := ⟨0x220, 8, 1⟩
def F.T_FLT_CLR_KEY : Fld := ⟨0x220, 16, 8⟩
def F.T_FLT_STAT_REFUSED : Fld := ⟨0x224, 0, 16⟩
def F.T_FLT_STAT_LAST_CODE : Fld := ⟨0x224, 16, 10⟩
def F.T_FLT_STAT_LAST_SEQ : Fld := ⟨0x224, 26, 2⟩
def F.T_FLT_LOG_CODE (n : Nat) : Fld := ⟨0x230 + 0x4 * n, 0, 10⟩
def F.T_FLT_LOG_SEQ (n : Nat) : Fld := ⟨0x230 + 0x4 * n, 10, 2⟩
def F.T_FLT_LOG_CYC (n : Nat) : Fld := ⟨0x230 + 0x4 * n, 16, 16⟩
def F.SAF_ID_FW_VER : Fld := ⟨0x380000, 0, 16⟩
def F.SAF_ID_ACT_CNT : Fld := ⟨0x380000, 16, 16⟩
def F.SAF_LOCK_KEY : Fld := ⟨0x380004, 0, 8⟩
def F.SAF_LOCK_OPEN : Fld := ⟨0x380004, 8, 1⟩
def F.SAF_LOCK_CLOSE : Fld := ⟨0x380004, 9, 1⟩
def F.SAF_LOCK_ABANDON : Fld := ⟨0x380004, 10, 1⟩
def F.SAF_STAT_STATE : Fld := ⟨0x380008, 0, 2⟩
def F.SAF_STAT_OVERRIDE : Fld := ⟨0x380008, 2, 1⟩
def F.SAF_STAT_SBK : Fld := ⟨0x380008, 3, 1⟩
def F.SAF_STAT_SLC : Fld := ⟨0x380008, 4, 1⟩
def F.SAF_STAT_SLR : Fld := ⟨0x380008, 5, 1⟩
def F.SAF_STAT_SLD : Fld := ⟨0x380008, 6, 1⟩
def F.SAF_STAT_SLD_ACT : Fld := ⟨0x380008, 7, 1⟩
def F.SAF_CMD_DCLR : Fld := ⟨0x38000c, 0, 8⟩
def F.SAF_CMD_SBO_REL : Fld := ⟨0x38000c, 8, 1⟩
def F.SAF_CMD_TEST : Fld := ⟨0x38000c, 9, 1⟩
def F.SAF_CMD_KEY : Fld := ⟨0x38000c, 16, 8⟩
def F.SAF_ERR_PCRC : Fld := ⟨0x380010, 0, 1⟩
def F.SAF_ERR_LOCK_TO : Fld := ⟨0x380010, 1, 1⟩
def F.SAF_ERR_REL_REF : Fld := ⟨0x380010, 2, 1⟩
def F.SAF_ERR_DCLR_REF : Fld := ⟨0x380010, 3, 1⟩
def F.SAF_ERR_BCHF : Fld := ⟨0x380010, 4, 8⟩
def F.SAF_ERR_SBOF : Fld := ⟨0x380010, 12, 4⟩
def F.SAF_PCRC_CRC : Fld := ⟨0x380014, 0, 32⟩
def F.SAF_PCRC_ACT_CRC : Fld := ⟨0x380018, 0, 32⟩
def F.SAF_CNT_REL_REF : Fld := ⟨0x38001c, 0, 16⟩
def F.SAF_CNT_DCLR_REF : Fld := ⟨0x38001c, 16, 16⟩
def F.SAF_SEV0_SEV (k : Nat) : Fld := ⟨0x380020, 3 * k, 3⟩
def F.SAF_SEV0_SEV_0A7 : Fld := ⟨0x380020, 18, 3⟩
def F.SAF_SEV1_SEV (k : Nat) : Fld := ⟨0x380024, 3 * k, 3⟩
def F.SAF_SI_FUNC (p : Nat) : Fld := ⟨0x380040 + 0x4 * p, 0, 2⟩
def F.SAF_SI_FILT (p : Nat) : Fld := ⟨0x380040 + 0x4 * p, 2, 8⟩
def F.SAF_SI_DISC (p : Nat) : Fld := ⟨0x380040 + 0x4 * p, 10, 17⟩
def F.SAF_SI_STAT_A : Fld := ⟨0x380060, 0, 8⟩
def F.SAF_SI_STAT_B : Fld := ⟨0x380060, 8, 8⟩
def F.SAF_SI_STAT_DEM : Fld := ⟨0x380060, 16, 8⟩
def F.SAF_SI_STAT_DLATCH : Fld := ⟨0x380060, 24, 8⟩
def F.SAF_SBO_EN (n : Nat) : Fld := ⟨0x380080 + 0x4 * n, 0, 1⟩
def F.SAF_SBO_PW (n : Nat) : Fld := ⟨0x380080 + 0x4 * n, 1, 8⟩
def F.SAF_SBO_TPER (n : Nat) : Fld := ⟨0x380080 + 0x4 * n, 9, 10⟩
def F.SAF_SBO_RBW (n : Nat) : Fld := ⟨0x380080 + 0x4 * n, 19, 6⟩
def F.SAF_SBO_STAT_OUT : Fld := ⟨0x380090, 0, 4⟩
def F.SAF_SBO_STAT_RB : Fld := ⟨0x380090, 4, 4⟩
def F.SAF_SBO_STAT_TESTS : Fld := ⟨0x380090, 16, 16⟩
def F.SAF_BCH_MI (c : Nat) : Fld := ⟨0x3800a0 + 0x4 * c, 0, 4⟩
def F.SAF_BCH_EN (c : Nat) : Fld := ⟨0x3800a0 + 0x4 * c, 4, 1⟩
def F.SAF_BCH_EDGE (c : Nat) : Fld := ⟨0x3800a0 + 0x4 * c, 5, 1⟩
def F.SAF_BCH_POL (c : Nat) : Fld := ⟨0x3800a0 + 0x4 * c, 6, 1⟩
def F.SAF_BCH_XEN (c : Nat) : Fld := ⟨0x3800a0 + 0x4 * c, 7, 1⟩
def F.SAF_BCH_XTOL (c : Nat) : Fld := ⟨0x3800a0 + 0x4 * c, 8, 12⟩
def F.SAF_BVAL_CODE (c : Nat) : Fld := ⟨0x3800c0 + 0x4 * c, 0, 16⟩
def F.SAF_BVAL_CFLT (c : Nat) : Fld := ⟨0x3800c0 + 0x4 * c, 16, 1⟩
def F.SAF_SLC_BCH (a : Nat) : Fld := ⟨0x380100 + 0x4 * a, 0, 3⟩
def F.SAF_SLC_EN (a : Nat) : Fld := ⟨0x380100 + 0x4 * a, 3, 1⟩
def F.SAF_SLC_COUNT (a : Nat) : Fld := ⟨0x380100 + 0x4 * a, 4, 4⟩
def F.SAF_SLC_LIM (a : Nat) : Fld := ⟨0x380100 + 0x4 * a, 8, 15⟩
def F.SAF_PWR_CFG_VCH : Fld := ⟨0x380120, 0, 3⟩
def F.SAF_PWR_CFG_IMASK : Fld := ⟨0x380120, 4, 8⟩
def F.SAF_PWR_CFG_INEG : Fld := ⟨0x380120, 12, 8⟩
def F.SAF_PWR_CFG_ESH : Fld := ⟨0x380120, 20, 4⟩
def F.SAF_PWR_CFG_SLR_EN : Fld := ⟨0x380120, 24, 1⟩
def F.SAF_PWR_CFG_SLD_EN : Fld := ⟨0x380120, 25, 1⟩
def F.SAF_SLR_RATE_R : Fld := ⟨0x380124, 0, 32⟩
def F.SAF_SLR_BAND_BAND : Fld := ⟨0x380128, 0, 18⟩
def F.SAF_SLD_CFG_PAIR : Fld := ⟨0x38012c, 0, 3⟩
def F.SAF_SLD_CFG_ALWAYS : Fld := ⟨0x38012c, 3, 1⟩
def F.SAF_SLD_CFG_DIR : Fld := ⟨0x38012c, 4, 1⟩
def F.SAF_SLD_CFG_N : Fld := ⟨0x38012c, 8, 4⟩
def F.SAF_SLD_CFG_BAND : Fld := ⟨0x38012c, 12, 18⟩
def F.SAF_PM_P : Fld := ⟨0x380130, 0, 32⟩
def F.SAF_PENV_P : Fld := ⟨0x380134, 0, 32⟩
def F.STK_CFG_NEWEL_HOLD : Fld := ⟨0x300000, 16, 8⟩
def F.STK_STAT_NEWEL : Fld := ⟨0x300004, 0, 4⟩
def F.STK_STAT_IS_NEWEL : Fld := ⟨0x300004, 4, 1⟩
def F.STK_STAT_RING_A : Fld := ⟨0x300004, 5, 1⟩
def F.STK_STAT_RING_B : Fld := ⟨0x300004, 6, 1⟩
def F.STK_STAT_NHUBS : Fld := ⟨0x300004, 7, 5⟩
def F.STK_CMD_HUB : Fld := ⟨0x300008, 0, 4⟩
def F.STK_CMD_ADMIT : Fld := ⟨0x300008, 4, 1⟩
def F.STK_CMD_RESIGN : Fld := ⟨0x300008, 5, 1⟩
def F.STK_CMD_KEY : Fld := ⟨0x300008, 8, 8⟩
def F.STK_ERR_ADM_REF : Fld := ⟨0x30000c, 0, 1⟩
def F.STK_ERR_RES_REF : Fld := ⟨0x30000c, 1, 1⟩
def F.STK_ERR_NO_TAKE : Fld := ⟨0x30000c, 2, 1⟩
def F.STK_HUBS_PRESENT : Fld := ⟨0x300010, 0, 16⟩
def F.STK_HUBS_FENCED : Fld := ⟨0x300010, 16, 16⟩
def F.STK_RED_CFG_HOLD : Fld := ⟨0x300020, 0, 10⟩
def F.STK_RED_CFG_AUTO_REVERT : Fld := ⟨0x300020, 10, 1⟩
def F.STK_RED_STAT_STATE : Fld := ⟨0x300024, 0, 3⟩
def F.STK_RED_STAT_READY : Fld := ⟨0x300024, 3, 1⟩
def F.STK_RED_STAT_BASE_OK : Fld := ⟨0x300024, 4, 1⟩
def F.STK_RED_STAT_JRNL_OK : Fld := ⟨0x300024, 5, 1⟩
def F.STK_RED_STAT_CFG_MATCH : Fld := ⟨0x300024, 6, 1⟩
def F.STK_RED_STAT_PARTNER : Fld := ⟨0x300024, 7, 1⟩
def F.STK_RED_STAT_LAST_GAP : Fld := ⟨0x300024, 16, 7⟩
def F.STK_EPOCH_EPOCH : Fld := ⟨0x300028, 0, 16⟩
def F.STK_CFGDIG_VALUE : Fld := ⟨0x30002c, 0, 32⟩
def F.STK_HO_CYC_VALUE : Fld := ⟨0x300030, 0, 32⟩
def F.STK_HO_CNT_TAKEOVERS : Fld := ⟨0x300034, 0, 16⟩
def F.STK_HO_CNT_REVERTS : Fld := ⟨0x300034, 16, 16⟩
def F.STK_SNAP_BASE_CYC : Fld := ⟨0x300038, 0, 16⟩
def F.STK_SNAP_JLEN : Fld := ⟨0x300038, 16, 9⟩
def F.STK_LAND_CFG_EN (a : Nat) : Fld := ⟨0x300040 + 0x4 * a, 0, 1⟩
def F.STK_LAND_CFG_DEPTH (a : Nat) : Fld := ⟨0x300040 + 0x4 * a, 7, 7⟩
def F.STK_LAND_CFG_WIN (a : Nat) : Fld := ⟨0x300040 + 0x4 * a, 16, 14⟩
def F.STK_PAIR_TSTK : Fld := ⟨0x300060, 0, 12⟩
def F.STK_PAIR_HOPS : Fld := ⟨0x300060, 12, 4⟩
def F.STK_PAIR_RING : Fld := ⟨0x300060, 16, 1⟩
def F.STK_ASYM_E_ASYM : Fld := ⟨0x300064, 0, 16⟩
def F.STK_ASYM_W_ASYM : Fld := ⟨0x300068, 0, 16⟩
def F.STK_LINK_LOCK : Fld := ⟨0x300070, 0, 4⟩
def F.STK_LINK_LOS : Fld := ⟨0x300070, 4, 4⟩
def F.STK_CNT_LINK_LOL : Fld := ⟨0x300074, 0, 16⟩
def F.STK_CNT_LINK_BADMSG : Fld := ⟨0x300074, 16, 16⟩
def F.STK_HB_LAT_LAT (n : Nat) : Fld := ⟨0x300080 + 0x4 * n, 0, 12⟩
def F.STK_DLY_DLY (n : Nat) : Fld := ⟨0x3000c0 + 0x4 * n, 0, 12⟩
def F.STK_EX_TX_VALUE (n : Nat) : Fld := ⟨0x300100 + 0x4 * n, 0, 32⟩
def F.STK_EX_CFG_DIV : Fld := ⟨0x300110, 0, 8⟩
def F.STK_EX_STAT_STALE : Fld := ⟨0x300114, 0, 16⟩
def F.STK_EX_RX_VALUE (n w : Nat) : Fld := ⟨0x300200 + 0x10 * n + 0x4 * w, 0, 32⟩
def F.T_EPOCH_EPOCH : Fld := ⟨0x330, 0, 16⟩
def F.T_EPOCH_VALID : Fld := ⟨0x330, 16, 1⟩
def F.T_EPOCH_STALE : Fld := ⟨0x330, 17, 1⟩
def F.T_EPOCH_SPORT : Fld := ⟨0x330, 18, 1⟩
def F.T_EPOCH_TURNS : Fld := ⟨0x330, 24, 8⟩
def F.HQ_CTRL_BAR2_WE : Fld := ⟨0x400000, 0, 1⟩
def F.HQ_STAT_SPEED : Fld := ⟨0x400004, 0, 4⟩
def F.HQ_STAT_WIDTH : Fld := ⟨0x400004, 4, 6⟩
def F.HQ_STAT_LINK_UP : Fld := ⟨0x400004, 10, 1⟩
def F.HQ_STAT_BME : Fld := ⟨0x400004, 11, 1⟩
def F.HQ_STAT_MSIX_EN : Fld := ⟨0x400004, 12, 1⟩
def F.HQ_ERR_DB_RANGE : Fld := ⟨0x400008, 0, 1⟩
def F.HQ_ERR_BAD_ACC : Fld := ⟨0x400008, 1, 1⟩
def F.HQ_ERR_RD_FAIL : Fld := ⟨0x400008, 2, 1⟩
def F.HQ_ERR_CFG_WR : Fld := ⟨0x400008, 3, 1⟩
def F.HQ_ERR_EV_LOST : Fld := ⟨0x400008, 4, 1⟩
def F.HQ_ERR_ETH_DROP : Fld := ⟨0x400008, 5, 1⟩
def F.HQ_ERR_BME_OFF : Fld := ⟨0x400008, 6, 1⟩
def F.HQ_EV_ROUTE_FAULT_RING : Fld := ⟨0x40000c, 0, 4⟩
def F.HQ_EV_ROUTE_FAULT_EN : Fld := ⟨0x40000c, 4, 1⟩
def F.HQ_EV_ROUTE_MINSEV : Fld := ⟨0x40000c, 5, 3⟩
def F.HQ_EV_ROUTE_ETH0_RING : Fld := ⟨0x40000c, 8, 4⟩
def F.HQ_EV_ROUTE_ETH0_EN : Fld := ⟨0x40000c, 12, 1⟩
def F.HQ_EV_ROUTE_ETH1_RING : Fld := ⟨0x40000c, 16, 4⟩
def F.HQ_EV_ROUTE_ETH1_EN : Fld := ⟨0x40000c, 20, 1⟩
def F.HQ_ERR_VEC_VEC : Fld := ⟨0x400010, 0, 7⟩
def F.HQ_ERR_VEC_EN : Fld := ⟨0x400010, 7, 1⟩
def F.HQ_ETH_CNT_DROP0 : Fld := ⟨0x400014, 0, 16⟩
def F.HQ_ETH_CNT_DROP1 : Fld := ⟨0x400014, 16, 16⟩
def F.HQ_ARM_STAT_CAUSE (a : Nat) : Fld := ⟨0x400020 + 0x4 * a, 0, 13⟩
def F.HQ_ARM_STAT_DEBLOCKED (a : Nat) : Fld := ⟨0x400020 + 0x4 * a, 13, 1⟩
def F.HQ_ARM_STAT_CMD_BLK (a : Nat) : Fld := ⟨0x400020 + 0x4 * a, 14, 1⟩
def F.HQ_ETH_CFG_EN (n : Nat) : Fld := ⟨0x400040 + 0x10 * n, 0, 1⟩
def F.HQ_ETH_CFG_SGMII (n : Nat) : Fld := ⟨0x400040 + 0x10 * n, 1, 1⟩
def F.HQ_ETH_CFG_PROMISC (n : Nat) : Fld := ⟨0x400040 + 0x10 * n, 2, 1⟩
def F.HQ_ETH_CFG_MCAST_ALL (n : Nat) : Fld := ⟨0x400040 + 0x10 * n, 3, 1⟩
def F.HQ_ETH_MACL_ADDR (n : Nat) : Fld := ⟨0x400044 + 0x10 * n, 0, 32⟩
def F.HQ_ETH_MACH_ADDR (n : Nat) : Fld := ⟨0x400048 + 0x10 * n, 0, 16⟩
def F.HQ_ETH_STAT_LINK (n : Nat) : Fld := ⟨0x40004c + 0x10 * n, 0, 1⟩
def F.HQ_RING_BASEL_BASE (n : Nat) : Fld := ⟨0x400100 + 0x20 * n, 12, 20⟩
def F.HQ_RING_BASEH_BASE (n : Nat) : Fld := ⟨0x400104 + 0x20 * n, 0, 32⟩
def F.HQ_RING_CFG_EN (n : Nat) : Fld := ⟨0x400108 + 0x20 * n, 0, 1⟩
def F.HQ_RING_CFG_LOG2SIZE (n : Nat) : Fld := ⟨0x400108 + 0x20 * n, 1, 5⟩
def F.HQ_RING_CFG_CQ (n : Nat) : Fld := ⟨0x400108 + 0x20 * n, 8, 4⟩
def F.HQ_RING_CFG_VEC_EN (n : Nat) : Fld := ⟨0x400108 + 0x20 * n, 12, 1⟩
def F.HQ_RING_CFG_VEC (n : Nat) : Fld := ⟨0x400108 + 0x20 * n, 13, 7⟩
def F.HQ_RING_CFG_MOD_CNT (n : Nat) : Fld := ⟨0x400108 + 0x20 * n, 20, 8⟩
def F.HQ_RING_MOD_MOD_TMR (n : Nat) : Fld := ⟨0x40010c + 0x20 * n, 0, 16⟩
def F.HQ_RING_STAT_HUB_IDX (n : Nat) : Fld := ⟨0x400110 + 0x20 * n, 0, 16⟩
def F.HQ_RING_STAT_PHASE (n : Nat) : Fld := ⟨0x400110 + 0x20 * n, 16, 1⟩
def F.HQ_RING_STAT_ACTIVE (n : Nat) : Fld := ⟨0x400110 + 0x20 * n, 17, 1⟩
def F.HQ_RING_STAT_STALL (n : Nat) : Fld := ⟨0x400110 + 0x20 * n, 18, 1⟩
def F.HQ_RING_STAT_ERR (n : Nat) : Fld := ⟨0x400110 + 0x20 * n, 19, 1⟩
def F.HQ_RING_CNT_LOST (n : Nat) : Fld := ⟨0x400114 + 0x20 * n, 0, 16⟩
def F.HQ_RING_CNT_STALLS (n : Nat) : Fld := ⟨0x400114 + 0x20 * n, 16, 16⟩
def F.HQ_DB_INDEX (n : Nat) : Fld := ⟨0x410000 + 0x1000 * n, 0, 16⟩
def F.SCH_STAT_NREADY : Fld := ⟨0x500000, 0, 9⟩
def F.SCH_STAT_RUNNING : Fld := ⟨0x500000, 16, 4⟩
def F.SCH_TICKL_TICK : Fld := ⟨0x500008, 0, 32⟩
def F.SCH_TICKH_TICK : Fld := ⟨0x50000c, 0, 32⟩
def F.SCH_CNT_SIG_LOST : Fld := ⟨0x500010, 0, 16⟩
def F.SCH_CNT_TIMEOUTS : Fld := ⟨0x500010, 16, 16⟩
def F.SCH_CORE_CTRL_RUN (c : Nat) : Fld := ⟨0x500020 + 0x4 * c, 0, 1⟩
def F.SCH_CORE_VEC_ADDR (c : Nat) : Fld := ⟨0x500030 + 0x4 * c, 2, 30⟩
def F.SCH_CORE_STAT_RUN_THR (c : Nat) : Fld := ⟨0x500040 + 0x4 * c, 0, 8⟩
def F.SCH_CORE_STAT_RUN_V (c : Nat) : Fld := ⟨0x500040 + 0x4 * c, 8, 1⟩
def F.SCH_CORE_STAT_NEXT_THR (c : Nat) : Fld := ⟨0x500040 + 0x4 * c, 9, 8⟩
def F.SCH_CORE_STAT_NEXT_V (c : Nat) : Fld := ⟨0x500040 + 0x4 * c, 17, 1⟩
def F.SCH_CORE_STAT_HALT (c : Nat) : Fld := ⟨0x500040 + 0x4 * c, 18, 1⟩
def F.SCH_CORE_STAT_LSF (c : Nat) : Fld := ⟨0x500040 + 0x4 * c, 19, 1⟩
def F.SCH_FLOW_NEXT_TICKET (f : Nat) : Fld := ⟨0x500100 + 0x4 * f, 0, 16⟩
def F.SCH_FLOW_OLDEST (f : Nat) : Fld := ⟨0x500100 + 0x4 * f, 16, 16⟩
def F.SCH_FLOW_CNT_ABANDONED (f : Nat) : Fld := ⟨0x500140 + 0x4 * f, 0, 16⟩
def F.SCH_FLOW_CNT_FULL_WAITS (f : Nat) : Fld := ⟨0x500140 + 0x4 * f, 16, 16⟩
def F.SCH_HOP_OP : Fld := ⟨0x500200, 0, 4⟩
def F.SCH_HOP_THREAD : Fld := ⟨0x500200, 8, 8⟩
def F.SCH_HOP_PRIO : Fld := ⟨0x500200, 16, 5⟩
def F.SCH_HOP_FLOW : Fld := ⟨0x500200, 24, 4⟩
def F.SCH_HARG_ARG : Fld := ⟨0x500204, 0, 32⟩
def F.SCH_HRES_REFUSED : Fld := ⟨0x500208, 0, 1⟩
def F.SCH_HRES_BLOCKED : Fld := ⟨0x500208, 1, 1⟩
def F.SCH_HRES_TIMEOUT : Fld := ⟨0x500208, 2, 1⟩
def F.SCH_HRES_LATE : Fld := ⟨0x500208, 3, 1⟩
def F.SCH_HRES_SUSP : Fld := ⟨0x500208, 4, 1⟩
def F.SCH_HRES_TICKET : Fld := ⟨0x500208, 16, 16⟩
def F.SCH_THR_CFG_PRIO (t : Nat) : Fld := ⟨0x501000 + 0x4 * t, 0, 5⟩
def F.SCH_THR_CFG_AFF (t : Nat) : Fld := ⟨0x501000 + 0x4 * t, 8, 4⟩
def F.SCH_THR_STAT_STATE (t : Nat) : Fld := ⟨0x501400 + 0x4 * t, 0, 4⟩
def F.SCH_THR_STAT_PEND (t : Nat) : Fld := ⟨0x501400 + 0x4 * t, 4, 1⟩
def F.SCH_THR_STAT_TIMEOUT (t : Nat) : Fld := ⟨0x501400 + 0x4 * t, 5, 1⟩
def F.SCH_THR_STAT_LATE (t : Nat) : Fld := ⟨0x501400 + 0x4 * t, 6, 1⟩
def F.SCH_THR_STAT_TKV (t : Nat) : Fld := ⟨0x501400 + 0x4 * t, 7, 1⟩
def F.SCH_THR_STAT_FLOW (t : Nat) : Fld := ⟨0x501400 + 0x4 * t, 8, 4⟩
def F.SCH_THR_STAT_TICKET (t : Nat) : Fld := ⟨0x501400 + 0x4 * t, 16, 16⟩
def F.SCH_OP_OP (c : Nat) : Fld := ⟨0x10000000 + 0x1000 * c, 0, 4⟩
def F.SCH_OP_THREAD (c : Nat) : Fld := ⟨0x10000000 + 0x1000 * c, 8, 8⟩
def F.SCH_OP_PRIO (c : Nat) : Fld := ⟨0x10000000 + 0x1000 * c, 16, 5⟩
def F.SCH_OP_FLOW (c : Nat) : Fld := ⟨0x10000000 + 0x1000 * c, 24, 4⟩
def F.SCH_ARG_ARG (c : Nat) : Fld := ⟨0x10000004 + 0x1000 * c, 0, 32⟩
def F.SCH_RES_REFUSED (c : Nat) : Fld := ⟨0x10000008 + 0x1000 * c, 0, 1⟩
def F.SCH_RES_BLOCKED (c : Nat) : Fld := ⟨0x10000008 + 0x1000 * c, 1, 1⟩
def F.SCH_RES_TIMEOUT (c : Nat) : Fld := ⟨0x10000008 + 0x1000 * c, 2, 1⟩
def F.SCH_RES_LATE (c : Nat) : Fld := ⟨0x10000008 + 0x1000 * c, 3, 1⟩
def F.SCH_RES_SUSP (c : Nat) : Fld := ⟨0x10000008 + 0x1000 * c, 4, 1⟩
def F.SCH_RES_TICKET (c : Nat) : Fld := ⟨0x10000008 + 0x1000 * c, 16, 16⟩
def F.SCH_NEXT_THREAD (c : Nat) : Fld := ⟨0x1000000c + 0x1000 * c, 0, 8⟩
def F.SCH_NEXT_VALID (c : Nat) : Fld := ⟨0x1000000c + 0x1000 * c, 8, 1⟩
def F.SCH_SWITCH_THREAD (c : Nat) : Fld := ⟨0x10000010 + 0x1000 * c, 0, 8⟩
def F.SCH_SWITCH_IDLE (c : Nat) : Fld := ⟨0x10000010 + 0x1000 * c, 8, 1⟩
def F.SCH_SELF_THREAD (c : Nat) : Fld := ⟨0x10000014 + 0x1000 * c, 0, 8⟩
def F.SCH_SELF_VALID (c : Nat) : Fld := ⟨0x10000014 + 0x1000 * c, 8, 1⟩
def F.SCH_SELF_CORE (c : Nat) : Fld := ⟨0x10000014 + 0x1000 * c, 9, 2⟩
def F.REC_CTRL_EN : Fld := ⟨0x480000, 0, 1⟩
def F.REC_CTRL_WRAP : Fld := ⟨0x480000, 1, 1⟩
def F.REC_CTRL_DELIV : Fld := ⟨0x480000, 2, 1⟩
def F.REC_CTRL_DRING : Fld := ⟨0x480000, 4, 3⟩
def F.REC_CTRL_RED : Fld := ⟨0x480000, 16, 16⟩
def F.REC_STAT_ARMED : Fld := ⟨0x480004, 0, 1⟩
def F.REC_STAT_POST : Fld := ⟨0x480004, 1, 1⟩
def F.REC_STAT_SEG : Fld := ⟨0x480004, 2, 12⟩
def F.REC_STAT_NFREE : Fld := ⟨0x480004, 16, 13⟩
def F.REC_CMD_TRIG : Fld := ⟨0x480008, 0, 1⟩
def F.REC_CMD_STOP : Fld := ⟨0x480008, 1, 1⟩
def F.REC_CMD_FREE : Fld := ⟨0x480008, 2, 1⟩
def F.REC_CMD_SEG : Fld := ⟨0x480008, 16, 12⟩
def F.REC_ERR_LOST : Fld := ⟨0x48000c, 0, 1⟩
def F.REC_ERR_GAP : Fld := ⟨0x48000c, 1, 1⟩
def F.REC_ERR_CFG_WR : Fld := ⟨0x48000c, 2, 1⟩
def F.REC_ERR_HAREA : Fld := ⟨0x48000c, 3, 1⟩
def F.REC_MEM_BASE : Fld := ⟨0x480010, 0, 9⟩
def F.REC_MEM_SIZE : Fld := ⟨0x480010, 16, 9⟩
def F.REC_SEG_NSEG : Fld := ⟨0x480014, 0, 13⟩
def F.REC_SEGLEN_SEG_LEN : Fld := ⟨0x480018, 0, 24⟩
def F.REC_PP_PRE : Fld := ⟨0x48001c, 0, 16⟩
def F.REC_PP_POST : Fld := ⟨0x48001c, 16, 16⟩
def F.REC_TRG_EN_EN : Fld := ⟨0x480020, 0, 26⟩
def F.REC_TRG_CFG_MINSEV : Fld := ⟨0x480024, 0, 3⟩
def F.REC_TRG_CFG_EDGE (k : Nat) : Fld := ⟨0x480024, 4 + 2 * k, 2⟩
def F.REC_TRG_CFG_FILT : Fld := ⟨0x480024, 16, 8⟩
def F.REC_CNT_TRIGS : Fld := ⟨0x480028, 0, 16⟩
def F.REC_CNT_LOST : Fld := ⟨0x480028, 16, 16⟩
def F.REC_HBASEL_BASE : Fld := ⟨0x480030, 6, 26⟩
def F.REC_HBASEH_BASE : Fld := ⟨0x480034, 0, 32⟩
def F.REC_HSIZE_SIZE : Fld := ⟨0x480038, 6, 26⟩
def F.REC_HOFFS_OFFS : Fld := ⟨0x48003c, 0, 32⟩
def F.REC_TBUS_OUT_SRC (l : Nat) : Fld := ⟨0x480040 + 0x4 * l, 0, 26⟩
def F.CAN_CTRL_INIT (n : Nat) : Fld := ⟨0x4c0000 + 0x1000 * n, 0, 1⟩
def F.CAN_CTRL_RESTR (n : Nat) : Fld := ⟨0x4c0000 + 0x1000 * n, 1, 1⟩
def F.CAN_CTRL_TXRING (n : Nat) : Fld := ⟨0x4c0000 + 0x1000 * n, 2, 1⟩
def F.CAN_CTRL_AUTO_REC (n : Nat) : Fld := ⟨0x4c0000 + 0x1000 * n, 3, 1⟩
def F.CAN_CTRL_RETRY (n : Nat) : Fld := ⟨0x4c0000 + 0x1000 * n, 4, 5⟩
def F.CAN_CTRL_ACC_ALL (n : Nat) : Fld := ⟨0x4c0000 + 0x1000 * n, 9, 1⟩
def F.CAN_STAT_STATE (n : Nat) : Fld := ⟨0x4c0004 + 0x1000 * n, 0, 3⟩
def F.CAN_STAT_URG_FULL (n : Nat) : Fld := ⟨0x4c0004 + 0x1000 * n, 3, 1⟩
def F.CAN_STAT_TXQ_LEVEL (n : Nat) : Fld := ⟨0x4c0004 + 0x1000 * n, 4, 6⟩
def F.CAN_STAT_TEC (n : Nat) : Fld := ⟨0x4c0004 + 0x1000 * n, 16, 8⟩
def F.CAN_STAT_REC (n : Nat) : Fld := ⟨0x4c0004 + 0x1000 * n, 24, 8⟩
def F.CAN_CMD_PUSH (n : Nat) : Fld := ⟨0x4c0008 + 0x1000 * n, 0, 1⟩
def F.CAN_CMD_URGENT (n : Nat) : Fld := ⟨0x4c0008 + 0x1000 * n, 1, 1⟩
def F.CAN_CMD_CANCEL (n : Nat) : Fld := ⟨0x4c0008 + 0x1000 * n, 2, 1⟩
def F.CAN_CMD_CANCEL_URG (n : Nat) : Fld := ⟨0x4c0008 + 0x1000 * n, 3, 1⟩
def F.CAN_CMD_RECOVER (n : Nat) : Fld := ⟨0x4c0008 + 0x1000 * n, 4, 1⟩
def F.CAN_CMD_TAG (n : Nat) : Fld := ⟨0x4c0008 + 0x1000 * n, 16, 16⟩
def F.CAN_ERR_CFG_WR (n : Nat) : Fld := ⟨0x4c000c + 0x1000 * n, 0, 1⟩
def F.CAN_ERR_TXQ_FULL (n : Nat) : Fld := ⟨0x4c000c + 0x1000 * n, 1, 1⟩
def F.CAN_ERR_URG_BUSY (n : Nat) : Fld := ⟨0x4c000c + 0x1000 * n, 2, 1⟩
def F.CAN_ERR_BUSOFF (n : Nat) : Fld := ⟨0x4c000c + 0x1000 * n, 3, 1⟩
def F.CAN_NBT_BRP (n : Nat) : Fld := ⟨0x4c0010 + 0x1000 * n, 0, 6⟩
def F.CAN_NBT_TSEG1 (n : Nat) : Fld := ⟨0x4c0010 + 0x1000 * n, 8, 8⟩
def F.CAN_NBT_TSEG2 (n : Nat) : Fld := ⟨0x4c0010 + 0x1000 * n, 16, 7⟩
def F.CAN_NBT_SJW (n : Nat) : Fld := ⟨0x4c0010 + 0x1000 * n, 24, 7⟩
def F.CAN_NBT_TRIPLE (n : Nat) : Fld := ⟨0x4c0010 + 0x1000 * n, 31, 1⟩
def F.CAN_DBT_BRP (n : Nat) : Fld := ⟨0x4c0014 + 0x1000 * n, 0, 5⟩
def F.CAN_DBT_TSEG1 (n : Nat) : Fld := ⟨0x4c0014 + 0x1000 * n, 8, 5⟩
def F.CAN_DBT_TSEG2 (n : Nat) : Fld := ⟨0x4c0014 + 0x1000 * n, 16, 4⟩
def F.CAN_DBT_SJW (n : Nat) : Fld := ⟨0x4c0014 + 0x1000 * n, 24, 4⟩
def F.CAN_DBT_TDC_EN (n : Nat) : Fld := ⟨0x4c0014 + 0x1000 * n, 28, 1⟩
def F.CAN_TDC_TDCO (n : Nat) : Fld := ⟨0x4c0018 + 0x1000 * n, 0, 7⟩
def F.CAN_TDC_TDCV (n : Nat) : Fld := ⟨0x4c0018 + 0x1000 * n, 16, 8⟩
def F.CAN_CNT_ERRFR (n : Nat) : Fld := ⟨0x4c001c + 0x1000 * n, 0, 12⟩
def F.CAN_CNT_ARBLOST (n : Nat) : Fld := ⟨0x4c001c + 0x1000 * n, 12, 12⟩
def F.CAN_CNT_PEXC (n : Nat) : Fld := ⟨0x4c001c + 0x1000 * n, 24, 8⟩
def F.CAN_TXRES_OUTCOME (n : Nat) : Fld := ⟨0x4c0020 + 0x1000 * n, 0, 4⟩
def F.CAN_TXRES_TAG (n : Nat) : Fld := ⟨0x4c0020 + 0x1000 * n, 16, 16⟩
def F.CAN_TXS_W_VALUE (n n' : Nat) : Fld := ⟨0x4c0040 + 0x1000 * n + 0x4 * n', 0, 32⟩
def F.CAN_FLT_ID (n k : Nat) : Fld := ⟨0x4c0100 + 0x1000 * n + 0x8 * k, 0, 29⟩
def F.CAN_FLT_IDE (n k : Nat) : Fld := ⟨0x4c0100 + 0x1000 * n + 0x8 * k, 29, 1⟩
def F.CAN_FLT_EN (n k : Nat) : Fld := ⟨0x4c0100 + 0x1000 * n + 0x8 * k, 30, 1⟩
def F.CAN_FLTM_MASK (n k : Nat) : Fld := ⟨0x4c0104 + 0x1000 * n + 0x8 * k, 0, 29⟩
def F.CAN_FLTM_TARGET (n k : Nat) : Fld := ⟨0x4c0104 + 0x1000 * n + 0x8 * k, 29, 3⟩
def F.CAN_RXQ_WIN_VALUE (n q w : Nat) : Fld := ⟨0x4c0200 + 0x1000 * n + 0x80 * q + 0x4 * w, 0, 32⟩
def F.CAN_RXQ_CFG_RING (n q : Nat) : Fld := ⟨0x4c0260 + 0x1000 * n + 0x80 * q, 0, 1⟩
def F.CAN_RXQ_STAT_LEVEL (n q : Nat) : Fld := ⟨0x4c0264 + 0x1000 * n + 0x80 * q, 0, 7⟩
def F.CAN_RXQ_STAT_LOST (n q : Nat) : Fld := ⟨0x4c0264 + 0x1000 * n + 0x80 * q, 16, 16⟩
def F.CAN_RXQ_ACK_VALUE (n q : Nat) : Fld := ⟨0x4c0268 + 0x1000 * n + 0x80 * q, 0, 32⟩
def F.CAN_SMB_VALUE (n m w : Nat) : Fld := ⟨0x4c0400 + 0x1000 * n + 0x80 * m + 0x4 * w, 0, 32⟩
def F.CAN_SMB_STAT_NEW (n m : Nat) : Fld := ⟨0x4c0460 + 0x1000 * n + 0x80 * m, 0, 1⟩
def F.CAN_SMB_STAT_LOCKED (n m : Nat) : Fld := ⟨0x4c0460 + 0x1000 * n + 0x80 * m, 1, 1⟩
def F.CAN_SMB_STAT_PEND (n m : Nat) : Fld := ⟨0x4c0460 + 0x1000 * n + 0x80 * m, 2, 1⟩
def F.CAN_SMB_STAT_OVR (n m : Nat) : Fld := ⟨0x4c0460 + 0x1000 * n + 0x80 * m, 16, 16⟩
def F.CAN_SMB_CMD_UNLOCK (n m : Nat) : Fld := ⟨0x4c0464 + 0x1000 * n + 0x80 * m, 0, 1⟩
def F.CLK_AVS_CFG_EN : Fld := ⟨0x10100, 0, 1⟩
def F.CLK_AVS_CFG_ADDR : Fld := ⟨0x10100, 1, 7⟩
def F.CLK_AVS_CFG_TGT : Fld := ⟨0x10100, 8, 8⟩
def F.CLK_AVS_CFG_HYS : Fld := ⟨0x10100, 16, 4⟩
def F.CLK_AVS_CFG_STEP : Fld := ⟨0x10100, 20, 4⟩
def F.CLK_AVS_CFG_PER : Fld := ⟨0x10100, 24, 8⟩
def F.CLK_AVS_STAT_VSET : Fld := ⟨0x10104, 0, 12⟩
def F.CLK_AVS_STAT_VMEAS : Fld := ⟨0x10104, 12, 12⟩
def F.CLK_AVS_STAT_NOREG : Fld := ⟨0x10104, 24, 1⟩
def F.CLK_AVS_STAT_AT_MAX : Fld := ⟨0x10104, 25, 1⟩
def F.CLK_AVS_STAT_AT_MIN : Fld := ⟨0x10104, 26, 1⟩
def F.CLK_AVS_MON_SLACK : Fld := ⟨0x10108, 0, 8⟩
def F.CLK_AVS_MON_CRIT : Fld := ⟨0x10108, 8, 8⟩
def F.CLK_RAIL_STAT_GOOD : Fld := ⟨0x1010c, 0, 7⟩
def F.CLK_RAIL_STAT_SAF : Fld := ⟨0x1010c, 7, 1⟩
def F.CLK_RAIL_STAT_PFAIL_N : Fld := ⟨0x1010c, 8, 1⟩
def F.CLK_TEMP_TEMP : Fld := ⟨0x10110, 0, 8⟩
def F.CLK_TEMP_HI : Fld := ⟨0x10110, 8, 8⟩
def F.CLK_TEMP_MAX : Fld := ⟨0x10110, 16, 8⟩
def F.CLK_RST_CAUSE_POR : Fld := ⟨0x10114, 0, 1⟩
def F.CLK_RST_CAUSE_PIN : Fld := ⟨0x10114, 1, 1⟩
def F.CLK_RST_CAUSE_SOFT : Fld := ⟨0x10114, 2, 1⟩
def F.CLK_RST_CAUSE_THERM : Fld := ⟨0x10114, 3, 1⟩
def F.CLK_RST_CAUSE_SAF : Fld := ⟨0x10114, 4, 1⟩
def F.CLK_RST_CAUSE_PFAIL : Fld := ⟨0x10114, 5, 1⟩
def F.CLK_RST_CMD_CHIP : Fld := ⟨0x10118, 0, 1⟩
def F.CLK_RST_CMD_KEY : Fld := ⟨0x10118, 8, 8⟩
def F.GEN_BOOT_CFG_SLOT : Fld := ⟨0x700, 0, 1⟩
def F.GEN_BOOT_CFG_FALLBACK_EN : Fld := ⟨0x700, 1, 1⟩
def F.GEN_BOOT_STAT_SRC : Fld := ⟨0x704, 0, 1⟩
def F.GEN_BOOT_STAT_SLOT_USED : Fld := ⟨0x704, 1, 1⟩
def F.GEN_BOOT_STAT_VA : Fld := ⟨0x704, 2, 1⟩
def F.GEN_BOOT_STAT_VB : Fld := ⟨0x704, 3, 1⟩
def F.GEN_BOOT_STAT_DONE : Fld := ⟨0x704, 4, 1⟩
def F.GEN_BOOT_STAT_FAIL : Fld := ⟨0x704, 5, 1⟩
def F.GEN_BOOT_STAT_RESULT : Fld := ⟨0x704, 6, 3⟩
def F.GEN_BOOT_STAT_VER : Fld := ⟨0x704, 16, 16⟩
def F.GEN_BOOT_CMD_GO : Fld := ⟨0x708, 0, 1⟩
def F.GEN_BOOT_CMD_KEY : Fld := ⟨0x708, 8, 8⟩
def F.GEN_BOOT_SVN_FUSE_SVN : Fld := ⟨0x70c, 0, 8⟩
def F.GEN_BOOT_SVN_SVN : Fld := ⟨0x70c, 8, 8⟩
def F.GEN_DBG_STAT_OPEN : Fld := ⟨0x740, 0, 1⟩
def F.GEN_DBG_STAT_CHAL_V : Fld := ⟨0x740, 1, 1⟩
def F.GEN_DBG_STAT_BUSY : Fld := ⟨0x740, 2, 1⟩
def F.GEN_DBG_STAT_FAIL : Fld := ⟨0x740, 3, 1⟩
def F.GEN_DBG_STAT_FAILS : Fld := ⟨0x740, 8, 8⟩
def F.GEN_DBG_STAT_SCOPE : Fld := ⟨0x740, 16, 3⟩
def F.GEN_DBG_CMD_CHAL : Fld := ⟨0x744, 0, 1⟩
def F.GEN_DBG_CMD_SUBMIT : Fld := ⟨0x744, 1, 1⟩
def F.GEN_DBG_CMD_CLOSE : Fld := ⟨0x744, 2, 1⟩
def F.GEN_DBG_CMD_KEY : Fld := ⟨0x744, 8, 8⟩
def F.GEN_DBG_CHAL_VALUE (n : Nat) : Fld := ⟨0x760 + 0x4 * n, 0, 32⟩
def F.GEN_DBG_BUF_VALUE (w : Nat) : Fld := ⟨0x800 + 0x4 * w, 0, 32⟩
def F.PRB_STAT_PEND : Fld := ⟨0x580000, 0, 1⟩
def F.PRB_STAT_LEVEL : Fld := ⟨0x580000, 1, 7⟩
def F.PRB_STAT_PFAIL : Fld := ⟨0x580000, 8, 1⟩
def F.PRB_STAT_LOAD_ERR : Fld := ⟨0x580000, 9, 1⟩
def F.PRB_STAT_ERR_WORD : Fld := ⟨0x580000, 12, 12⟩
def F.PRB_DISC_COUNT : Fld := ⟨0x580004, 0, 16⟩
def F.PRB_USER_VALUE (w : Nat) : Fld := ⟨0x584000 + 0x4 * w, 0, 32⟩
def F.EVC_SEL_SRC (n : Nat) : Fld := ⟨0x540000 + 0x4 * n, 0, 9⟩
def F.EVC_SEL_WRAP (n : Nat) : Fld := ⟨0x540000 + 0x4 * n, 31, 1⟩
def F.EVC_CNTL_COUNT_LO (n : Nat) : Fld := ⟨0x540100 + 0x8 * n, 0, 32⟩
def F.EVC_CNTH_COUNT_HI (n : Nat) : Fld := ⟨0x540104 + 0x8 * n, 0, 16⟩
def F.EVC_CTRL_FREEZE : Fld := ⟨0x540300, 0, 1⟩
def F.EVC_SVC_HOLD_HOLD (w k : Nat) : Fld := ⟨0x540400 + 0x4 * w, 2 * k, 2⟩
def F.PRB_WEAR_WRITES (b : Nat) : Fld := ⟨0x580100 + 0x4 * b, 0, 27⟩
def F.PRB_WEAR_WARN (b : Nat) : Fld := ⟨0x580100 + 0x4 * b, 30, 1⟩
def F.PRB_WEAR_RDONLY (b : Nat) : Fld := ⟨0x580100 + 0x4 * b, 31, 1⟩

/-! The rows of the register maps: base, strides and counts, reset value, and the bits of each access code (R9). -/

/-- Architecture (spec/01). The fused unique identity of `GEN_UIDL` and `GEN_UIDH` (R47) has no value in the spec: 0 stands
for it here (DESIGN CHOICE, log entry 5). -/
def rowsGen : List RegRow := [
  ⟨0x0, [], 0xa24b1, 0x0, 0x0, 0x0, 0x0, 0x0, 0xffffff⟩,
  ⟨0x4, [], 0x0, 0x0, 0x0, 0x0, 0x0, 0x0, 0xffffffff⟩,
  ⟨0x8, [], 0x0, 0x0, 0x0, 0x0, 0x0, 0x0, 0xffffffff⟩,
  ⟨0x200, [], 0x0, 0x0, 0x0, 0x0, 0x300, 0x0, 0x377f⟩,
  ⟨0x204, [(0x4, 6)], 0x0, 0x0, 0x0, 0x0, 0x7, 0x0, 0x7⟩,
  ⟨0x220, [(0x4, 4)], 0xffffffff, 0x0, 0x0, 0x0, 0xffffffff, 0x0, 0xffffffff⟩,
  ⟨0x230, [], 0x0, 0x0, 0x0, 0x0, 0x0, 0x0, 0x3fffffff⟩,
  ⟨0x300, [(0x4, 12)], 0x0, 0x0, 0xffffffff, 0x0, 0x0, 0x0, 0xffffffff⟩,
  ⟨0x400, [], 0xc8, 0x0, 0x0, 0x0, 0x7ff, 0x0, 0x7ff⟩,
  ⟨0x404, [], 0x4, 0x0, 0x0, 0x0, 0xf, 0x0, 0xf⟩,
  ⟨0x408, [], 0x0, 0x0, 0x0, 0x0, 0x0, 0x0, 0xffffffff⟩,
  ⟨0x40c, [], 0x0, 0x0, 0x0, 0x0, 0x0, 0x0, 0xffff3f⟩,
  ⟨0x420, [(0x4, 6)], 0x0, 0x0, 0x0, 0x0, 0x0, 0x0, 0x1f1fff⟩,
  ⟨0x500, [(0x4, 32)], 0x0, 0x0, 0x0, 0x0, 0x0, 0x0, 0xfffffff⟩,
  ⟨0x580, [(0x4, 32)], 0x0, 0x0, 0x0, 0x0, 0x0, 0x0, 0x1fff1fff⟩,
  ⟨0x600, [(0x4, 32)], 0x0, 0x0, 0xffff, 0x0, 0x0, 0x0, 0xfffff⟩,
  ⟨0x700, [], 0x2, 0x0, 0x0, 0x0, 0x3, 0x0, 0x3⟩,
  ⟨0x704, [], 0x0, 0x0, 0x0, 0x0, 0x0, 0x0, 0xffff01ff⟩,
  ⟨0x708, [], 0x0, 0x0, 0x0, 0x0, 0x0, 0x0, 0x0⟩,
  ⟨0x70c, [], 0x0, 0x0, 0x0, 0x0, 0x0, 0x0, 0xffff⟩,
  ⟨0x740, [], 0x0, 0x0, 0x0, 0x0, 0x0, 0x0, 0x7ff0f⟩,
  ⟨0x744, [], 0x0, 0x0, 0x0, 0x0, 0x0, 0x0, 0x0⟩,
  ⟨0x760, [(0x4, 8)], 0x0, 0x0, 0x0, 0x0, 0x0, 0x0, 0xffffffff⟩,
  ⟨0x800, [(0x4, 256)], 0x0, 0xffffffff, 0x0, 0x0, 0x0, 0x0, 0xffffffff⟩]

def rowsClk : List RegRow := [
  ⟨0x10000, [], 0x10, 0x1f, 0x0, 0x0, 0x0, 0x0, 0x1f⟩,
  ⟨0x10004, [], 0xf0c0a08, 0x3f3f3f3f, 0x0, 0x0, 0x0, 0x0, 0x3f3f3f3f⟩,
  ⟨0x10008, [], 0x0, 0x0, 0x0, 0x0, 0x0, 0x0, 0x0⟩,
  ⟨0x1000c, [], 0x7, 0x0, 0x0, 0x0, 0x0, 0x0, 0x7f⟩,
  ⟨0x10010, [], 0x0, 0x0, 0x0, 0x1f, 0x0, 0x0, 0x1f⟩,
  ⟨0x10014, [(0x4, 3)], 0x1000008, 0x1fff007f, 0x0, 0x0, 0x0, 0x0, 0x1fff007f⟩,
  ⟨0x10020, [], 0x0, 0x0, 0x0, 0x0, 0x0, 0x0, 0xffffffff⟩,
  ⟨0x10100, [], 0xa242081, 0xffffffff, 0x0, 0x0, 0x0, 0x0, 0xffffffff⟩,
  ⟨0x10104, [], 0x320, 0x0, 0x0, 0x0, 0x0, 0x0, 0x7ffffff⟩,
  ⟨0x10108, [], 0x800, 0xff00, 0x0, 0x0, 0x0, 0x0, 0xffff⟩,
  ⟨0x1010c, [], 0x1ff, 0x0, 0x0, 0x0, 0x0, 0x0, 0x1ff⟩,
  ⟨0x10110, [], 0x7300, 0xff00, 0x0, 0x0, 0x0, 0x0, 0xffffff⟩,
  ⟨0x10114, [], 0x1, 0x0, 0x0, 0x3f, 0x0, 0x0, 0x3f⟩,
  ⟨0x10118, [], 0x0, 0x0, 0x0, 0x0, 0x0, 0x0, 0x0⟩]

def rowsHt0 : List RegRow := [
  ⟨0x20000, [], 0xa00a0, 0xfff07f7, 0x0, 0x0, 0x0, 0x0, 0xfff07f7⟩,
  ⟨0x20004, [], 0xbb81882, 0xffffffff, 0x0, 0x0, 0x0, 0x0, 0xffffffff⟩,
  ⟨0x20008, [], 0x0, 0x0, 0x0, 0x0, 0x0, 0x0, 0x7f⟩,
  ⟨0x2000c, [], 0x0, 0x0, 0x0, 0x0, 0x0, 0x0, 0x0⟩,
  ⟨0x20010, [], 0x0, 0x0, 0x0, 0x0, 0x0, 0x0, 0x0⟩,
  ⟨0x20014, [], 0x0, 0x0, 0x0, 0x0, 0x0, 0x0, 0x0⟩,
  ⟨0x20018, [], 0x0, 0x0, 0x0, 0x0, 0x0, 0x0, 0x0⟩,
  ⟨0x20020, [], 0x0, 0x0, 0x0, 0x0, 0x0, 0x0, 0xffff⟩,
  ⟨0x20024, [], 0x0, 0x0, 0x0, 0x0, 0x0, 0x0, 0x3fffffff⟩,
  ⟨0x20028, [], 0x0, 0x0, 0x0, 0x0, 0x0, 0x0, 0xffffffff⟩,
  ⟨0x2002c, [], 0x0, 0x0, 0x0, 0x0, 0x0, 0x0, 0xffff⟩,
  ⟨0x20030, [], 0x0, 0x0, 0x0, 0x0, 0x0, 0x0, 0xffffffff⟩,
  ⟨0x20034, [], 0x0, 0x0, 0x0, 0x0, 0x0, 0x0, 0xffffffff⟩,
  ⟨0x20040, [], 0x0, 0x0, 0x0, 0x0, 0x0, 0x0, 0xffff⟩,
  ⟨0x20044, [], 0x0, 0x0, 0x0, 0x0, 0x0, 0x0, 0xffffffff⟩,
  ⟨0x20048, [], 0x0, 0x0, 0x0, 0x0, 0x0, 0x0, 0xffffffff⟩,
  ⟨0x20060, [], 0x6400, 0x3ff03, 0x0, 0x0, 0x0, 0x0, 0x3ff03⟩,
  ⟨0x20064, [], 0x0, 0xffffff, 0x0, 0x0, 0x0, 0x0, 0xffffff⟩,
  ⟨0x20068, [], 0x0, 0xffffff, 0x0, 0x0, 0x0, 0x0, 0xffffff⟩,
  ⟨0x2006c, [], 0x0, 0x0, 0x0, 0x0, 0x0, 0x0, 0xffffffff⟩,
  ⟨0x20100, [(0x40, 2)], 0x0, 0x7, 0x0, 0x0, 0x0, 0x0, 0x7⟩,
  ⟨0x20104, [(0x40, 2)], 0x0, 0xffffff, 0x0, 0x0, 0x0, 0x0, 0xffffff⟩,
  ⟨0x20108, [(0x40, 2)], 0x0, 0xffffff, 0x0, 0x0, 0x0, 0x0, 0xffffff⟩,
  ⟨0x2010c, [(0x40, 2)], 0x0, 0x0, 0x0, 0x0, 0x0, 0x0, 0x1ffff⟩]

def rowsHt1 : List RegRow := [
  ⟨0x20110, [(0x40, 2)], 0x0, 0x0, 0x0, 0x0, 0x0, 0x0, 0xffff⟩,
  ⟨0x20114, [(0x40, 2)], 0x0, 0x0, 0x0, 0x0, 0x0, 0x0, 0x3fffffff⟩,
  ⟨0x20118, [(0x40, 2)], 0x0, 0x0, 0x0, 0x0, 0x0, 0x0, 0xffffffff⟩,
  ⟨0x2011c, [(0x40, 2)], 0x0, 0x0, 0x0, 0x0, 0x0, 0x0, 0xffff⟩,
  ⟨0x20120, [(0x40, 2)], 0x0, 0x0, 0xffff0000, 0x100, 0x0, 0x0, 0xffff011f⟩,
  ⟨0x20200, [(0x4, 32)], 0x0, 0x0, 0x0, 0x0, 0x0, 0x0, 0x1ffff⟩,
  ⟨0x20280, [(0x4, 32)], 0x0, 0x0, 0x0, 0x0, 0x0, 0x0, 0xffffff⟩]

def rowsHt : List RegRow := rowsHt0 ++ rowsHt1

def rowsMi : List RegRow := [
  ⟨0x40000, [], 0x32, 0x0, 0x0, 0x0, 0xff, 0x0, 0xff⟩,
  ⟨0x40004, [], 0x0, 0x0, 0x0, 0x0, 0x0, 0x0, 0xffff⟩,
  ⟨0x40008, [], 0x0, 0x0, 0x0, 0x0, 0x0, 0x0, 0x0⟩,
  ⟨0x4000c, [], 0x0, 0x0, 0x0, 0xffffffff, 0x0, 0x0, 0xffffffff⟩,
  ⟨0x40100, [(0x40, 16)], 0x0, 0x0, 0x0, 0x0, 0xfff, 0x0, 0xfff⟩,
  ⟨0x40104, [(0x40, 16)], 0x3f800000, 0x0, 0x0, 0x0, 0xffffffff, 0x0, 0xffffffff⟩,
  ⟨0x40108, [(0x40, 16)], 0x0, 0x0, 0x0, 0x0, 0xffffff, 0x0, 0xffffff⟩,
  ⟨0x4010c, [(0x40, 16)], 0x0, 0x0, 0x0, 0x0, 0x7f, 0x0, 0x7f⟩,
  ⟨0x40110, [(0x40, 16)], 0x7fffff, 0x0, 0x0, 0x0, 0xffffff, 0x0, 0xffffff⟩,
  ⟨0x40114, [(0x40, 16)], 0x800001, 0x0, 0x0, 0x0, 0xffffff, 0x0, 0xffffff⟩,
  ⟨0x40118, [(0x40, 16)], 0x4000000, 0x0, 0x0, 0x0, 0x0, 0x0, 0xffffffff⟩,
  ⟨0x4011c, [(0x40, 16)], 0x4000000, 0x0, 0x0, 0x0, 0x0, 0x0, 0xffffffff⟩,
  ⟨0x40120, [(0x40, 16)], 0x4000000, 0x0, 0x0, 0x0, 0x0, 0x0, 0xffffffff⟩,
  ⟨0x40124, [(0x40, 16)], 0x4000000, 0x0, 0x0, 0x0, 0x0, 0x0, 0xffffffff⟩,
  ⟨0x40128, [(0x40, 16)], 0x0, 0x0, 0x0, 0x0, 0x0, 0x0, 0xff001f⟩]

def rowsAce0 : List RegRow := [
  ⟨0x80000, [], 0x0, 0x0, 0x0, 0x0, 0x0, 0x0, 0xffff0003⟩,
  ⟨0x80004, [], 0x0, 0x0, 0x0, 0x0, 0x0, 0x0, 0x0⟩,
  ⟨0x80008, [], 0x0, 0x0, 0x0, 0x4, 0x0, 0x0, 0x7fffff7⟩,
  ⟨0x8000c, [], 0x0, 0x0, 0x0, 0x1, 0x0, 0x0, 0xffffff03⟩,
  ⟨0x80010, [], 0x0, 0xffffffff, 0x0, 0x0, 0x0, 0x0, 0xffffffff⟩,
  ⟨0x80014, [], 0x0, 0xffffffff, 0x0, 0x0, 0x0, 0x0, 0xffffffff⟩,
  ⟨0x80040, [(0x10, 6)], 0x0, 0xfff, 0x0, 0x0, 0x0, 0x0, 0xfff⟩,
  ⟨0x80044, [(0x10, 6)], 0x0, 0x0, 0x0, 0x0, 0x0, 0x0, 0x1fffffff⟩,
  ⟨0x80048, [(0x10, 6)], 0x0, 0x0, 0x0, 0x0, 0x0, 0x0, 0xfff⟩,
  ⟨0x8004c, [(0x10, 6)], 0x0, 0x0, 0x0, 0x0, 0x0, 0x0, 0xffffffff⟩,
  ⟨0x80100, [(0x4, 32)], 0x0, 0xffffffff, 0x0, 0x0, 0x0, 0x0, 0xffffffff⟩,
  ⟨0x80200, [(0x40, 8)], 0x0, 0x83ff03ff, 0x0, 0x0, 0x0, 0x0, 0x83ff03ff⟩,
  ⟨0x80204, [(0x40, 8)], 0x0, 0x3fffffff, 0x0, 0x0, 0x0, 0x0, 0x3fffffff⟩,
  ⟨0x80208, [(0x40, 8)], 0x0, 0x3ffff, 0x0, 0x0, 0x0, 0x0, 0x3ffff⟩,
  ⟨0x8020c, [(0x40, 8)], 0x0, 0xffffffff, 0x0, 0x0, 0x0, 0x0, 0xffffffff⟩,
  ⟨0x80210, [(0x40, 8)], 0x0, 0xffffffff, 0x0, 0x0, 0x0, 0x0, 0xffffffff⟩,
  ⟨0x80214, [(0x40, 8), (0x4, 3)], 0x7f800000, 0xffffffff, 0x0, 0x0, 0x0, 0x0, 0xffffffff⟩,
  ⟨0x80220, [(0x40, 8), (0x4, 3)], 0x7f800000, 0xffffffff, 0x0, 0x0, 0x0, 0x0, 0xffffffff⟩,
  ⟨0x8022c, [(0x40, 8)], 0x0, 0x0, 0x0, 0x0, 0x0, 0x0, 0xffff0fff⟩,
  ⟨0x80400, [(0x4, 4)], 0x0, 0xffffffff, 0x0, 0x0, 0x0, 0x0, 0xffffffff⟩,
  ⟨0x80410, [], 0x0, 0x0, 0x0, 0x0, 0x0, 0x0, 0x0⟩,
  ⟨0x80414, [], 0x0, 0x0, 0x0, 0x0, 0x0, 0x0, 0xff⟩,
  ⟨0x80500, [], 0x0, 0xffffffff, 0x0, 0x0, 0x0, 0x0, 0xffffffff⟩,
  ⟨0x80504, [], 0x0, 0x0, 0x0, 0x0, 0x0, 0x0, 0x0⟩]

def rowsAce1 : List RegRow := [
  ⟨0x80508, [], 0x0, 0x0, 0x0, 0x0, 0x0, 0x0, 0x1f⟩,
  ⟨0x8050c, [], 0x0, 0xffffffff, 0x0, 0x0, 0x0, 0x0, 0xffffffff⟩,
  ⟨0x80510, [], 0x0, 0xffffffff, 0x0, 0x0, 0x0, 0x0, 0xffffffff⟩,
  ⟨0x80514, [], 0x0, 0xffffffff, 0x0, 0x0, 0x0, 0x0, 0xffffffff⟩,
  ⟨0x80518, [], 0x0, 0xffffffff, 0x0, 0x0, 0x0, 0x0, 0xffffffff⟩,
  ⟨0x8051c, [], 0x40, 0x1ffff, 0x0, 0x0, 0x0, 0x0, 0x1ffff⟩,
  ⟨0x80580, [(0x4, 16)], 0x0, 0xffffffff, 0x0, 0x0, 0x0, 0x0, 0xffffffff⟩,
  ⟨0x805c0, [(0x4, 16)], 0x0, 0xffffffff, 0x0, 0x0, 0x0, 0x0, 0xffffffff⟩,
  ⟨0x80600, [], 0x0, 0xff03ff, 0x0, 0x0, 0x0, 0x0, 0xff03ff⟩,
  ⟨0x80604, [], 0x0, 0x0, 0x0, 0x0, 0x0, 0x0, 0x0⟩,
  ⟨0x80608, [], 0x0, 0x0, 0x0, 0x0, 0x0, 0x0, 0xffff000f⟩,
  ⟨0x8060c, [], 0x0, 0xffe00000, 0x0, 0x0, 0x0, 0x0, 0xffe00000⟩,
  ⟨0x80610, [], 0x0, 0x0, 0x0, 0x0, 0x0, 0x0, 0xffffffff⟩,
  ⟨0x80614, [], 0x10000, 0x1ffff, 0x0, 0x0, 0x0, 0x0, 0x1ffff⟩,
  ⟨0x80618, [], 0x0, 0x0, 0x0, 0x0, 0x0, 0x0, 0x1ffff⟩,
  ⟨0x80700, [(0x20, 16)], 0x0, 0x1ffffff, 0x0, 0x0, 0x0, 0x0, 0x1ffffff⟩,
  ⟨0x80704, [(0x20, 16)], 0x0, 0x0, 0x0, 0x0, 0x0, 0x0, 0xffffffff⟩,
  ⟨0x80708, [(0x20, 16)], 0x0, 0x0, 0x0, 0x0, 0x0, 0x0, 0xffffffff⟩,
  ⟨0x8070c, [(0x20, 16)], 0x0, 0x0, 0x0, 0x0, 0x0, 0x0, 0xffffffff⟩,
  ⟨0x80710, [(0x20, 16)], 0x0, 0x0, 0x0, 0x0, 0x0, 0x0, 0xffffffff⟩,
  ⟨0x80714, [(0x20, 16)], 0x0, 0x0, 0x0, 0x0, 0x0, 0x0, 0xffffffff⟩,
  ⟨0x80718, [(0x20, 16)], 0x0, 0x0, 0x0, 0x0, 0x0, 0x0, 0xffffffff⟩,
  ⟨0x81000, [(0x4, 256)], 0x0, 0x0, 0x0, 0x0, 0x0, 0x0, 0xffffffff⟩]

def rowsAce : List RegRow := rowsAce0 ++ rowsAce1

def rowsGal : List RegRow := [
  ⟨0x100000, [], 0xc8100032, 0xff1f03ff, 0x0, 0x0, 0x0, 0x0, 0xff1f03ff⟩,
  ⟨0x100004, [], 0x0, 0x0, 0x0, 0x0, 0x0, 0x0, 0x1ff01ff⟩,
  ⟨0x100008, [], 0x38d1b717, 0xffffffff, 0x0, 0x0, 0x0, 0x0, 0xffffffff⟩,
  ⟨0x10000c, [], 0x50ccd14, 0x3fffff1f, 0x0, 0x0, 0x0, 0x0, 0x3fffff1f⟩,
  ⟨0x100100, [(0x40, 6)], 0x1110, 0x3fff, 0x0, 0x0, 0x0, 0x0, 0x3fff⟩,
  ⟨0x100104, [(0x40, 6)], 0x3dcccccd, 0xffffffff, 0x0, 0x0, 0x0, 0x0, 0xffffffff⟩,
  ⟨0x100108, [(0x40, 6)], 0x0, 0xffffffff, 0x0, 0x0, 0x0, 0x0, 0xffffffff⟩,
  ⟨0x10010c, [(0x40, 6)], 0xc00, 0xffff0fff, 0x0, 0x0, 0x0, 0x0, 0xffff0fff⟩,
  ⟨0x100110, [(0x40, 6)], 0x0, 0xffffffff, 0x0, 0x0, 0x0, 0x0, 0xffffffff⟩,
  ⟨0x100114, [(0x40, 6)], 0x10040000, 0x1f0fffff, 0x0, 0x0, 0x0, 0x0, 0x1f0fffff⟩,
  ⟨0x100118, [(0x40, 6)], 0x0, 0x0, 0x0, 0x0, 0x0, 0x0, 0xffffffff⟩,
  ⟨0x10011c, [(0x40, 6)], 0x0, 0x0, 0x0, 0x0, 0x0, 0x0, 0x7ff07ff⟩,
  ⟨0x100120, [(0x40, 6)], 0x0, 0x0, 0x0, 0x0, 0x0, 0x0, 0xffffffff⟩,
  ⟨0x100124, [(0x40, 6)], 0x0, 0x0, 0x0, 0x0, 0x0, 0x0, 0x7ffffff⟩,
  ⟨0x100128, [(0x40, 6)], 0x0, 0x0, 0x0, 0x0, 0x0, 0x0, 0xffffffff⟩,
  ⟨0x10012c, [(0x40, 6)], 0x0, 0x0, 0xffffffff, 0x0, 0x0, 0x0, 0xffffffff⟩,
  ⟨0x100130, [(0x40, 6)], 0x0, 0x0, 0x0, 0x0, 0x0, 0x0, 0x87ff07ff⟩,
  ⟨0x100134, [(0x40, 6)], 0x0, 0x0, 0x0, 0x0, 0x0, 0x0, 0xffffffff⟩]

def rowsGalCell : List RegRow := [
  ⟨0x110000, [(0x40, 1024)], 0x0, 0xffff0003, 0x0, 0x0, 0x0, 0x0, 0xffff0003⟩,
  ⟨0x110004, [(0x40, 1024)], 0x0, 0x0, 0x0, 0x0, 0x0, 0x0, 0xffcf03ff⟩,
  ⟨0x110008, [(0x40, 1024)], 0x0, 0x0, 0x0, 0x0, 0x0, 0x0, 0xffffffff⟩,
  ⟨0x11000c, [(0x40, 1024)], 0x0, 0x0, 0x0, 0x0, 0x0, 0x0, 0xffffff⟩,
  ⟨0x110010, [(0x40, 1024)], 0x0, 0x0, 0x0, 0x0, 0x0, 0x0, 0xffff⟩,
  ⟨0x110014, [(0x40, 1024)], 0x0, 0x0, 0x0, 0x0, 0x0, 0x0, 0xffffffff⟩,
  ⟨0x110018, [(0x40, 1024)], 0x0, 0x0, 0x0, 0x0, 0x0, 0x0, 0xffffffff⟩,
  ⟨0x11001c, [(0x40, 1024)], 0x0, 0x0, 0x0, 0x0, 0x0, 0x0, 0xffffffff⟩,
  ⟨0x110020, [(0x40, 1024)], 0x0, 0xffffffff, 0x0, 0x0, 0x0, 0x0, 0xffffffff⟩,
  ⟨0x110024, [(0x40, 1024)], 0x0, 0xffffffff, 0x0, 0x0, 0x0, 0x0, 0xffffffff⟩,
  ⟨0x110028, [(0x40, 1024)], 0x0, 0xffffffff, 0x0, 0x0, 0x0, 0x0, 0xffffffff⟩]

def rowsRp : List RegRow := [
  ⟨0x200000, [(0x1000, 32)], 0x27, 0xff, 0x0, 0x0, 0x0, 0x0, 0xff⟩,
  ⟨0x200004, [(0x1000, 32)], 0x0, 0x0, 0x0, 0x0, 0x0, 0x0, 0x0⟩,
  ⟨0x200008, [(0x1000, 32)], 0x0, 0x0, 0x0, 0x0, 0x0, 0x0, 0x3fffffff⟩,
  ⟨0x20000c, [(0x1000, 32)], 0x0, 0x0, 0x0, 0x3ff, 0x0, 0x0, 0x3ff⟩,
  ⟨0x200010, [(0x1000, 32)], 0x0, 0x0, 0x0, 0x0, 0x0, 0x0, 0xffffffff⟩,
  ⟨0x200014, [(0x1000, 32)], 0x0, 0x0, 0x0, 0x0, 0x0, 0x0, 0xffffffff⟩,
  ⟨0x200018, [(0x1000, 32)], 0x0, 0x0, 0x0, 0x0, 0x0, 0x0, 0xffffffff⟩,
  ⟨0x20001c, [(0x1000, 32)], 0x0, 0x0, 0x0, 0x0, 0x0, 0x0, 0xffffffff⟩,
  ⟨0x200020, [(0x1000, 32)], 0x0, 0x0, 0x0, 0x0, 0x0, 0x0, 0x0⟩,
  ⟨0x200024, [(0x1000, 32)], 0x0, 0x0, 0xffff0000, 0x0, 0x0, 0x0, 0xffff1fff⟩,
  ⟨0x200028, [(0x1000, 32)], 0x0, 0x0, 0x0, 0x0, 0x0, 0x0, 0xfff0fff⟩,
  ⟨0x200030, [(0x1000, 32)], 0x0, 0x0, 0xffffffff, 0x0, 0x0, 0x0, 0xffffffff⟩,
  ⟨0x200034, [(0x1000, 32)], 0x0, 0x0, 0xffffffff, 0x0, 0x0, 0x0, 0xffffffff⟩,
  ⟨0x200038, [(0x1000, 32)], 0x0, 0x0, 0xffffffff, 0x0, 0x0, 0x0, 0xffffffff⟩,
  ⟨0x200040, [(0x1000, 32)], 0x0, 0x0, 0x0, 0x0, 0x0, 0x0, 0xbf3f3f1f⟩,
  ⟨0x200400, [(0x1000, 32), (0x20, 32)], 0x0, 0x0, 0x0, 0x0, 0x0, 0x0, 0xffffffff⟩,
  ⟨0x200404, [(0x1000, 32), (0x20, 32)], 0x0, 0x0, 0x0, 0x0, 0x0, 0x0, 0xffffffff⟩,
  ⟨0x200408, [(0x1000, 32), (0x20, 32)], 0x0, 0x0, 0x0, 0x0, 0x0, 0x0, 0xffffffff⟩,
  ⟨0x20040c, [(0x1000, 32), (0x20, 32)], 0x0, 0x0, 0x0, 0x0, 0x0, 0x0, 0xffffffff⟩,
  ⟨0x200410, [(0x1000, 32), (0x20, 32)], 0x0, 0x0, 0x0, 0x0, 0x0, 0x0, 0xffffffff⟩,
  ⟨0x200414, [(0x1000, 32), (0x20, 32)], 0x0, 0x0, 0x0, 0x0, 0x0, 0x0, 0x3fff⟩,
  ⟨0x200418, [(0x1000, 32), (0x20, 32)], 0x0, 0x0, 0xffffffff, 0x0, 0x0, 0x0, 0xffffffff⟩]

def rowsStk : List RegRow := [
  ⟨0x300000, [], 0xa0000, 0xff0000, 0x0, 0x0, 0x0, 0x0, 0xff0000⟩,
  ⟨0x300004, [], 0x0, 0x0, 0x0, 0x0, 0x0, 0x0, 0xfff⟩,
  ⟨0x300008, [], 0x0, 0x0, 0x0, 0x0, 0x0, 0x0, 0x0⟩,
  ⟨0x30000c, [], 0x0, 0x0, 0x0, 0x7, 0x0, 0x0, 0x7⟩,
  ⟨0x300010, [], 0x0, 0x0, 0x0, 0x0, 0x0, 0x0, 0xffffffff⟩,
  ⟨0x300020, [], 0x464, 0x0, 0x0, 0x0, 0x7ff, 0x0, 0x7ff⟩,
  ⟨0x300024, [], 0x0, 0x0, 0x0, 0x0, 0x0, 0x0, 0x7f00ff⟩,
  ⟨0x300028, [], 0x0, 0x0, 0x0, 0x0, 0x0, 0x0, 0xffff⟩,
  ⟨0x30002c, [], 0x0, 0x0, 0x0, 0x0, 0x0, 0x0, 0xffffffff⟩,
  ⟨0x300030, [], 0x0, 0x0, 0x0, 0x0, 0x0, 0x0, 0xffffffff⟩,
  ⟨0x300034, [], 0x0, 0x0, 0xffffffff, 0x0, 0x0, 0x0, 0xffffffff⟩,
  ⟨0x300038, [], 0x0, 0x0, 0x0, 0x0, 0x0, 0x0, 0x1ffffff⟩,
  ⟨0x300040, [(0x4, 6)], 0x1f41000, 0x3fff3f81, 0x0, 0x0, 0x0, 0x0, 0x3fff3f81⟩,
  ⟨0x300060, [], 0x0, 0x0, 0x0, 0x0, 0x0, 0x0, 0x1ffff⟩,
  ⟨0x300064, [], 0x0, 0x0, 0x0, 0x0, 0xffff, 0x0, 0xffff⟩,
  ⟨0x300068, [], 0x0, 0x0, 0x0, 0x0, 0xffff, 0x0, 0xffff⟩,
  ⟨0x300070, [], 0x0, 0x0, 0x0, 0x0, 0x0, 0x0, 0xff⟩,
  ⟨0x300074, [], 0x0, 0x0, 0xffffffff, 0x0, 0x0, 0x0, 0xffffffff⟩,
  ⟨0x300080, [(0x4, 16)], 0x0, 0x0, 0x0, 0x0, 0x0, 0x0, 0xfff⟩,
  ⟨0x3000c0, [(0x4, 16)], 0x0, 0x0, 0x0, 0x0, 0x0, 0x0, 0xfff⟩,
  ⟨0x300100, [(0x4, 4)], 0x0, 0xffffffff, 0x0, 0x0, 0x0, 0x0, 0xffffffff⟩,
  ⟨0x300110, [], 0x1, 0xff, 0x0, 0x0, 0x0, 0x0, 0xff⟩,
  ⟨0x300114, [], 0x0, 0x0, 0x0, 0x0, 0x0, 0x0, 0xffff⟩,
  ⟨0x300200, [(0x10, 16), (0x4, 4)], 0x0, 0x0, 0x0, 0x0, 0x0, 0x0, 0xffffffff⟩]

def rowsSaf : List RegRow := [
  ⟨0x380000, [], 0x102, 0x0, 0x0, 0x0, 0x0, 0x0, 0xffffffff⟩,
  ⟨0x380004, [], 0x0, 0x0, 0x0, 0x0, 0x0, 0x0, 0x100⟩,
  ⟨0x380008, [], 0x4, 0x0, 0x0, 0x0, 0x0, 0x0, 0xff⟩,
  ⟨0x38000c, [], 0x0, 0x0, 0x0, 0x0, 0x0, 0x0, 0x0⟩,
  ⟨0x380010, [], 0x0, 0x0, 0x0, 0xffff, 0x0, 0x0, 0xffff⟩,
  ⟨0x380014, [], 0x0, 0x0, 0x0, 0x0, 0x0, 0xffffffff, 0xffffffff⟩,
  ⟨0x380018, [], 0x0, 0x0, 0x0, 0x0, 0x0, 0x0, 0xffffffff⟩,
  ⟨0x38001c, [], 0x0, 0x0, 0xffffffff, 0x0, 0x0, 0x0, 0xffffffff⟩,
  ⟨0x380020, [], 0x1238e4, 0x0, 0x0, 0x0, 0x0, 0x1fffff, 0x1fffff⟩,
  ⟨0x380024, [], 0x6db6db, 0x0, 0x0, 0x0, 0x0, 0xffffff, 0xffffff⟩,
  ⟨0x380040, [(0x4, 8)], 0x0, 0x0, 0x0, 0x0, 0x0, 0x7ffffff, 0x7ffffff⟩,
  ⟨0x380060, [], 0x0, 0x0, 0x0, 0x0, 0x0, 0x0, 0xffffffff⟩,
  ⟨0x380080, [(0x4, 4)], 0x0, 0x0, 0x0, 0x0, 0x0, 0x1ffffff, 0x1ffffff⟩,
  ⟨0x380090, [], 0x0, 0x0, 0x0, 0x0, 0x0, 0x0, 0xffff00ff⟩,
  ⟨0x3800a0, [(0x4, 8)], 0x0, 0x0, 0x0, 0x0, 0x0, 0xfffff, 0xfffff⟩,
  ⟨0x3800c0, [(0x4, 8)], 0x0, 0x0, 0x0, 0x0, 0x0, 0x0, 0x1ffff⟩,
  ⟨0x380100, [(0x4, 6)], 0x0, 0x0, 0x0, 0x0, 0x0, 0x7fffff, 0x7fffff⟩,
  ⟨0x380120, [], 0x0, 0x0, 0x0, 0x0, 0x0, 0x3fffff7, 0x3fffff7⟩,
  ⟨0x380124, [], 0x0, 0x0, 0x0, 0x0, 0x0, 0xffffffff, 0xffffffff⟩,
  ⟨0x380128, [], 0x0, 0x0, 0x0, 0x0, 0x0, 0x3ffff, 0x3ffff⟩,
  ⟨0x38012c, [], 0x0, 0x0, 0x0, 0x0, 0x0, 0x3fffff1f, 0x3fffff1f⟩,
  ⟨0x380130, [], 0x0, 0x0, 0x0, 0x0, 0x0, 0x0, 0xffffffff⟩,
  ⟨0x380134, [], 0x0, 0x0, 0x0, 0x0, 0x0, 0x0, 0xffffffff⟩]

def rowsFlt : List RegRow := [
  ⟨0x3c0000, [], 0xf, 0xf, 0x0, 0x0, 0x0, 0x0, 0xf⟩,
  ⟨0x3c0004, [], 0x0, 0x0, 0x0, 0x0, 0x0, 0x0, 0x1ff⟩,
  ⟨0x3c0008, [], 0x0, 0x0, 0xffffffff, 0x0, 0x0, 0x0, 0xffffffff⟩,
  ⟨0x3c000c, [], 0x0, 0x0, 0x0, 0x1, 0x0, 0x0, 0x1⟩,
  ⟨0x3c0010, [], 0x0, 0x0, 0x0, 0x0, 0x0, 0x0, 0xffffff⟩,
  ⟨0x3c0014, [], 0x0, 0x0, 0x0, 0x0, 0x0, 0x0, 0xffffffff⟩,
  ⟨0x3c0040, [(0x4, 17)], 0x0, 0x0, 0x0, 0xffffffff, 0x0, 0x0, 0xffffffff⟩,
  ⟨0x3c00c0, [(0x4, 17)], 0x0, 0x0, 0x0, 0x0, 0x0, 0x0, 0xffffffff⟩,
  ⟨0x3c1000, [(0x4, 544)], 0x0, 0x0, 0xffff0000, 0x0, 0x7, 0x0, 0xffff0f77⟩,
  ⟨0x3c2000, [(0x4, 1024)], 0x0, 0x0, 0x0, 0x3fffff, 0x0, 0x0, 0x803fffff⟩,
  ⟨0x3c3000, [(0x10, 48)], 0x0, 0x0, 0x0, 0x0, 0x0, 0x0, 0xffffffff⟩,
  ⟨0x3c3004, [(0x10, 48)], 0x0, 0x0, 0x0, 0x0, 0x0, 0x0, 0xffffffff⟩,
  ⟨0x3c3008, [(0x10, 48)], 0x0, 0xff, 0x0, 0x0, 0x0, 0x0, 0xff⟩,
  ⟨0x3c300c, [(0x10, 48)], 0x800, 0x0, 0xffff0000, 0x1000, 0x0, 0x0, 0xffff1fff⟩]

def rowsHq : List RegRow := [
  ⟨0x400000, [], 0x0, 0x1, 0x0, 0x0, 0x0, 0x0, 0x1⟩,
  ⟨0x400004, [], 0x0, 0x0, 0x0, 0x0, 0x0, 0x0, 0x1fff⟩,
  ⟨0x400008, [], 0x0, 0x0, 0x0, 0x7f, 0x0, 0x0, 0x7f⟩,
  ⟨0x40000c, [], 0x0, 0x1f1fff, 0x0, 0x0, 0x0, 0x0, 0x1f1fff⟩,
  ⟨0x400010, [], 0x0, 0xff, 0x0, 0x0, 0x0, 0x0, 0xff⟩,
  ⟨0x400014, [], 0x0, 0x0, 0xffffffff, 0x0, 0x0, 0x0, 0xffffffff⟩,
  ⟨0x400020, [(0x4, 6)], 0x4000, 0x0, 0x0, 0x0, 0x0, 0x0, 0x7fff⟩,
  ⟨0x400040, [(0x10, 2)], 0x0, 0xf, 0x0, 0x0, 0x0, 0x0, 0xf⟩,
  ⟨0x400044, [(0x10, 2)], 0x0, 0xffffffff, 0x0, 0x0, 0x0, 0x0, 0xffffffff⟩,
  ⟨0x400048, [(0x10, 2)], 0x0, 0xffff, 0x0, 0x0, 0x0, 0x0, 0xffff⟩,
  ⟨0x40004c, [(0x10, 2)], 0x0, 0x0, 0x0, 0x0, 0x0, 0x0, 0x1⟩,
  ⟨0x400100, [(0x20, 64)], 0x0, 0xfffff000, 0x0, 0x0, 0x0, 0x0, 0xfffff000⟩,
  ⟨0x400104, [(0x20, 64)], 0x0, 0xffffffff, 0x0, 0x0, 0x0, 0x0, 0xffffffff⟩,
  ⟨0x400108, [(0x20, 64)], 0x10000c, 0xfffff3f, 0x0, 0x0, 0x0, 0x0, 0xfffff3f⟩,
  ⟨0x40010c, [(0x20, 64)], 0x0, 0xffff, 0x0, 0x0, 0x0, 0x0, 0xffff⟩,
  ⟨0x400110, [(0x20, 64)], 0x10000, 0x0, 0x0, 0x0, 0x0, 0x0, 0xfffff⟩,
  ⟨0x400114, [(0x20, 64)], 0x0, 0x0, 0xffffffff, 0x0, 0x0, 0x0, 0xffffffff⟩]

def rowsHqDb : List RegRow := [
  ⟨0x410000, [(0x1000, 64)], 0x0, 0x0, 0x0, 0x0, 0x0, 0x0, 0x0⟩]

def rowsRec : List RegRow := [
  ⟨0x480000, [], 0x0, 0xffff0077, 0x0, 0x0, 0x0, 0x0, 0xffff0077⟩,
  ⟨0x480004, [], 0x0, 0x0, 0x0, 0x0, 0x0, 0x0, 0x1fff3fff⟩,
  ⟨0x480008, [], 0x0, 0x0, 0x0, 0x0, 0x0, 0x0, 0x0⟩,
  ⟨0x48000c, [], 0x0, 0x0, 0x0, 0xf, 0x0, 0x0, 0xf⟩,
  ⟨0x480010, [], 0x0, 0x1ff01ff, 0x0, 0x0, 0x0, 0x0, 0x1ff01ff⟩,
  ⟨0x480014, [], 0x1, 0x1fff, 0x0, 0x0, 0x0, 0x0, 0x1fff⟩,
  ⟨0x480018, [], 0x0, 0x0, 0x0, 0x0, 0x0, 0x0, 0xffffff⟩,
  ⟨0x48001c, [], 0x0, 0xffffffff, 0x0, 0x0, 0x0, 0x0, 0xffffffff⟩,
  ⟨0x480020, [], 0x0, 0x3ffffff, 0x0, 0x0, 0x0, 0x0, 0x3ffffff⟩,
  ⟨0x480024, [], 0x0, 0xff0ff7, 0x0, 0x0, 0x0, 0x0, 0xff0ff7⟩,
  ⟨0x480028, [], 0x0, 0x0, 0xffffffff, 0x0, 0x0, 0x0, 0xffffffff⟩,
  ⟨0x480030, [], 0x0, 0xffffffc0, 0x0, 0x0, 0x0, 0x0, 0xffffffc0⟩,
  ⟨0x480034, [], 0x0, 0xffffffff, 0x0, 0x0, 0x0, 0x0, 0xffffffff⟩,
  ⟨0x480038, [], 0x0, 0xffffffc0, 0x0, 0x0, 0x0, 0x0, 0xffffffc0⟩,
  ⟨0x48003c, [], 0x0, 0x0, 0x0, 0x0, 0x0, 0x0, 0xffffffff⟩,
  ⟨0x480040, [(0x4, 4)], 0x0, 0x3ffffff, 0x0, 0x0, 0x0, 0x0, 0x3ffffff⟩]

def rowsCan : List RegRow := [
  ⟨0x4c0000, [(0x1000, 2)], 0x9, 0x3ff, 0x0, 0x0, 0x0, 0x0, 0x3ff⟩,
  ⟨0x4c0004, [(0x1000, 2)], 0x0, 0x0, 0x0, 0x0, 0x0, 0x0, 0xffff03ff⟩,
  ⟨0x4c0008, [(0x1000, 2)], 0x0, 0x0, 0x0, 0x0, 0x0, 0x0, 0x0⟩,
  ⟨0x4c000c, [(0x1000, 2)], 0x0, 0x0, 0x0, 0xf, 0x0, 0x0, 0xf⟩,
  ⟨0x4c0010, [(0x1000, 2)], 0x3131c601, 0xff7fff3f, 0x0, 0x0, 0x0, 0x0, 0xff7fff3f⟩,
  ⟨0x4c0014, [(0x1000, 2)], 0x14041201, 0x1f0f1f1f, 0x0, 0x0, 0x0, 0x0, 0x1f0f1f1f⟩,
  ⟨0x4c0018, [(0x1000, 2)], 0x28, 0x7f, 0x0, 0x0, 0x0, 0x0, 0xff007f⟩,
  ⟨0x4c001c, [(0x1000, 2)], 0x0, 0x0, 0xffffffff, 0x0, 0x0, 0x0, 0xffffffff⟩,
  ⟨0x4c0020, [(0x1000, 2)], 0x0, 0x0, 0x0, 0x0, 0x0, 0x0, 0xffff000f⟩,
  ⟨0x4c0040, [(0x1000, 2), (0x4, 24)], 0x0, 0xffffffff, 0x0, 0x0, 0x0, 0x0, 0xffffffff⟩,
  ⟨0x4c0100, [(0x1000, 2), (0x8, 32)], 0x0, 0x7fffffff, 0x0, 0x0, 0x0, 0x0, 0x7fffffff⟩,
  ⟨0x4c0104, [(0x1000, 2), (0x8, 32)], 0x0, 0xffffffff, 0x0, 0x0, 0x0, 0x0, 0xffffffff⟩,
  ⟨0x4c0200, [(0x1000, 2), (0x80, 2), (0x4, 24)], 0x0, 0x0, 0x0, 0x0, 0x0, 0x0, 0xffffffff⟩,
  ⟨0x4c0260, [(0x1000, 2), (0x80, 2)], 0x0, 0x1, 0x0, 0x0, 0x0, 0x0, 0x1⟩,
  ⟨0x4c0264, [(0x1000, 2), (0x80, 2)], 0x0, 0x0, 0xffff0000, 0x0, 0x0, 0x0, 0xffff007f⟩,
  ⟨0x4c0268, [(0x1000, 2), (0x80, 2)], 0x0, 0x0, 0x0, 0x0, 0x0, 0x0, 0x0⟩,
  ⟨0x4c0400, [(0x1000, 2), (0x80, 4), (0x4, 24)], 0x0, 0x0, 0x0, 0x0, 0x0, 0x0, 0xffffffff⟩,
  ⟨0x4c0460, [(0x1000, 2), (0x80, 4)], 0x0, 0x0, 0xffff0000, 0x0, 0x0, 0x0, 0xffff0007⟩,
  ⟨0x4c0464, [(0x1000, 2), (0x80, 4)], 0x0, 0x0, 0x0, 0x0, 0x0, 0x0, 0x0⟩]

def rowsSch : List RegRow := [
  ⟨0x500000, [], 0x0, 0x0, 0x0, 0x0, 0x0, 0x0, 0xf01ff⟩,
  ⟨0x500008, [], 0x0, 0x0, 0x0, 0x0, 0x0, 0x0, 0xffffffff⟩,
  ⟨0x50000c, [], 0x0, 0x0, 0x0, 0x0, 0x0, 0x0, 0xffffffff⟩,
  ⟨0x500010, [], 0x0, 0x0, 0xffffffff, 0x0, 0x0, 0x0, 0xffffffff⟩,
  ⟨0x500020, [(0x4, 4)], 0x0, 0x1, 0x0, 0x0, 0x0, 0x0, 0x1⟩,
  ⟨0x500030, [(0x4, 4)], 0x0, 0xfffffffc, 0x0, 0x0, 0x0, 0x0, 0xfffffffc⟩,
  ⟨0x500040, [(0x4, 4)], 0x0, 0x0, 0x0, 0x0, 0x0, 0x0, 0xfffff⟩,
  ⟨0x500100, [(0x4, 16)], 0x0, 0x0, 0x0, 0x0, 0x0, 0x0, 0xffffffff⟩,
  ⟨0x500140, [(0x4, 16)], 0x0, 0x0, 0xffffffff, 0x0, 0x0, 0x0, 0xffffffff⟩,
  ⟨0x500200, [], 0x0, 0x0, 0x0, 0x0, 0x0, 0x0, 0x0⟩,
  ⟨0x500204, [], 0x0, 0xffffffff, 0x0, 0x0, 0x0, 0x0, 0xffffffff⟩,
  ⟨0x500208, [], 0x0, 0x0, 0x0, 0x0, 0x0, 0x0, 0xffff001f⟩,
  ⟨0x501000, [(0x4, 256)], 0xf00, 0xf1f, 0x0, 0x0, 0x0, 0x0, 0xf1f⟩,
  ⟨0x501400, [(0x4, 256)], 0x0, 0x0, 0x0, 0x0, 0x0, 0x0, 0xffff0fff⟩]

def rowsEvc : List RegRow := [
  ⟨0x540000, [(0x4, 64)], 0x0, 0x1ff, 0x0, 0x80000000, 0x0, 0x0, 0x800001ff⟩,
  ⟨0x540100, [(0x8, 64)], 0x0, 0x0, 0x0, 0x0, 0x0, 0x0, 0xffffffff⟩,
  ⟨0x540104, [(0x8, 64)], 0x0, 0x0, 0x0, 0x0, 0x0, 0x0, 0xffff⟩,
  ⟨0x540300, [], 0x0, 0x1, 0x0, 0x0, 0x0, 0x0, 0x1⟩,
  ⟨0x540400, [(0x4, 64)], 0x0, 0xffffffff, 0x0, 0x0, 0x0, 0x0, 0xffffffff⟩]

def rowsPrb : List RegRow := [
  ⟨0x580000, [], 0x0, 0x0, 0x0, 0x300, 0x0, 0x0, 0xfff3ff⟩,
  ⟨0x580004, [], 0x0, 0x0, 0xffff, 0x0, 0x0, 0x0, 0xffff⟩,
  ⟨0x584000, [(0x4, 2048)], 0x0, 0x0, 0x0, 0x0, 0xffffffff, 0x0, 0xffffffff⟩,
  ⟨0x580100, [(0x4, 64)], 0x0, 0x0, 0x0, 0x0, 0x0, 0x0, 0xc7ffffff⟩]

def rowsTread0 : List RegRow := [
  ⟨0x300, [], 0x0, 0x3ffffff, 0x0, 0x0, 0x0, 0x0, 0x3ffffff⟩,
  ⟨0x304, [], 0x0, 0xffffffff, 0x0, 0x0, 0x0, 0x0, 0xffffffff⟩,
  ⟨0x308, [], 0x0, 0x0, 0x0, 0x0, 0xffff, 0x0, 0xffff⟩,
  ⟨0x30c, [], 0x0, 0x0, 0x0, 0x0, 0xffff, 0x0, 0xffff⟩,
  ⟨0x310, [], 0x81062, 0xffffff, 0x0, 0x0, 0x0, 0x0, 0xffffff⟩,
  ⟨0x314, [], 0x0, 0x0, 0x0, 0x0, 0x0, 0x0, 0xffff0007⟩,
  ⟨0x318, [], 0x0, 0x0, 0xffff, 0x0, 0x0, 0x0, 0xffff⟩,
  ⟨0x400, [], 0x32, 0x73, 0x0, 0x0, 0x0, 0x0, 0x73⟩,
  ⟨0x404, [], 0xa0032, 0x0, 0x0, 0x0, 0xff07ff, 0x0, 0xff07ff⟩,
  ⟨0x408, [], 0xc8000a, 0x0, 0x0, 0x0, 0x7ff07ff, 0x0, 0x7ff07ff⟩,
  ⟨0x40c, [], 0xa0064, 0x0, 0x0, 0x0, 0xf01ff, 0x0, 0xf01ff⟩,
  ⟨0x410, [], 0xc8, 0x7ff, 0x0, 0x0, 0x0, 0x0, 0x7ff⟩,
  ⟨0x414, [], 0x8, 0x0, 0x0, 0x0, 0x0, 0x0, 0xffff1fff⟩,
  ⟨0x418, [], 0x0, 0x0, 0xffffffff, 0x0, 0x0, 0x0, 0xffffffff⟩,
  ⟨0x41c, [], 0x0, 0x0, 0x0, 0x0, 0x0, 0x0, 0x7fff7fff⟩,
  ⟨0x420, [], 0x0, 0x0, 0x0, 0x0, 0x0, 0x0, 0x7fff7fff⟩,
  ⟨0x424, [], 0x0, 0x0, 0xffff0000, 0x0, 0x0, 0x0, 0xffff00ff⟩,
  ⟨0x440, [], 0x61a8, 0x7ffff, 0x0, 0x0, 0x0, 0x0, 0x7ffff⟩,
  ⟨0x444, [], 0x0, 0x7ffff, 0x0, 0x0, 0x0, 0x0, 0x7ffff⟩,
  ⟨0x448, [], 0x0, 0x3, 0x0, 0x0, 0x0, 0x0, 0x3⟩,
  ⟨0x44c, [], 0x100000, 0x0, 0x0, 0x0, 0x0, 0x0, 0x37ffff⟩,
  ⟨0x450, [], 0x61a8, 0x0, 0x0, 0x0, 0x0, 0x0, 0x7ffff⟩,
  ⟨0x454, [], 0x0, 0x0, 0x0, 0x0, 0x0, 0x0, 0x7ffff⟩,
  ⟨0x458, [], 0x0, 0x0, 0x0, 0x0, 0x0, 0x0, 0x3⟩]

def rowsTread1 : List RegRow := [
  ⟨0x45c, [], 0x100000, 0x0, 0x0, 0x0, 0x0, 0x0, 0x37ffff⟩,
  ⟨0x460, [], 0x50a, 0x0, 0x0, 0x0, 0x1f7f, 0x0, 0x1f7f⟩,
  ⟨0x464, [], 0x0, 0x0, 0x0, 0x0, 0x0, 0x0, 0xffff0003⟩,
  ⟨0x470, [], 0x10a94, 0x0, 0x0, 0x0, 0x1ffff, 0x0, 0x1ffff⟩,
  ⟨0x474, [], 0x0, 0x0, 0x0, 0x0, 0x0, 0x0, 0xffff001f⟩,
  ⟨0x478, [], 0x0, 0x0, 0x0, 0x0, 0x0, 0x0, 0x0⟩,
  ⟨0x480, [], 0x60020, 0x7007f, 0x0, 0x0, 0x0, 0x0, 0x7007f⟩,
  ⟨0x484, [], 0x0, 0x0, 0xff000000, 0x0, 0x0, 0x0, 0xff7f01ff⟩,
  ⟨0x488, [], 0x0, 0x0, 0x0, 0x0, 0x0, 0x0, 0xffffffff⟩,
  ⟨0x48c, [], 0x0, 0x0, 0x0, 0x0, 0x0, 0x0, 0xffffffff⟩,
  ⟨0x500, [(0x4, 64)], 0x0, 0x0, 0x0, 0x0, 0x0, 0x0, 0xffffffff⟩,
  ⟨0x0, [], 0x0, 0x0, 0x0, 0x0, 0x0, 0x0, 0xffffffff⟩,
  ⟨0x4, [], 0x0, 0x0, 0x0, 0x0, 0x0, 0x0, 0xffffffff⟩,
  ⟨0x8, [], 0x88000, 0x0, 0x0, 0x0, 0x0, 0x0, 0xfffff⟩,
  ⟨0xc, [], 0x1, 0x0, 0x0, 0x0, 0x0, 0x0, 0xffff1f1f⟩,
  ⟨0x10, [], 0xcea51104, 0x0, 0x0, 0x0, 0x0, 0x0, 0xffffffff⟩,
  ⟨0x100, [], 0xa, 0xb, 0x0, 0x0, 0x0, 0x0, 0xb⟩,
  ⟨0x104, [], 0xdcb9acb9, 0xffffffff, 0x0, 0x0, 0x0, 0x0, 0xffffffff⟩,
  ⟨0x108, [], 0xcb9acb9, 0xffffffff, 0x0, 0x0, 0x0, 0x0, 0xffffffff⟩,
  ⟨0x10c, [], 0x0, 0x0, 0x0, 0x0, 0xffffffff, 0x0, 0xffffffff⟩,
  ⟨0x110, [], 0x0, 0x0, 0x0, 0x0, 0x0, 0x0, 0xffff7fff⟩,
  ⟨0x120, [(0x4, 8)], 0x0, 0x0, 0x0, 0x0, 0x0, 0x0, 0xffffffff⟩,
  ⟨0x140, [(0x4, 8)], 0x0, 0x0, 0x0, 0x0, 0xff3fff, 0x0, 0xff3fff⟩,
  ⟨0x200, [], 0x0, 0x0, 0x0, 0x0, 0xfff, 0x0, 0xfff⟩]

def rowsTread2 : List RegRow := [
  ⟨0x204, [], 0x0, 0x0, 0x0, 0x0, 0x0, 0x0, 0xfff7fff⟩,
  ⟨0x208, [], 0x5785a, 0x0, 0x0, 0x0, 0xffffff, 0x0, 0xffffff⟩,
  ⟨0x20c, [], 0xa2d7882, 0x0, 0x0, 0x0, 0xffffffff, 0x0, 0xffffffff⟩,
  ⟨0x210, [], 0x0, 0x0, 0x0, 0x0, 0x3fff, 0x0, 0x3fff⟩,
  ⟨0x214, [], 0x0, 0x0, 0x0, 0x0, 0x0, 0x0, 0x1f7f⟩,
  ⟨0x280, [], 0x0, 0x1, 0x0, 0x0, 0x0, 0x0, 0x1⟩,
  ⟨0x284, [], 0x0, 0x0, 0x0, 0x0, 0x0, 0x0, 0x0⟩,
  ⟨0x288, [], 0x0, 0x0, 0x0, 0x0, 0x0, 0x0, 0xffff⟩,
  ⟨0x28c, [], 0x0, 0x0, 0x0, 0x0, 0x0, 0x0, 0xffffffff⟩,
  ⟨0x600, [], 0x20, 0x0, 0x0, 0x0, 0x0, 0x0, 0x3f⟩,
  ⟨0x604, [], 0x0, 0x0, 0x0, 0x0, 0x0, 0x0, 0xbf3f3f1f⟩,
  ⟨0x608, [], 0x0, 0x0, 0x0, 0x0, 0x0, 0x0, 0xbf3f3f1f⟩,
  ⟨0x60c, [], 0x0, 0x0, 0xffffffff, 0x0, 0x0, 0x0, 0xffffffff⟩,
  ⟨0x700, [(0x4, 8)], 0x0, 0xf, 0x0, 0x0, 0x0, 0x0, 0xf⟩,
  ⟨0x720, [(0x4, 8)], 0x0, 0x0, 0x0, 0x0, 0x0, 0x0, 0xffffffff⟩,
  ⟨0x780, [], 0x0, 0x0, 0x0, 0x0, 0x0, 0x0, 0x0⟩,
  ⟨0x784, [], 0x0, 0xffffffff, 0x0, 0x0, 0x0, 0x0, 0xffffffff⟩,
  ⟨0x788, [], 0x10, 0x0, 0x0, 0x0, 0x0, 0x0, 0xffff003f⟩,
  ⟨0x78c, [], 0x0, 0x0, 0x0, 0x0, 0x0, 0x0, 0xffffffff⟩,
  ⟨0x800, [(0x4, 256)], 0x0, 0x0, 0x0, 0x0, 0xffffffff, 0x0, 0xffffffff⟩,
  ⟨0xc00, [(0x4, 5)], 0x0, 0x0, 0x0, 0x0, 0x0, 0x0, 0x87ffffff⟩,
  ⟨0x220, [], 0x0, 0x0, 0x0, 0x0, 0x0, 0x0, 0x0⟩,
  ⟨0x224, [], 0x0, 0x0, 0xffff, 0x0, 0x0, 0x0, 0xfffffff⟩,
  ⟨0x230, [(0x4, 16)], 0x0, 0x0, 0x0, 0x0, 0x0, 0x0, 0xffff0fff⟩]

def rowsTread3 : List RegRow := [
  ⟨0x330, [], 0x0, 0x0, 0x0, 0x0, 0x0, 0x0, 0xff07ffff⟩]

def rowsTread : List RegRow := rowsTread0 ++ rowsTread1 ++ rowsTread2 ++ rowsTread3

def rowsCore : List RegRow := [
  ⟨0x10000000, [(0x1000, 4)], 0x0, 0x0, 0x0, 0x0, 0x0, 0x0, 0x0⟩,
  ⟨0x10000004, [(0x1000, 4)], 0x0, 0xffffffff, 0x0, 0x0, 0x0, 0x0, 0xffffffff⟩,
  ⟨0x10000008, [(0x1000, 4)], 0x0, 0x0, 0x0, 0x0, 0x0, 0x0, 0xffff001f⟩,
  ⟨0x1000000c, [(0x1000, 4)], 0x0, 0x0, 0x0, 0x0, 0x0, 0x0, 0x1ff⟩,
  ⟨0x10000010, [(0x1000, 4)], 0x0, 0x0, 0x0, 0x0, 0x0, 0x0, 0x0⟩,
  ⟨0x10000014, [(0x1000, 4)], 0x0, 0x0, 0x0, 0x0, 0x0, 0x0, 0x7ff⟩]

/-- The rows of the block that a BAR0 offset lies in (Table 2 of spec/13). -/
def blockRows (off : Nat) : List RegRow :=
  let b := off / 0x10000
  if b = 0x0 then rowsGen
  else if b = 0x1 then rowsClk
  else if b = 0x2 then rowsHt
  else if b = 0x4 then rowsMi
  else if b = 0x8 then rowsAce
  else if b = 0x10 then rowsGal
  else if b = 0x11 then rowsGalCell
  else if 0x20 ≤ b ∧ b ≤ 0x21 then rowsRp
  else if b = 0x30 then rowsStk
  else if b = 0x38 then rowsSaf
  else if b = 0x3c then rowsFlt
  else if b = 0x40 then rowsHq
  else if 0x41 ≤ b ∧ b ≤ 0x44 then rowsHqDb
  else if b = 0x48 then rowsRec
  else if b = 0x4c then rowsCan
  else if b = 0x50 then rowsSch
  else if b = 0x54 then rowsEvc
  else if b = 0x58 then rowsPrb
  else if b = 0x1000 then rowsCore
  else []

end Sys2Proof.Machine
end

