-- ==== Sys2Proof/Machine/Bits.lean ====
section
/-!
DEFINITION. Machine/Bits.lean: bit fields, sign extension, saturation and rounding on numbers, sparse stores, and the
CRCs of the links. Everything a wider operation needs and no rule of the part by itself.
-/

namespace Sys2Proof.Machine

/-- Bits [lo + w - 1 : lo] of a number (R4). -/
def bits (v lo w : Nat) : Nat := v / 2 ^ lo % 2 ^ w

/-- Bit i of a number. -/
def bitOf (v i : Nat) : Bool := v / 2 ^ i % 2 = 1

/-- The number `v` with bits [lo + w - 1 : lo] set to `x` (taken modulo 2^w). -/
def setBits (v lo w x : Nat) : Nat :=
  v % 2 ^ lo + x % 2 ^ w * 2 ^ lo + v / 2 ^ (lo + w) * 2 ^ (lo + w)

def b2n (b : Bool) : Nat := if b then 1 else 0

/-- Two's complement: the signed value of a w-bit field. -/
def sext (w v : Nat) : Int := if v % 2 ^ w < 2 ^ (w - 1) then (v % 2 ^ w : Nat) else (v % 2 ^ w : Nat) - (2 ^ w : Nat)

/-- Two's complement: the w-bit field of a signed value, wrapping. -/
def toField (w : Nat) (i : Int) : Nat := (i % (2 ^ w : Nat)).toNat

def clampI (lo hi i : Int) : Int := if i < lo then lo else if hi < i then hi else i

def clampN (lo hi n : Nat) : Nat := if n < lo then lo else if hi < n then hi else n

/-- The w-bit two's-complement field of a signed value, saturating at both ends. -/
def satField (w : Nat) (i : Int) : Nat :=
  toField w (clampI (-(2 ^ (w - 1) : Nat)) ((2 ^ (w - 1) : Nat) - 1) i)

/-- The w-bit unsigned field of a number, saturating. -/
def satNat (w n : Nat) : Nat := min n (2 ^ w - 1)

/-- `a` before `b` in serial-number arithmetic over a 2^31 window (R51). -/
def serialLt (a b : Nat) : Bool := let d := (b + 2 ^ 32 - a % 2 ^ 32) % 2 ^ 32; 0 < d && d < 2 ^ 31

/-- The least multiple of `m` that is at least `n`. -/
def ceilDiv (n m : Nat) : Nat := (n + m - 1) / m

/-- Division of a signed number, to the nearest, a tie to the even quotient (`d` positive). -/
def roundEven (n : Int) (d : Nat) : Int :=
  let q := n / (d : Int)
  let r := n % (d : Int)
  if 2 * r < (d : Int) then q
  else if (d : Int) < 2 * r then q + 1
  else if q % 2 = 0 then q else q + 1

/-- The set bit numbers among the lowest `n` bits, rising. -/
def bitList (v n : Nat) : List Nat := (List.range n).filter (bitOf v)

/-- The number whose set bits are those listed. -/
def ofBits (l : List Nat) : Nat := l.foldl (fun v i => if bitOf v i then v else v + 2 ^ i) 0

/-- A clear-on-read register word `cur` that stood at `old` before the present instant (R9): what a read returns, and
what stays, the events of this clock, which the next read sees. -/
def rcSplit (cur old mask : Word) : Word × Word :=
  let c := cur &&& mask
  let b := if old &&& mask ≤ c then old &&& mask else c
  ((cur &&& ~~~ mask) ||| b, (cur &&& ~~~ mask) ||| (c - b))

/-! Sparse stores. -/

/-- The value of a key; `d` is what an unlisted key reads as. -/
def Store.get {α : Type} (s : Store α) (d : α) (k : Nat) : α :=
  match s with
  | [] => d
  | (a, v) :: r => if a = k then v else Store.get r d k

/-- The store without a key. -/
def Store.del {α : Type} (s : Store α) (k : Nat) : Store α := s.filter (fun p => p.1 != k)

/-- Insert a pair in key order. -/
def Store.ins {α : Type} (s : Store α) (k : Nat) (v : α) : Store α :=
  match s with
  | [] => [(k, v)]
  | (a, w) :: r => if k < a then (k, v) :: (a, w) :: r else (a, w) :: Store.ins r k v

/-- Write a key: writing what an unlisted key reads as removes the entry. -/
def Store.put {α : Type} [DecidableEq α] (s : Store α) (d : α) (k : Nat) (v : α) : Store α :=
  if v = d then Store.del s k else Store.ins (Store.del s k) k v

/-- The canonical form: keys strictly rising, no value equal to what its key reads as when it is not listed. -/
abbrev Store.Wf {α : Type} (s : Store α) (d : Nat → α) : Prop :=
  s.Pairwise (fun p q => p.1 < q.1) ∧ ∀ p ∈ s, p.2 ≠ d p.1

/-! Lists as queues and tables. -/

/-- Element `i`, or `d`. -/
def nth {α : Type} (l : List α) (i : Nat) (d : α) : α := l.getD i d

/-! Cyclic redundancy checks. -/

/-- One bit into a `w`-bit CRC register, most significant bit first. -/
def crcBit (w poly reg : Nat) (b : Bool) : Nat :=
  let top := bitOf reg (w - 1)
  let sh := reg * 2 % 2 ^ w
  if top != b then Nat.xor sh poly else sh

/-- CRC of a bit string, first bit first. -/
def crcMsb (w poly init : Nat) (l : List Bool) : Nat := l.foldl (crcBit w poly) init

/-- The lowest `w` bits of `v` in reverse order. -/
def revBits (w v : Nat) : Nat := (List.range w).foldl (fun a i => a * 2 + b2n (bitOf v i)) 0

/-- The bits of a number, bit 0 first. -/
def bitsLsb (w v : Nat) : List Bool := (List.range w).map (bitOf v)

end Sys2Proof.Machine
end

