-- ==== Sys2Proof/Machine/Sources.lean ====
section
/-!
DEFINITION. Machine/Sources.lean: the fault sources of Table 1 of spec/10 and the groups of forwarded Tread codes of
its Table 2 (R315 to R318).
-/

namespace Sys2Proof.Machine

/-- Scope 0 cell, 1 ring, 2 hub (the encoding of `FLT_SEVs.SCOPE`); `live`: kind L. -/
structure SrcInfo where
  scope : Nat
  live  : Bool
  deflt : Nat
  floor : Nat
  deriving DecidableEq, Repr

/-- Sources 0x000 to 0x011. -/
def srcLow (s : Nat) : Option SrcInfo :=
  if s = 0x000 ∨ s = 0x001 ∨ s = 0x004 then some ⟨2, true, 2, 2⟩
  else if s = 0x005 then some ⟨2, true, 0, 0⟩
  else if s = 0x007 then some ⟨2, false, 2, 0⟩
  else if s ≤ 0x00C ∨ s = 0x00F then some ⟨2, false, 0, 0⟩
  else if s = 0x00D ∨ s = 0x010 ∨ s = 0x011 then some ⟨0, false, 0, 0⟩
  else if s = 0x00E then some ⟨0, true, 0, 0⟩
  else none

/-- Sources 0x060 to 0x07F. -/
def srcMid (s : Nat) : Option SrcInfo :=
  if s ≤ 0x065 then some ⟨0, true, 0, 0⟩
  else if s = 0x068 ∨ s = 0x069 ∨ s = 0x06A then some ⟨2, true, 0, 0⟩
  else if s = 0x06B ∨ s = 0x06C ∨ s = 0x06D ∨ s = 0x06F then some ⟨2, false, 0, 0⟩
  else if s = 0x070 ∨ s = 0x075 then some ⟨2, true, 4, 4⟩
  else if s = 0x071 ∨ s = 0x073 then some ⟨2, true, 4, 3⟩
  else if s = 0x072 ∨ s = 0x074 then some ⟨2, true, 3, 3⟩
  else if 0x078 ≤ s ∧ s ≤ 0x07F then some ⟨2, true, 3, 2⟩
  else none

/-- Sources 0x0A0 to 0x0FF. -/
def srcHigh (s : Nat) : Option SrcInfo :=
  if s = 0x0A0 ∨ s = 0x0A1 ∨ s = 0x0A2 ∨ s = 0x0A4 then some ⟨2, true, 3, 3⟩
  else if s = 0x0A3 ∨ s = 0x0A5 ∨ s = 0x0A6 then some ⟨2, true, 0, 0⟩
  else if s = 0x0A7 then some ⟨2, true, 4, 3⟩
  else if s = 0x0B0 ∨ s = 0x0B1 ∨ s = 0x0B4 ∨ s = 0x0B5 then some ⟨2, true, 3, 3⟩
  else if s = 0x0B2 ∨ s = 0x0B6 then some ⟨2, true, 3, 2⟩
  else if s = 0x0B3 then some ⟨2, true, 0, 0⟩
  else if 0x0B8 ≤ s ∧ s ≤ 0x0BB then some ⟨2, false, 3, 3⟩
  else if s = 0x0C0 ∨ s = 0x0C2 then some ⟨2, false, 3, 3⟩
  else if s = 0x0C1 ∨ s = 0x0C4 ∨ s = 0x0C7 then some ⟨2, false, 0, 0⟩
  else if s = 0x0C3 then some ⟨2, false, 2, 2⟩
  else if s = 0x0C5 then some ⟨2, true, 0, 0⟩
  else if s = 0x0C6 then some ⟨2, false, 2, 0⟩
  else if s = 0x0E0 ∨ s = 0x0E2 ∨ s = 0x0E3 then some ⟨2, true, 0, 0⟩
  else if s = 0x0E1 ∨ s = 0x0E4 then some ⟨2, false, 0, 0⟩
  else none

/-- The sources of ring r, 0x100 + 8r + e. -/
def srcRing (e : Nat) : Option SrcInfo :=
  if e = 0 ∨ e = 3 ∨ e = 7 then some ⟨1, true, 0, 0⟩
  else if e = 1 ∨ e = 2 then some ⟨1, true, 2, 0⟩
  else if e = 4 ∨ e = 5 then some ⟨1, true, 2, 2⟩
  else some ⟨0, true, 1, 0⟩

/-- Forwarded group g (Table 2 of spec/10). -/
def srcGroup (g : Nat) : Option SrcInfo :=
  if g = 0 ∨ g = 1 ∨ g = 2 ∨ g = 9 then some ⟨0, false, 1, 1⟩
  else if g = 5 ∨ g = 6 ∨ g = 10 then some ⟨0, false, 1, 0⟩
  else if g < 16 then some ⟨0, false, 0, 0⟩
  else none

/-- Table 1 of spec/10; `none` for a reserved number, which is never raised (R315). -/
def srcInfo (s : Nat) : Option SrcInfo :=
  if s < 0x012 then srcLow s
  else if 0x020 ≤ s ∧ s < 0x040 then some ⟨2, true, 2, 0⟩
  else if 0x040 ≤ s ∧ s < 0x060 then some ⟨2, true, 3, 0⟩
  else if 0x060 ≤ s ∧ s < 0x080 then srcMid s
  else if 0x080 ≤ s ∧ s < 0x0A0 then some ⟨1, true, 2, 2⟩
  else if 0x0A0 ≤ s ∧ s < 0x100 then srcHigh s
  else if 0x100 ≤ s ∧ s < 0x200 then srcRing (s % 8)
  else if 0x200 ≤ s ∧ s < 0x220 then srcGroup (s - 0x200)
  else none

/-- The ring of a ring-scope source. -/
def srcRingNo (s : Nat) : Nat := if s < 0x100 then s - 0x080 else (s - 0x100) / 8

/-- Sources whose severity the safety island holds (R343). -/
def srcSafety (s : Nat) : Bool := (0x070 ≤ s && s ≤ 0x07F) || s == 0x0A7

/-- The bit of `FLT_CELLi` that a cell-scope source sets (Table 12 of spec/10). -/
def cellBit (s : Nat) : Nat :=
  if 0x200 ≤ s then s - 0x200
  else if s = 0x00D then 16
  else if s = 0x00E then 17
  else if s = 0x010 then 18
  else if s = 0x011 then 19
  else if 0x100 ≤ s then 20
  else 21

/-- `FLT_SEVs` of a new part: severity, floor and scope (R318); scope 3 for a reserved number. -/
def sevReset (s : Nat) : Nat :=
  match srcInfo s with
  | some i => (if srcSafety s then 0 else i.deflt) + i.floor * 16 + i.scope * 256
  | none => 3 * 256

end Sys2Proof.Machine
end

