-- ==== Sys2Proof/Machine/State.lean ====
section
/-!
DEFINITION. Machine/State.lean: the state of a Stairhead, of the Treads on its rings and of its links, as plain data,
and the state after reset. Every register of the register tables has its home in `regs` (the hub) or in the `regs` of
its Tread, by its offset; what the part keeps beside its registers has a field of its own here. A default value of a
field is its value after reset.
-/

namespace Sys2Proof.Machine

/-- Why the machine stops with a fault: no command of this block ends in one. -/
inductive Fault where
  deriving DecidableEq, Repr

/-- Why the machine refuses a command. -/
inductive Refusal where
  /-- Raised by an arm of `exec` whose command has no meaning yet; safe. -/
  | notModelled (mnemonic : String)
  deriving DecidableEq, Repr

/-! ### Persistent register bank and shared resources (spec/01, spec/17) -/

/-- A PW word on its way to the persistent register bank (R499): who writes it, the register's BAR0 offset, the value. -/
structure PwWord where
  who : Requester
  off : Nat
  val : Word
  /-- 1 + the command ring whose REG_WR it is; 0 for any other write. -/
  tag : Nat := 0
  deriving DecidableEq, Repr

/-- The bank's queue and commit engine (R499, R500, R506). -/
structure PrbSt where
  queue   : List PwWord := []
  /-- The word whose commit has started. -/
  busy    : Option PwWord := none
  /-- Words that wait behind a word of their own requester and are not yet requests (R499). -/
  backlog : List PwWord := []
  /-- Reads of a register with a word that is not committed: they return after its commit (R499). -/
  reads   : List (Requester × Nat) := []
  /-- Write count of each block of 64 words (R506). -/
  wear    : Store Nat := []
  deriving DecidableEq, Repr

/-- A request that waits at a shared resource (R36, R37): its requester, its place key and what it asks for. -/
structure WaitReq where
  who : Requester
  key : Nat := 0
  off : Nat := 0
  val : Word := 0
  tag : Nat := 0
  deriving DecidableEq, Repr

/-! ### Hall time (spec/07) -/

/-- A transmit time-stamp: identifier and hall time (R246). -/
structure TxStamp where
  id   : Nat
  hall : Time
  deriving DecidableEq, Repr

structure ClkSt where
  /-- The registers as they stood before the present instant: what a hardware event and a software access of one clock
  find (R9). -/
  before   : Store Word := []
  /-- Time since the islands were released, at the nominal rate of the DPLL's frequency source. -/
  now      : Time := 0
  /-- Hall time (R226), and the part of a unit below it, in 2^-40 units. -/
  hall     : Time := 0
  resid    : Nat := 0
  /-- Start of the present cycle: its instant, its hall time; `started` is false until the first cycle start. -/
  tk       : Time := 0
  tkHall   : Time := 0
  started  : Bool := false
  /-- Cycle starts since the last change of T, up to 1,024 (R75). -/
  sinceT   : Nat := 1024
  /-- The latest cycle starts, newest first: cycle number, instant and hall time. -/
  starts   : List (Nat × Time × Time) := []
  /-- rho_P and rho_I of R231, signed, in 2^-40. -/
  rhoP     : Int := 0
  rhoI     : Int := 0
  /-- Instant of the previous offset and the latest theta, in 2^-16 ns. -/
  lastOffs : Option Time := none
  theta    : Int := 0
  /-- Latest offsets with |theta| below 50 ns in a row (LOCK). -/
  goodOffs : Nat := 0
  /-- Whole seconds committed by firmware for the PPS source (R247). -/
  ppsSecs  : Option Int := none
  /-- A step named by the newel: cycle number and -theta (R235). -/
  stepAt   : Option (Nat × Int) := none
  /-- PPS_OUT: high until this instant. -/
  ppsOut   : Option Time := none
  /-- Transmit time-stamp queues of the two Ethernet ports (R246), oldest first. -/
  txq0     : List TxStamp := []
  txq1     : List TxStamp := []
  /-- REF25_IN present (R253). -/
  refOk    : Bool := true
  /-- Core reference multiplier and dividers in use (R252). -/
  refmUsed : Nat := 0
  divUsed  : Word := 0x0F0C0A08
  deriving DecidableEq, Repr

/-! ### Faults (spec/10) -/

/-- A reaction that a latched raise holds in force (R322, R324 to R327). -/
structure Reaction where
  src   : Nat
  cell  : Option Nat
  sev   : Nat
  /-- Arms blocked, bit a; rings of no arm blocked, bit r. -/
  arms  : Nat
  rings : Nat
  t     : Time
  deriving DecidableEq, Repr

/-- An inner queue (R335): items oldest first, and the last item read. -/
structure IQueue where
  items : List Dword := []
  last  : Dword := 0
  /-- The instant of the latest item, and the number of items at the end that entered at that instant (R323). -/
  at_   : Time := 0
  fresh : Nat := 0
  deriving DecidableEq, Repr

/-- A stack-wide block or trip held from another hub (R398). -/
structure StackBlock where
  hub  : Nat
  /-- Number of cycle starts since the latest BLOCK or TRIP of that hub arrived. -/
  age  : Nat
  t    : Time
  deriving DecidableEq, Repr

structure FltSt where
  reactions : List Reaction := []
  /-- Reactions whose latch was cleared before their first frame (R325). -/
  owed      : List Reaction := []
  /-- Cells under an S1 bypass until their uplink reports BYPASSED, with the detection instant (R324). -/
  bypass    : List (Nat × Time) := []
  /-- Cell bits set by raises of S1 or higher: (local index, bit of FLT_CELL) (R332). -/
  oosBits   : List (Nat × Nat) := []
  queues    : Store IQueue := []
  /-- Stack-wide blocks received. -/
  stackBlk  : List StackBlock := []
  /-- BLOCK and TRIP messages that have come: hub, TRIP, cycle of the content, newest first (R317, R326). -/
  stackSeen : List (Nat × Bool × Nat) := []
  /-- Per cell: SEQ of the last accepted forwarded code, none after admission (R320). -/
  lastSeq   : Store Nat := []
  /-- The instant of the latest raise, and the sources raised at it, each with the cell it names (R323, R331). -/
  nowAt     : Time := 0
  nowSrc    : List (Nat × Option Nat) := []
  deriving DecidableEq, Repr

/-- An event counter (R508): source, 48-bit count, WRAP. -/
structure EvcCounter where
  src   : Nat := 0
  count : Nat := 0
  wrap  : Bool := false
  deriving DecidableEq, Repr

/-! ### Recorder (spec/15) -/

/-- A slice (R442, R444): everything Table 1 lays out. For a reduced slice `inMax` and `cellMax` hold the maxima. -/
structure Slice where
  cyc     : Nat := 0
  hall    : Time := 0
  arms    : List Nat := []
  late    : Nat := 0
  inputs  : List Nat := []
  cells   : Store Nat := []
  inMax   : List Nat := []
  cellMax : Store Nat := []
  /-- Stored as zeros apart from bytes 0 to 13 (R446). -/
  gap     : Bool := false
  deriving DecidableEq, Repr

/-- A segment (R450): state 0 FREE, 1 ARMED, 2 POST, 3 FULL, 4 COPY. -/
structure Segment where
  st      : Nat := 0
  slices  : List Slice := []
  /-- Slice number of the first slice to be kept. -/
  first   : Nat := 0
  trigCyc : Nat := 0
  trigHall : Time := 0
  tsrc    : Nat := 0
  retrig  : Bool := false
  gap     : Bool := false
  reduced : Bool := false
  deriving DecidableEq, Repr

structure RecSt where
  segs    : Store Segment := []
  /-- The segment in ARMED or POST. -/
  cur     : Option Nat := none
  /-- Segments in FULL, in the order in which they entered it. -/
  full    : List Nat := []
  /-- The segment armed or closed last (R452 looks above it). -/
  lastSeg : Nat := 0
  /-- The held trigger of R451: slice number, hall time, sources. -/
  held    : Option (Nat × Time × Nat) := none
  /-- Cycle of the first trigger lost since the last segment entry, and the number lost (R454). -/
  lostAt  : Option Nat := none
  lostN   : Nat := 0
  /-- Triggers by cycle number (bytes 40 to 43 of the slice). -/
  trigs   : Store Nat := []
  /-- The cycle of the slice that has completed last. -/
  doneCyc : Option Nat := none
  /-- The reduced slice in the making (R444). -/
  acc     : Option Slice := none
  /-- Arms and trains of the frames whose slices are not complete: N_eff, POL and blocked of frame k, late mask. -/
  frames  : Store (List Nat) := []
  lates   : Store Nat := []
  /-- The latest uplinks of each cell, on time or late, newest frame first: frame, VCAP and VOVR (R65, R443). -/
  ups     : Store (List (Nat × Nat)) := []
  /-- Host data area: next write offset, and the unreturned areas in delivery order: (ring index, start, bytes). -/
  hoffs   : Nat := 0
  areas   : List (Nat × Nat × Nat) := []
  /-- TAP comparisons of the previous pass: bit 8..23 true then (R447). -/
  tapPrev : Nat := 0
  /-- Trigger-bus lines driven since the previous heartbeat: line and instant of its first drive (R448). -/
  tbus    : List (Nat × Time) := []
  /-- TBUS_OUTl is high until this instant (R531). -/
  tbusOut : Store Time := []
  /-- The filtered levels of TRIG_IN0 to 3. -/
  trigIn  : Nat := 0
  /-- Writes of the host area registers that wait for the end of a copy (R455). -/
  hbPend  : Store Word := []
  deriving DecidableEq, Repr

/-! ### Host interface (spec/13) -/

/-- What a host-written ring waits for (R412). -/
inductive RingWait where
  | idle
  /-- WAIT_CYCLE: the named cycle. -/
  | cycle (cid k : Nat)
  /-- MBX_COMMIT: waits for the host's pending commit to clear, then for its own grant (R416). -/
  | mbxFree (cid m : Nat) (words : List Word)
  | mbxGrant (cid m : Nat)
  /-- REG_WR of a PW field: waits for its commit (R499); the previous value is the result. -/
  | pw (cid off : Nat) (prev : Word)
  /-- REG_RD of a register with a word that is not committed (R499). -/
  | rd (cid off : Nat)
  /-- ETH_TX: waits for the end of transmission. -/
  | eth (cid port : Nat) (ts : Bool) (tsid : Nat) (frame : List Byte)
  deriving DecidableEq, Repr

/-- A host cart in flight (R414): its number, its ring port, SQ_HEAD of its completion, and once it has ended its completion: CID, STATUS, RESULT,
CYC, the reply cart and RADDR. -/
structure CartFlight where
  seq  : Nat
  port : Nat
  head : Nat := 0
  res  : Option (Nat × Nat × Nat × Nat × Slot × Nat) := none
  deriving DecidableEq, Repr

/-- A ring of Table 4 of spec/13. The hub's index, phase, STALL and ERR are in `HQ_RINGn_STAT`. -/
structure HostRing where
  /-- The index last written by the host: producer of a host-written ring, next entry to read of a device-written one. -/
  hostIdx  : Nat := 0
  wait     : RingWait := .idle
  /-- Entries written since the last MSI-X message, and the instant of the first of them. -/
  sinceMsg : Nat := 0
  timer    : Option Time := none
  /-- Entries held back while the ring is full (R410), oldest first, without phase: completions, or events (64). -/
  held     : List Nat := []
  /-- Event rings: SEQ of the next event, and the losses since the last marker with the SEQ of the first (R421). -/
  seq      : Nat := 0
  lostN    : Nat := 0
  lostSeq  : Nat := 0
  /-- EN = 0 has been written while a command is in progress (R424). -/
  closing  : Bool := false
  /-- Cart rings: carts in flight in order, and the number of the next (R414). -/
  flight   : List CartFlight := []
  cartSeq  : Nat := 0
  deriving DecidableEq, Repr

/-- A posted Ethernet receive buffer (R422). -/
structure RxBuf where
  cid  : Nat
  addr : Nat
  len  : Nat
  deriving DecidableEq, Repr

structure HostSt where
  rings  : Store HostRing := []
  /-- The command ring that the engine served last, and when (R412). -/
  served : Option (Nat × Time) := none
  rxbuf0 : List RxBuf := []
  rxbuf1 : List RxBuf := []
  /-- Arm requests not yet in effect: (deblock?, arm mask, instant of execution) (R418, R419). -/
  armReq : List (Bool × Nat × Time) := []
  /-- RING_COMMIT requests: (ring mask, named cycle or none, instant of execution) (R420). -/
  commits : List (Nat × Option Nat × Time) := []
  /-- CAR_DUTY contents by local index: D and ON; and those not yet in effect: local index, D, ON, instant of execution
  (R420). -/
  duty   : Store (Nat × Nat) := []
  dutyReq : List (Nat × Nat × Nat × Time) := []
  deriving DecidableEq, Repr

/-! ### Chiskaha ring ports (spec/06) -/

/-- A cart request at a ring port (R205 to R208). -/
structure CartReq where
  who   : Requester
  /-- The port's own cart: ADMIT, RATE, IDENT (R215, R217), and the R-bar broadcast (R238). -/
  own   : Bool := false
  op    : Nat
  pos   : Nat := 0
  arg   : Nat := 0
  data  : Nat := 0
  /-- Host cart: identifier and reply address. -/
  cid   : Nat := 0
  raddr : Nat := 0
  tag   : Nat := 0
  /-- Times sent. -/
  tries : Nat := 0
  /-- The first frame it was presented for has passed (R39). -/
  shown : Bool := false
  /-- The host island was reset after the cart left its ring: no completion (R403). -/
  mute  : Bool := false
  /-- Sent on both sides of a split ring (R221). -/
  both  : Bool := false
  /-- Host cart: its number in the order of its ring. -/
  seq   : Nat := 0
  deriving DecidableEq, Repr

/-- A frame a port has emitted: cycle, t_k and E in hall time, FTYPE, DIR and PFAR, at the low-power rate, emission
number, the request in each of the eight cart positions until it is judged, and whether its train has come. -/
structure SentFrame where
  cyc   : Nat
  tk    : Time
  e     : Time
  ftype : Nat
  dir   : Nat
  pfar  : Nat
  low   : Bool
  num   : Nat
  carts : List (Option CartReq) := []
  back  : Bool := false
  deriving DecidableEq, Repr

/-- A train as the port has taken it: cycle, complete after its deadline, accepted uplinks by position. -/
structure Train where
  cyc   : Nat
  late  : Bool
  ups   : Store Slot
  deriving DecidableEq, Repr

/-- A ring port. -/
structure Port where
  /-- The latest blocks were LINK_FAULT although the lane has block lock (R541). -/
  linkFault : Bool := false
  /-- A cell table is held (Table 14); an enumeration has ended since reset (R214). -/
  table     : Bool := false
  enumEver  : Bool := false
  /-- ENUM frames emitted since enumeration began, and the latest ENUM answers, newest first: emission number, FTYPE,
  32 slots, return word. -/
  enumCnt   : Nat := 0
  enumHist  : List (Nat × Nat × List Slot × Nat) := []
  /-- RATE: cycle and target of the go (R217). -/
  rateAt    : Option (Nat × Bool) := none
  /-- Cycle in which the ring entered the low-power rate (R54). -/
  lowFrom   : Nat := 0
  /-- The port has left OFF since the latest reset. -/
  began     : Bool := false
  /-- Positions admitted by an enumeration whose ADMIT cart has no reply yet (R214, R215). -/
  admitting : List Nat := []
  /-- The latest emitted frames, newest first, and how many frames the port has emitted. -/
  sent      : List SentFrame := []
  emitted   : Nat := 0
  /-- Requests that wait for a cart position, and answers of one side of a split ring that wait for the other: the
  request and its reply, none without one (R221). -/
  carts     : List CartReq := []
  merge     : List (CartReq × Option Slot) := []
  tag       : Nat := 0
  /-- The latest 1,024 returns U_r in ns, newest first (Table 12 of spec/02). -/
  retHist   : List Nat := []
  /-- The next D_r starts a new maximum (R57). -/
  dFresh    : Bool := true
  /-- Far-end copies: the cycle of each and its arrival less t_k in ns, over the latest 1,024 frames, newest first (R218). -/
  feHist    : List (Nat × Nat) := []
  /-- R of R237 over the latest 256 frames in 2^-16 ns, and the newest cycle in it (R238). -/
  rHist     : List Nat := []
  rCyc      : Nat := 0
  /-- A split trigger and its instant (R219). -/
  splitTrig : Option Time := none
  /-- Consecutive frames without a valid uplink, by position (R216). -/
  silent    : Store Nat := []
  /-- Consecutive frames with theta above TERR_LIM, by position, and the worst of each of the latest 1,024 frames
  with its position (R242). -/
  terr      : Store Nat := []
  terrHist  : List (Nat × Nat) := []
  /-- The latest 256 values of IN_TS less the arrival of FRAME_START at a cell, in 2^-16 ns, by position (R237, R242). -/
  dHist     : Store (List Nat) := []
  /-- Arrival of the newest permit token of the safety island (R342). -/
  token     : Option Time := none
  /-- Cycles whose train was not complete at its deadline (R64, R65), and the latest trains, newest first. -/
  lateOf    : List Nat := []
  trains    : List Train := []
  /-- The frame on the transmit lane. -/
  txFrame   : BitVec 5888 := 0
  /-- The control block that the transmitter sends between frames, none while it is off (R185, R204, Table 14). -/
  txIdle    : Option Dword := none
  /-- A far-end port of a whole-unit hub: cycle and DIR of the latest relayed frame it emitted (R222, R238). -/
  relayed   : Option (Nat × Nat) := none
  /-- Loop-back point of the latest return word with LBV = 1 since the ring split; a relayed segment is kept at key 32 + r of
  the ports (R220 to R222). -/
  rlb       : Option Nat := none
  deriving DecidableEq, Repr


/-! ### Measurement inputs (spec/03) -/

/-- A sinc3 stage of a preset (R92): its integrators, its comb registers, and its latest outputs, newest first. -/
structure Sinc where
  i1   : BitVec 16 := 0
  i2   : BitVec 16 := 0
  i3   : BitVec 16 := 0
  c1   : BitVec 16 := 0
  c2   : BitVec 16 := 0
  c3   : BitVec 16 := 0
  outs : List Nat := []
  deriving DecidableEq, Repr

structure MiChan where
  /-- Hall time of the cycle start the channel was aligned to (R94). -/
  alignHall : Time := 0
  /-- Number of the bit sampled last: in hub-clock mode bits are counted from 900 ns before the alignment, in external-clock
  mode from the restart; number of the first bit after the restart. -/
  bitIx     : Nat := 0
  startIx   : Nat := 0
  /-- The bits of the stream, newest first, as far as a delay reaches; the sinc3 stages and the numbers of the latest
  outputs of the four presets. -/
  tail      : List Bool := []
  sinc      : List Sinc := [{}, {}, {}, {}]
  outNo     : List Nat := [0, 0, 0, 0]
  /-- 64 identical bits have been seen, and hall time of the end of the latest such run (R97). -/
  stuck     : Bool := false
  stuckEnd  : Option Time := none
  /-- Measured period of an external clock (R84). -/
  extPeriod : Time := 0
  /-- Consecutive SWIFT outputs beyond each guard threshold (R99). -/
  cntHi     : Nat := 0
  cntLo     : Nat := 0
  /-- The active scale (R91), binary32. -/
  gain      : Nat := 0x3F800000
  offs      : Nat := 0
  deriving DecidableEq, Repr

/-! ### Arm control engine (spec/04) -/

/-- The arm output record (R127) with the record before it. -/
structure ArmRec where
  n     : Int := 0
  delta : Int := 0
  d     : Nat := 0
  m     : Int := 0
  nPrev : Int := 0
  mPrev : Int := 0
  meas  : Bool := false
  numf  : Bool := false
  /-- The arm was deblocked in this pass, and in the pass before it. -/
  live  : Bool := false
  same  : Bool := false
  deriving DecidableEq, Repr

/-- A commit of a mailbox (R131): requester 0 to 3 for the cores and 4 for the host, mailbox, four words. -/
structure MbxCommit where
  /-- Cycle of its presentation, and whether GEN_CONT2 has counted it (R39). -/
  slot    : Nat := 0
  counted : Bool := false
  who   : Nat
  mbx   : Nat
  words : List Word
  deriving DecidableEq, Repr

structure AceSt where
  /-- Banks: descriptor word w of block b at 16b + w, gain word g of set s of block b at 4096 + 64b + 8s + g. -/
  bank0   : Store Word := []
  bank1   : Store Word := []
  blks    : Store AceBlk := []
  /-- Staging words at 4q + n, and `ACE_STG_STAT` at q, of requester q (R130, R133). -/
  staging : Store Word := []
  stgStat : Store Word := []
  /-- Commits that wait for a grant, in order, and the commits granted in this cycle (R131). -/
  waiting : List MbxCommit := []
  granted : List MbxCommit := []
  /-- A check in progress: its result as judged at its start (ERR, BLOCK, KIND, COST), and whether a topology write
  was accepted since (R135). `copying`: a COPY is in progress. -/
  checking : Option (Nat × Nat × Nat × Nat) := none
  topoHit  : Bool := false
  copying  : Bool := false
  recs     : Store ArmRec := []
  /-- Generator (R139, R140): phase accumulator, shift register, shifts within a hold, passes in the state, sample. -/
  acc     : Nat := 0
  lfsr    : Nat := 0
  hold    : Nat := 0
  /-- The bit shifted in last. -/
  lfsrBit : Bool := false
  genN    : Nat := 0
  /-- n of R139. -/
  genIdx  : Int := 0
  sample  : Nat := 0
  stopReq : Bool := false
  /-- Source values of the latest pass at an ACTIVE whole-unit hub: code, value, flag (R372). -/
  passInp : List (Nat × Nat × Bool) := []
  /-- Capture (R141): passes since the latest sample. -/
  capDec  : Nat := 0
  /-- The value that the TAP of each capture channel read in the latest pass, binary32 (R121). -/
  tapIn   : Store Nat := []
  deriving DecidableEq, Repr

/-! ### Gallery (spec/05) -/

/-- The carriage content that the gallery has selected for a cell (Table 3 of spec/05): STATE, MODE, instant and duty in
250 ps units. -/
structure Sel where
  state : Nat := 0
  mode  : Nat := 0
  s     : Nat := 0
  duty  : Nat := 0
  /-- Level at the end of the frame, edges commanded. -/
  level : Int := 0
  edges : Nat := 0
  deriving DecidableEq, Repr

/-- Uplink data of a cell (R149, R150): code, over-range flag, temperature, refresh request, sampling instant and frame. -/
structure CellData where
  u    : Nat
  ovr  : Bool
  temp : Int
  refr : Bool
  s    : Time
  cyc  : Nat
  deriving DecidableEq, Repr

structure GalCell where
  /-- Commanded level edges, newest first, and the level before the oldest (R145). -/
  edges  : List (Time × Int) := []
  base   : Int := 0
  /-- Newest accepted data, and the accepted fresh data before them when their frames are consecutive (R169). -/
  data   : Option CellData := none
  prev   : Option CellData := none
  /-- The data in use were accepted for the latest deadline. -/
  fresh  : Bool := false
  /-- Action instant of a refresh grant that is not complete (R167). -/
  refr   : Option Time := none
  /-- Since when the cell is excluded, since when its arm is blocked, and the latest 16 intervals of either that have ended,
  newest first (R170). -/
  exclAt : Option Time := none
  blkAt  : Option Time := some 0
  away   : List (Time × Time) := []
  /-- OLD was in force at the latest ranking. -/
  old    : Bool := false
  /-- Sums of R171, binary64. -/
  estA   : Nat := 0
  estB   : Nat := 0
  estE   : Nat := 0
  /-- The window that ends at this sampling instant has been taken. -/
  winAt  : Time := 0
  deriving DecidableEq, Repr

structure GalArm where
  /-- Band half-width, edges and cycles of the present window of R158. -/
  band   : Nat := 0
  edges  : Nat := 0
  cycles : Nat := 0
  /-- Edges of the latest 1,024 deblocked cycles and N_pos at their end, until the adaptation has taken them (R158). -/
  winEnd : Option (Nat × Nat) := none
  /-- Cycles since the latest health check was due (R172). -/
  hlthN  : Nat := 0
  /-- Cycles for which the dither cell has held its role (R159). -/
  dHeld  : Nat := 0
  /-- Refresh requests in order of first presentation, with what has been counted of each (R166, R168). -/
  refrQ  : List (Nat × Nat) := []
  /-- The selection that waits for its frame was made with the arm deblocked, in level mode. -/
  ready  : Bool := false
  /-- Cycle starts at which records flagged MEAS acted, newest first (R170). -/
  measAt : List Time := []
  /-- First frame since a deblock (R174). -/
  first  : Bool := true
  /-- M of the latest records, newest first, 0 for a blocked arm (R385). -/
  mHist  : List Int := []
  deriving DecidableEq, Repr

structure GalSt where
  cells : Store GalCell := []
  arms  : Store GalArm := []
  /-- Carriage content selected for the next frame, by local index. -/
  sel   : Store Sel := []
  /-- Landing entry of the next frame without its tag, by local index (R385). -/
  land  : Store Nat := []
  /-- LAST_DONE of the latest 1,024 cycles, newest first. -/
  done  : List Nat := []
  deriving DecidableEq, Repr

/-! ### Safety island (spec/11) -/

/-- A balustrade channel (R353 to R355). -/
structure BalCh where
  /-- Channel fault, and fault-free outputs since its cause ended. -/
  fault  : Bool := false
  good   : Nat := 0
  /-- No clock edge for 1 us. -/
  noClk  : Bool := false
  /-- Cross-check: outputs and sum of codes of the present block, its start, mismatching blocks in a row, failed. -/
  n      : Nat := 0
  sum    : Int := 0
  start  : Time := 0
  misses : Nat := 0
  xfail  : Bool := false
  /-- The sinc3 filter with its bit count (R353); the latest data bit, for how many periods it has stood, and whether one has
  stood for 64 since the latest output (R354). -/
  sinc   : Sinc := {}
  bitIx  : Nat := 0
  lastBit : Bool := false
  bitRun : Nat := 0
  stuck  : Bool := false
  deriving DecidableEq, Repr

structure SafSt where
  /-- A trip cause asks for the safe block outputs (R344); the fault collector does (R327). -/
  tripReq : Bool := false
  collReq : Bool := false
  /-- Instant at which the island entered SELFTEST, and PERMIT (R345, R348). -/
  upAt     : Time := 0
  permitAt : Time := 0
  /-- The island is held in reset (R345). -/
  held    : Bool := false
  /-- Instant of the first key, and of the opening of the lock (R364). -/
  keyAt   : Option Time := none
  openAt  : Option Time := none
  /-- The shadow parameter set, by register offset, while the lock is open. -/
  shadow  : Store Word := []
  /-- Discrepancy timers: start instant by pair (R350). -/
  disc    : Store (Option Time) := []
  /-- Outputs whose failure has not ended, since when the read-back of each has agreed again, and extra tests that have not
  run (R348). -/
  sboBad  : Nat := 0
  sboOk   : Store (Option Time) := []
  tests   : Nat := 0
  /-- Start of the test pulse in progress, and periods whose pulse has begun since PERMIT, by output (R348). -/
  pulse   : Store (Option Time) := []
  pulsed  : Store Nat := []
  chans   : Store BalCh := []
  /-- SLC by arm: consecutive outputs beyond LIM, and not yet returned (R356). -/
  slcRun  : Store Nat := []
  slcOver : Nat := 0
  /-- Power window: sum, outputs, latest P_m, envelope in 2^-16 power code, to be set at the next window (R357, R358). -/
  winSum  : Int := 0
  winN    : Nat := 0
  pm      : Int := 0
  penv    : Int := 0
  fresh   : Bool := true
  /-- Consecutive violating windows (R359). -/
  sldRun  : Nat := 0
  deriving DecidableEq, Repr

/-! ### Titajor stack link and redundancy (spec/12) -/

/-- What a hub knows of another hub (R392 to R394). -/
structure HubRec where
  hb      : Heartbeat := {}
  /-- Cycle of its latest heartbeat; none has come since reset. -/
  cyc     : Option Nat := none
  /-- Consecutive heartbeats missing. -/
  missRun : Nat := 0
  /-- Cycles of the latest 1,024 and the arrivals of their heartbeats less t_k + 100 ns, in ns. -/
  lats    : List (Nat × Nat) := []
  /-- Cycle of the latest heartbeat on ring A and on ring B. -/
  atA     : Option Nat := none
  atB     : Option Nat := none
  /-- Instant since which it has been a newel candidate. -/
  candAt  : Option Time := none
  deriving DecidableEq, Repr

/-- The carriages of a frame that the standby has seen in a far-end copy or a relay (R382): ring, cycle, t-hat, BASE_J,
BLOCK, and the carriages by local index. -/
structure Seen where
  ring  : Nat
  cyc   : Nat
  tHat  : Time
  baseJ : Nat
  block : Bool
  cars  : List (Nat × Slot)
  deriving DecidableEq, Repr

/-- A takeover (Table 4): 1 entered, 2 base loading, 3 loaded, 4 replaying, 5 replayed, 6 ports emitting. -/
structure Take where
  phase  : Nat
  kf     : Nat
  revert : Bool
  deriving DecidableEq, Repr

structure StkSt where
  /-- Messages for ring A and for ring B with the instants at which their frame slots begin, in order of departure; those
  of an instant to come still wait (R36, R389). -/
  txA  : List (Time × TitMsg) := []
  txB  : List (Time × TitMsg) := []
  hubs : Store HubRec := []
  /-- Hops over which the latest heartbeat of a hub came on ring A and on ring B (R389). -/
  hopA : Store Nat := []
  hopB : Store Nat := []
  /-- The change of newel that this hub has named: hub and cycle (R394). -/
  change : Option (Nat × Nat) := none
  /-- Instant since which this hub has been a candidate. -/
  candAt : Option Time := none
  /-- Instant since which every lane of the Titajor links has held lock (R368). -/
  linksAt : Option Time := none
  /-- Cycle of the latest heartbeat of another hub with this hub's number (R15). -/
  dupAt  : Option Nat := none
  /-- The newel's cycle number to be taken at the next cycle start (R397). -/
  setCyc : Option Nat := none
  /-- The newel's cycle length differs from this hub's (R50). -/
  lenBad : Bool := false
  /-- Exchanged words by cycle and hub, at 16 * (cycle mod 16) + hub (R399), and DIV in force. -/
  exch   : Store (List Word) := []
  exDiv  : Nat := 1
  /-- An uplink or heartbeat with a newer epoch has been seen: fenced from the next cycle start; in other modes the epoch
  taken then (R378). -/
  fence    : Bool := false
  newEpoch : Option Nat := none
  /-- Cycles for which the far-end evidence, and the partner's heartbeat, are missing (R380); cycle of the newest relay. -/
  feMiss   : List Nat := []
  hbMiss   : List Nat := []
  relayCyc : Option Nat := none
  /-- Named cycle of a RESIGN or REVERT: of this hub's own, of the partner's. -/
  resignAt : Option Nat := none
  takeAt   : Option Nat := none
  reverting : Bool := false
  /-- Since when READY and every partner heartbeat have held (R386). -/
  readyAt  : Option Time := none
  take     : Option Take := none
  /-- The ports of a hub in TAKEOVER have taken the emitting role (R382), and k_n of the latest takeover (R383). -/
  emitting : Bool := false
  resumeAt : Option Nat := none
  /-- Deblocked arms that the takeover carries (R384). -/
  carry    : Nat := 0
  /-- The base, the journal records after it, oldest first, and the frames seen (R371, R372, R382). -/
  base     : Option Snap := none
  /-- Cycle in which the hub became a standby, and cycle of the latest snapshot that came (R371). -/
  stbAt    : Option Nat := none
  snapAt   : Option Nat := none
  jrnl     : List JRec := []
  seen     : List Seen := []
  /-- Landing entries seen in far-end copies and relays, at 64 * cell + (cycle mod 64): cycle and entry (R383). -/
  known    : Store (Nat × Word) := []
  /-- Exclusion bits of every cell, and the cell table, by local index, as the latest journal record has them (R371, R372). -/
  exclSent : Store Nat := []
  tableSent : Store (List Word) := []
  deriving DecidableEq, Repr


/-! ### Power, reset and start-up (spec/17) -/

structure PwrSt where
  /-- PFAIL_N is low (R500). -/
  pfailLow : Bool := false
  /-- Rails whose monitor shows them out of their operating range, bits 0 to 6 as in `CLK_RAIL_STAT.GOOD` (R521), and
  those below their reset threshold (R474). -/
  railBad  : Nat := 0
  railLow  : Nat := 0
  /-- The chip is held in reset (R480): by the rails or the 2 ms after them, by RESET_N, by the die temperature; after
  the last of them, until the core PLL locks (R486). -/
  held     : Bool := false
  porHold  : Bool := false
  pinHold  : Bool := false
  hotHold  : Bool := false
  /-- Causes of the reset in progress, bits of `CLK_RST_CAUSE` (R485); PFAIL_N has fallen since the latest reset. -/
  causes   : Nat := 0
  pfailed  : Bool := false
  /-- Raises of the safety island that wait for the fault collector, which the chip reset holds (R32). -/
  raised   : List Nat := []
  /-- The straps and PRB words that the release waits to take (R486, R525). -/
  start    : StartIn := ⟨0, 0, false, false, []⟩
  /-- Since when the rails of groups 1 to 4 are above their reset thresholds (R474). -/
  goodAt   : Time := 0
  /-- Instant of the release of the islands, from which `SCH_TICK` counts (R429). -/
  t0       : Time := 0
  /-- Islands without a clock in their band, by fault source less 0x080 (R29). -/
  noClock  : List Nat := []
  /-- The core rail's monitor shows it outside 630 to 870 mV, and the latest S is below CRIT (R478). -/
  coreBad  : Bool := false
  critLow  : Bool := false
  /-- Instant of the latest period of the loop; the set voltage in 0.5 mV (R477). -/
  avsAt    : Time := 0
  vset     : Nat := 1600
  /-- The valid challenge that the running check was given (R494). -/
  chal     : Option (List Byte) := none
  /-- ENTRY of the image that runs: where core 0 started (R490). -/
  entry    : Nat := 0
  /-- Fused hashes: of the image key, of the debug root key (R490, R494). -/
  fuseKey  : Nat := 0
  fuseDbg  : Nat := 0
  /-- The JTAG instruction in force drives balls (R495). -/
  jtagDrives : Bool := false
  deriving DecidableEq, Repr
/-! ### Treads (spec/08, spec/09) -/

/-- A gate output with its feedback: GA_HI 0, GA_LO 1, GB_HI 2, GB_LO 3. -/
structure TOut where
  on      : Bool := false
  /-- The feedback reports on. -/
  fb      : Bool := false
  /-- Hall time of the latest turn-off, its dead time, and the same instant while a sample of R265 is due. -/
  lastOff : Option Time := none
  dt      : Time := 0
  sample  : Option Time := none
  /-- t_filt, ns. -/
  tFilt   : Nat := 0
  /-- Latest mismatch: its start and, once the feedback agrees again, its end (R269). -/
  mis     : Option (Time × Option Time) := none
  /-- Hall time of the latest change of the output, and of the latest change of its feedback (R268). -/
  chg     : Time := 0
  fbChg   : Time := 0
  /-- High-side timer of R275: on-time before the present on interval, and its start. -/
  hsAcc   : Time := 0
  hsOn    : Time := 0
  deriving DecidableEq, Repr

/-- A turn-on that waits for its dead time or for feedback: the output, its earliest instant (R263, R264). -/
structure TTurnOn where
  out : Nat
  due : Time
  deriving DecidableEq, Repr

/-- What a commit copies (R271, R272): the shadow registers PER, PH, OPT and DUTY as they stood when the commit frame had
come, and how often each had been written. -/
structure TShadow where
  vals : List Word
  seqs : List Nat
  deriving DecidableEq, Repr

/-- A carriage command that waits for its action instant (R259). `run` is false in a frame with BLOCK = 1; `commit` holds
what the command commits. -/
structure TCmd where
  a      : Time
  state  : Nat
  mode   : Nat
  duty   : Nat
  run    : Bool
  commit : Option TShadow
  cyc    : Nat
  deriving DecidableEq, Repr

/-- A bypass sequence (Table 6 of spec/08): start, started by the guard, instant of confirmation, instant of firing. -/
structure TByp where
  start : Time
  guard : Bool
  conf  : Option Time := none
  fired : Option Time := none
  deriving DecidableEq, Repr

/-- What a Tread holds of a cart request it has read (R206): the position, the request, its own reply, and its bit of
a mask reply (true DONE). -/
structure TRep where
  c    : Nat
  req  : Slot
  ans  : Option Slot := none
  mask : Option Bool := none
  deriving DecidableEq, Repr

/-- A frame on its outbound pass, as the Tread needs it on the inbound pass. -/
structure TFrame where
  cyc   : Nat
  ftype : Nat
  dir   : Nat
  pfar  : Nat
  hop   : Nat
  acc   : Bool
  valid : Bool
  dlerr : Bool
  /-- t-hat, arrival of FRAME_START and end of the slot CRC in the Tread's hall time. -/
  tHat  : Time
  aHat  : Time
  outAt : Time
  /-- The frame has come back on its inbound pass. -/
  back  : Bool := false
  reps  : List TRep := []
  deriving DecidableEq, Repr

/-- A thread of the Tread's scheduler: 0 suspended, 1 ready, 2 waiting, 3 sleeping; wake tick; latest WAIT timed out, and
the tick in which it did. -/
structure TThread where
  st   : Nat := 0
  prio : Nat := 0
  wake : Option Nat := none
  tout : Bool := false
  toutAt : Nat := 0
  deriving DecidableEq, Repr

/-- A lane port of a Tread beside its register bits: it has had lock since reset, its last 4 blocks were LINK_FAULT, it
receives FAREND, and the fault role taken on it (0 none, else CAUSE) (R201, R541). -/
structure TLane where
  ever  : Bool := false
  lf    : Bool := false
  fe    : Bool := false
  role0 : Bool := true
  fault : Nat := 0
  deriving DecidableEq, Repr

structure Tread where
  regs    : Store Word := []
  /-- The registers as they stood before the present instant (R9), and register writes that wait for a grant (R36, R37). -/
  before  : Store Word := []
  asks    : List TAsk := []
  /-- Supply good: the guard island runs and the lane ports are on. -/
  powered : Bool := false
  /-- Since when VDD33 is below its falling threshold (R502, R523). -/
  lowAt   : Option Time := none
  /-- Local time, hall time, and the part of a unit below it; rho_P and rho_I (R239). -/
  now     : Time := 0
  hall    : Time := 0
  resid   : Nat := 0
  rhoP    : Int := 0
  rhoI    : Int := 0
  lastOffs : Option Time := none
  bootAt  : Time := 0
  /-- Consecutive valid frames inside, and outside, LOCKWIN; the latest 256 values of b - a (R237); time offset active. -/
  goodTh  : Nat := 0
  badTh   : Nat := 0
  dHist   : List Nat := []
  timeOff : Bool := false
  near    : TLane := {}
  far     : TLane := {}
  cmdRole : Bool := false
  /-- End of the stale side (R377), local time. -/
  staleEnd : Time := 0
  /-- RATE go received: cycle and target (R217). -/
  rateAt  : Option (Nat × Bool) := none
  frames  : List TFrame := []
  /-- The frames on the downstream and the upstream transmit lane, and the control block that each lane port, near and far,
  sends between frames, none while it is off (R185, R204, R290). -/
  txDown  : BitVec 5888 := 0
  txUp    : BitVec 5888 := 0
  idleN   : Option Dword := none
  idleF   : Option Dword := none
  /-- Counter of the free values of the Tread: the model's own field. -/
  freeCtr : Nat := 0
  outs    : List TOut := [{}, {}, {}, {}]
  turnOnA : Option TTurnOn := none
  turnOnB : Option TTurnOn := none
  /-- Commands not yet at their action instants, in the order of arrival, and the later edge of the latest command:
  instant and level (carriage STATE encoding). -/
  cmds    : List TCmd := []
  edge2   : Option (Time × Nat) := none
  /-- How often the shadows PER, PH, OPT and DUTY have been written, and how often when they were committed last (R272). -/
  shW     : List Nat := [0, 0, 0, 0]
  shC     : List Nat := [0, 0, 0, 0]
  /-- A command that waits for the end of a refresh notch (R276), the notch's end, and the end of the latest notch. -/
  defer   : Option TCmd := none
  notchTo : Option Time := none
  refrEnd : Option Time := none
  /-- The high-side timer expired, in carrier mode (R277). -/
  reqAt   : Option Time := none
  carrier : Bool := false
  byp     : Option TByp := none
  /-- Start of the latest test of BYP, and the end of its pulse on the ball (R280). -/
  testAt  : Option Time := none
  bypPulse : Option Time := none
  /-- Blocked by a command (R281). -/
  byCmd   : Bool := false
  lateAct : Bool := false
  /-- The latest THY_FIRE pulse, the gate-fault inputs, those whose row of Table 6 of spec/09 has started, and the instant
  from which SUPOK has been high. -/
  thyAt   : Option Time := none
  fltIn   : Nat := 0
  fltOn   : Nat := 0
  supSince : Option Time := none
  /-- Landing table: target cycle and entry by slot (R282); latest valid frame: cycle and t-hat; watchdog expired;
  instant of the latest valid frame for the guard island's watchdog. -/
  land    : Store (Option (Nat × Word)) := []
  k0      : Option (Nat × Time) := none
  lost    : Bool := false
  validAt : Time := 0
  /-- V_OV at arming and in use, µV (R291). -/
  ovArm   : Nat := 0
  vOv     : Nat := 0
  ovHeld  : Bool := false
  /-- The latest measurement of OV_SET is a strap fault; the guard's condition has started (R291, R293, R307). -/
  ovBad   : Bool := false
  ovOn    : Bool := false
  /-- ADC: next sequencer slot, latest VCAP conversions, newest first (sampling instant, code, OVR), detector counts by row
  of Table 6. -/
  seqPos  : Nat := 0
  vcaps   : List (Time × Nat × Bool) := []
  cntBad  : Store Nat := []
  cntGood : Store Nat := []
  /-- Fault codes waiting (FCODE), uplinks that carried the oldest, next SEQ (R307, R319). -/
  fq      : List Nat := []
  fqSent  : Nat := 0
  fqSeq   : Nat := 0
  /-- The codes of the detectors that started in the present clock, in order, and how many of them are queued (R307). -/
  fqAt    : Time := 0
  fqNow   : List Nat := []
  fqNowN  : Nat := 0
  /-- MRAM slots: bytes by Tread MRAM address. -/
  mram    : List Host.Cell := []
  /-- Fused hash of the image key (R297). -/
  fuseKey : Nat := 0
  threads : Store TThread := []
  running : Option Nat := none
  deriving DecidableEq, Repr


/-! ### Cores and thread scheduler (spec/14) -/

/-- A thread of the scheduler beside `SCH_THRt_CFG` and `SCH_THRt_STAT`: the tick that ends its wait, the inner queue
or the cycle it waits for, SUSP and the ticket of its latest FLOW_ENTER for `SCH_RES`. -/
structure Thr where
  wake : Option Nat := none
  q    : Option Nat := none
  cyc  : Option Nat := none
  /-- What its latest operation leads to: TIMEOUT, LATE, SUSP and TICKET (R435); the tick of a time-out and the queue it
  waited for. -/
  tout : Bool := false
  late : Bool := false
  toutAt : Option (Nat × Option Nat) := none
  susp : Bool := false
  tick : Nat := 0
  /-- In FLOW: it waits to release its ticket (else for a ticket). -/
  rel  : Bool := false
  deriving DecidableEq, Repr

/-- An ordered flow (R438, R439): outstanding tickets with their threads, oldest first, and the threads that wait for a
ticket, in order. -/
structure Flow where
  out   : List (Nat × Nat) := []
  enter : List Nat := []
  deriving DecidableEq, Repr

structure SchSt where
  threads  : Store Thr := []
  flows    : Store Flow := []
  /-- Threads whose tickets have been released and that are not yet ready: one becomes ready per dispatch slot (R439). -/
  released : List Nat := []
  /-- Dispatch interrupts pending, bit c. -/
  irq      : Nat := 0
  /-- Threads already counted as deferred at GEN_CONT10 (R39). -/
  counted  : List Nat := []
  deriving DecidableEq, Repr

/-! ### CAN FD controllers (spec/16) -/

/-- A frame that waits to be sent: its 24 words (Table 3), whether it came from the transmit ring, failed attempts,
CANCEL has named it while it was on the bus, GEN_CONT8 or 9 has counted it. -/
structure CanTx where
  words   : List Word
  ring    : Bool := false
  tries   : Nat := 0
  cancel  : Bool := false
  counted : Bool := false
  deriving DecidableEq, Repr

/-- A received frame: its 24 words and its place in the order of arrival at the controller. -/
structure CanRx where
  words : List Word
  num   : Nat
  deriving DecidableEq, Repr

/-- A controller beside its registers; the content of a safety mailbox is in `CAN_SMBm`. -/
structure CanSt where
  /-- Instant at which bus integration or recovery began (R459, R465). -/
  since : Time := 0
  txq   : List CanTx := []
  urg   : Option CanTx := none
  /-- The frame offered to arbitration or on the bus: true the urgent frame, false the head. -/
  bus   : Option Bool := none
  /-- Staging areas: word n of requester q (cores 0 to 3, host 4) at 32q + n. -/
  txs   : Store Word := []
  rx0   : List CanRx := []
  rx1   : List CanRx := []
  seq0  : Nat := 0
  seq1  : Nat := 0
  num   : Nat := 0
  /-- Pending frames of the safety mailboxes. -/
  pend  : Store (Option (List Word)) := []
  /-- The restricted operation mode in effect (R466). -/
  restr : Bool := false
  deriving DecidableEq, Repr

/-! ### The machine -/

structure State where
  /-- Registers of the hub by BAR0 offset, and the copy in effect since the latest cycle start. -/
  regs    : Store Word := []
  eff     : Store Word := []
  clk     : ClkSt := {}
  prb     : PrbSt := {}
  pwr     : PwrSt := {}
  /-- Requests that wait at a resource of Table 6 of spec/01, in order of grant, by resource number (R36, R37). -/
  arb     : Store (List WaitReq) := []
  flt     : FltSt := {}
  evc     : Store EvcCounter := []
  recd    : RecSt := {}
  host    : HostSt := {}
  /-- Host memory that the part has written. -/
  hostMem : List Host.Cell := []
  /-- Core memory, by core address (spec/14, Table 1). -/
  coreMem : List Host.Cell := []
  ports   : Store Port := []
  mi      : Store MiChan := []
  miApply : Bool := false
  /-- The latest 256 outputs of each channel and preset with their output instants, newest first, at 4c + p. -/
  miLog   : Store (List (Time × Word)) := []
  /-- The latest 8 of them that carried no flag when they were made, kept until reset, at 4c + p (R112). -/
  miHeld  : Store (List (Time × Word)) := []
  ace     : AceSt := {}
  gal     : GalSt := {}
  /-- Treads by local index. -/
  treads  : Store Tread := []
  /-- Latest accepted uplink carriage and latest downlink carriage sent, by local index, and the cell state window:
  word w of local index i at 16i + w (R405). -/
  uplinks   : Store Slot := []
  downlinks : Store Slot := []
  cellWin   : Store Word := []
  saf     : SafSt := {}
  stk     : StkSt := {}
  sch     : SchSt := {}
  /-- CAN FD controllers by number. -/
  can     : Store CanSt := []
  /-- Counter of free values: the model's own field. -/
  freeCtr : Nat := 0
  /-- Value that the latest read command returned. -/
  rdata   : Word := 0
  /-- Commands that wait, first in first out. -/
  pending : List Instr := []
  deriving DecidableEq, Repr

/-- The machine right after reset (log entry 1). -/
def State.reset : State := {}

end Sys2Proof.Machine
end

