-- ==== Sys2Proof/Machine/Regs.lean ====
section
/-!
DEFINITION. Machine/Regs.lean: the registers as storage: what each reads after reset, and the plain read and write of
one register. Every register has this one home; the views that are computed when they are read are in Machine/Bus.lean.
-/

namespace Sys2Proof.Machine

/-- `d` is a sum of a multiple of each stride, each below its count. -/
def inDims (d : Nat) (l : List (Nat × Nat)) : Bool :=
  match l with
  | [] => d == 0
  | (st, n) :: r => decide (d / st < n) && inDims (d % st) r

def RegRow.has (r : RegRow) (off : Nat) : Bool := decide (r.base ≤ off) && inDims (off - r.base) r.dims

/-- The row of the register map that lists a BAR0 offset (or a core-local page above BAR0). -/
def regRow (off : Nat) : Option RegRow := (blockRows off).find? (fun r => RegRow.has r off)
/-- The row of a Tread register. -/
def treadRow (off : Nat) : Option RegRow := rowsTread.find? (fun r => RegRow.has r off)

/-- What a register reads after reset when nothing has written it: the reset value, for a `kept` register the factory
value. The severities of R318 and the core run bits of Table 5 of spec/14 differ by index; an MSI-X vector is masked (log
entry 65). -/
def hubReset (off : Nat) : Word :=
  if R.FLT_SEV 0 ≤ off ∧ off < R.FLT_SEV 0x220 ∧ off % 4 = 0 then BitVec.ofNat 32 (sevReset ((off - R.FLT_SEV 0) / 4))
  else if off = R.SCH_CORE_CTRL 0 then 1
  else if off = R.SAF_PCRC_ACT then 0x9919AE31
  else if 0x470000 ≤ off ∧ off < 0x470800 ∧ off % 16 = 12 then 1
  else
    match regRow off with
    | some r => BitVec.ofNat 32 r.reset
    | none => 0

def treadReset (off : Nat) : Word :=
  match treadRow off with
  | some r => BitVec.ofNat 32 r.reset
  | none => 0

/-- A register of the hub. -/
def State.reg (s : State) (off : Nat) : Word := Store.get s.regs (hubReset off) off
def State.setReg (s : State) (off : Nat) (v : Word) : State :=
  { s with regs := Store.put s.regs (hubReset off) off v }
/-- A register as it stood before the present instant (R9). -/
def State.before (s : State) (off : Nat) : Word := Store.get s.clk.before (hubReset off) off
/-- The copy of a register that is in effect since the latest cycle start. -/
def State.ereg (s : State) (off : Nat) : Word := Store.get s.eff (hubReset off) off

end Sys2Proof.Machine
end

