-- ==== Sys2Proof/Machine/Ops.lean ====
section
/-!
DEFINITION. Machine/Ops.lean: the named operations over registers, time, counters and grants that every family of
commands uses. A register is read and written through `State.rd` and `State.wr` by field; a field that takes effect
at a cycle start is read through `State.erd`, from the copy in effect.
-/

namespace Sys2Proof.Machine

/-! Fields. -/

def State.rd (s : State) (f : Fld) : Nat := bits (s.reg f.reg).toNat f.lo f.w
def State.rdB (s : State) (f : Fld) : Bool := s.rd f != 0
def State.rdI (s : State) (f : Fld) : Int := sext f.w (s.rd f)
/-- The field's value in effect since the latest cycle start. -/
def State.erd (s : State) (f : Fld) : Nat := bits (s.ereg f.reg).toNat f.lo f.w
def State.erdB (s : State) (f : Fld) : Bool := s.erd f != 0

def State.wr (s : State) (f : Fld) (v : Nat) : State :=
  s.setReg f.reg (BitVec.ofNat 32 (setBits (s.reg f.reg).toNat f.lo f.w v))
def State.wrB (s : State) (f : Fld) (b : Bool) : State := s.wr f (b2n b)
def State.wrI (s : State) (f : Fld) (i : Int) : State := s.wr f (toField f.w i)
/-- Add to a saturating counter field. -/
def State.incSat (s : State) (f : Fld) (n : Nat := 1) : State := s.wr f (min (s.rd f + n) (2 ^ f.w - 1))
/-- Add to a wrapping counter field. -/
def State.incWrap (s : State) (f : Fld) (n : Nat := 1) : State := s.wr f (s.rd f + n)
/-- Set bit `i` of a field. -/
def State.setBit (s : State) (f : Fld) (i : Nat) (b : Bool) : State := s.wr ⟨f.reg, f.lo + i, 1⟩ (b2n b)
def State.getBit (s : State) (f : Fld) (i : Nat) : Bool := bitOf (s.rd f) i

/-! Time. -/

/-- `n` nanoseconds. -/
def ns (n : Nat) : Time := n * 65536

/-- The instant 100 ns: the margin of R324, R325, R418 and R419. -/
def margin : Time := ns 100

/-- Hall-time seconds, nanoseconds and fraction (R226). -/
def hallS (h : Time) : Nat := h / 65536 / 1000000000
def hallNs (h : Time) : Nat := h / 65536 % 1000000000
def hallFr (h : Time) : Nat := h % 65536

/-- Time passes to instant `t`: hall time advances at (1 + rho_I + rho_P) times the nominal rate (R231). An instant
that has passed already changes nothing. -/
def State.advance (s : State) (t : Time) : State :=
  if t ≤ s.clk.now then s
  else
    let d : Int := (t - s.clk.now : Nat)
    let x : Int := d * (2 ^ 40 + s.clk.rhoI + s.clk.rhoP) + s.clk.resid
    { s with clk := { s.clk with now := t, hall := ((s.clk.hall : Int) + x / 2 ^ 40).toNat,
                                 resid := (x % 2 ^ 40).toNat, before := s.regs } }

/-- The cycle length in effect, in ns (R48). -/
def State.cycNs (s : State) : Nat := s.erd F.GEN_CYC_LEN_LEN * 10
def State.cycT (s : State) : Time := ns s.cycNs
/-- The present cycle number (R51). -/
def State.cyc (s : State) : Nat := s.rd F.GEN_CYC_NUM_NUM

/-- Hall time of the next cycle start: the first grid point after the release (R487), then one cycle later, lengthened
toward the grid by at most T/20 while the sequencer aligns (R227, R228). -/
def State.nextStart (s : State) : Time :=
  let T := max 1 s.cycT
  if !s.clk.started then T
  else
    let gap := (T - s.clk.tkHall % T) % T
    s.clk.tkHall + T + (if s.rdB F.HT_STAT_ALIGNING then min (T / 20) gap else 0)

/-- The instant at which hall time comes to `h`, by the rates of R231. -/
def State.hallInstant (s : State) (h : Time) : Time :=
  if h ≤ s.clk.hall then s.clk.now
  else
    let q : Int := 2 ^ 40 + s.clk.rhoI + s.clk.rhoP
    s.clk.now + ceilDiv ((h - s.clk.hall) * 2 ^ 40) q.toNat

/-- Hall time passes to `h`. -/
def State.advanceHall (s : State) (h : Time) : State :=
  if h ≤ s.clk.hall then s
  else { s with clk := { s.clk with now := s.hallInstant h, hall := h, resid := 0, before := s.regs } }

/-- `RP_STAT.STATE` of a port: 0 OFF, 1 LINK, 2 ENUM, 3 RUN, 4 FAR, 5 HALT. -/
def State.pst (s : State) (q : Nat) : Nat := s.rd (F.RP_STAT_STATE q)

/-- The cycle before the present one. -/
def State.prevCyc (s : State) : Nat :=
  match s.clk.starts with
  | _ :: p :: _ => p.1
  | _ => (s.cyc + 2 ^ 32 - 1) % 2 ^ 32

/-- The cycle that contains hall time `h`, among the latest cycle starts; the present one when none does. -/
def State.cycAt (s : State) (h : Time) : Nat :=
  match s.clk.starts.find? (fun p => p.2.2 ≤ h) with
  | some p => p.1
  | none => s.cyc

/-! Event counters (R508 to R510) and contention counters (R39). -/

def EvcCounter.add (src n : Nat) (c : EvcCounter) : EvcCounter :=
  if c.src = src then
    { c with count := (c.count + n) % 2 ^ 48, wrap := c.wrap || decide (2 ^ 48 ≤ c.count + n) }
  else c

/-- `n` events of source `src` of Table 2 of spec/18. -/
def State.count (s : State) (src : Nat) (n : Nat := 1) : State :=
  if s.rdB F.EVC_CTRL_FREEZE then s
  else { s with evc := s.evc.map (fun p => (p.1, p.2.add src n)) }

/-- `n` requests deferred at resource `i` of Table 6 of spec/01. -/
def State.defer (s : State) (i n : Nat) : State :=
  if n = 0 then s else (s.incSat (F.GEN_CONT_COUNT i) n).count (0x100 + i) n

/-! Topology in effect (R16, R17, R20, R21, R45). -/

/-- The configured duplication mode equals the strap and is not reserved. -/
def State.modeOk (s : State) : Bool :=
  s.erd F.GEN_TOPO_DUP_MODE == s.rd F.GEN_TOPO_DUP_STRAP && s.erd F.GEN_TOPO_DUP_MODE != 3

/-- 0 none, 1 path-only, 2 whole-unit; a mode that does not equal the strap does not take effect. -/
def State.dupMode (s : State) : Nat := if s.modeOk then s.erd F.GEN_TOPO_DUP_MODE else 0

/-- The ring field as it is treated: 0 to 5, or 15 (R45). -/
def State.ringField (s : State) (r : Nat) : Nat :=
  let v := s.erd (F.GEN_RING_ARM_RING_ARM (r / 8) (r % 8))
  if v < 6 && !(s.dupMode == 1 && r % 2 == 1) then v else 15

/-- A ring field that R45 treats as no arm although it holds another value. -/
def State.badRingField (s : State) (r : Nat) : Bool :=
  let v := s.erd (F.GEN_RING_ARM_RING_ARM (r / 8) (r % 8))
  v != 15 && (5 < v || (s.dupMode == 1 && r % 2 == 1))

/-- A port in HALT makes its ring belong to no arm for the gallery (Table 14 of spec/06). -/
def State.armOf (s : State) (r : Nat) : Option Nat :=
  let v := s.ringField r
  if v < 6 then some v else none

/-- The rings of arm `a`, rising. -/
def State.ringsOf (s : State) (a : Nat) : List Nat :=
  (List.range 32).filter (fun r => s.armOf r == some a)

/-- The arm is enabled, its TYPE is not reserved and it has a ring in effect (R17). -/
def State.armOn (s : State) (a : Nat) : Bool :=
  s.erdB (F.GEN_ARM_CFG_EN a) && s.erd (F.GEN_ARM_CFG_TYPE a) != 3 && !(s.ringsOf a).isEmpty

def State.deblocked (s : State) (a : Nat) : Bool := s.rdB (F.HQ_ARM_STAT_DEBLOCKED a)
def State.anyDeblocked (s : State) : Bool := (List.range 6).any s.deblocked

/-- The arm of the ring is deblocked; a ring of no arm has no deblocked arm. -/
def State.ringDeblocked (s : State) (r : Nat) : Bool :=
  match s.armOf r with
  | some a => s.deblocked a
  | none => false

/-- A Tread's record by local index (R24). -/
def State.port (s : State) (r : Nat) : Port := Store.get s.ports {} r
def State.setPort (s : State) (r : Nat) (p : Port) : State := { s with ports := Store.put s.ports {} r p }
def State.updPort (s : State) (r : Nat) (f : Port → Port) : State := s.setPort r (f (s.port r))

def State.hring (s : State) (n : Nat) : HostRing := Store.get s.host.rings {} n
def State.setHring (s : State) (n : Nat) (h : HostRing) : State :=
  { s with host := { s.host with rings := Store.put s.host.rings {} n h } }
def State.updHring (s : State) (n : Nat) (f : HostRing → HostRing) : State := s.setHring n (f (s.hring n))

/-- Hops over which messages of hub `d` come on a ring; 0 while none comes: its path is broken once no heartbeat has come
on it for 4 cycles (R389; DESIGN CHOICE, log entry 80). -/
def State.pathHops (s : State) (ringB : Bool) (d : Nat) : Nat :=
  let h := Store.get s.stk.hubs {} d
  match (if ringB then h.atB else h.atA) with
  | some k => if (s.cyc + 2 ^ 32 - k % 2 ^ 32) % 2 ^ 32 < 4 then Store.get (if ringB then s.stk.hopB else s.stk.hopA) 0 d else 0
  | none => 0

/-- The Titajor ring on which a unicast to hub `dst` leaves: the one with fewer hops, ring A on a tie, the other while
that path is broken (R389). The path out on ring A is the one on which that hub's messages come in on ring B. -/
def State.farRing (s : State) (dst : Nat) : Bool :=
  let a := s.pathHops true dst
  let b := s.pathHops false dst
  if a = 0 then b != 0 else b != 0 && decide (b < a)

/-! Memories: lists of (address, byte) in canonical form. -/

/-- The canonical form of a memory: addresses strictly rising, no byte 0, which an unlisted address reads as. -/
abbrev Memory.wf (m : List Host.Cell) : Prop := Store.Wf m (fun _ => (0 : Byte))

/-- A byte of a memory; a byte that nothing has written reads as 0. -/
def readByte (m : List Host.Cell) (a : Nat) : Byte := Store.get m 0 a
def writeByte (m : List Host.Cell) (a : Nat) (b : Byte) : List Host.Cell := Store.put m 0 a b

/-- `n` bytes of a number, lowest byte at the lowest address (R5). -/
def writeBytes (m : List Host.Cell) (a n v : Nat) : List Host.Cell :=
  match n with
  | 0 => m
  | k + 1 => writeBytes (writeByte m a (BitVec.ofNat 8 v)) (a + 1) k (v / 256)

/-- `n` bytes from address `a`, the lowest first. -/
def byteList (m : List Host.Cell) (a n : Nat) : List Byte := (List.range n).map (fun i => readByte m (a + i))

def readBytes (m : List Host.Cell) (a n : Nat) : Nat :=
  match n with
  | 0 => 0
  | k + 1 => (readByte m a).toNat + 256 * readBytes m (a + 1) k

/-- A free value, fresh at each use: the opaque constant of Config at the state's counter (the model's own field). -/
def State.free (s : State) : Nat := Config.freeValue s.freeCtr
def State.tick (s : State) : State := { s with freeCtr := s.freeCtr + 1 }

/-! Grants (R36 to R39). -/

/-- The place of a requester in the rows of Table 6 that name it. -/
def Requester.rank : Requester → Nat
  | .safety => 0
  | .hubHw => 1
  | .core c => 2 + c.val
  | .cartRing n => 6 + n.val
  | .host => 10
  | .jtag => 11

/-- The waiting requests with the new ones of this slot behind them in the order of the row; the safety island's
requests go ahead of every waiting request (R37). `lt` orders the new requests of one slot. -/
def place {α : Type} (safety : α → Bool) (lt : α → α → Bool) (waiting news : List α) : List α :=
  let new := news.foldl (fun l x => (l.filter (fun y => !lt x y)) ++ [x] ++ l.filter (fun y => lt x y)) []
  waiting.filter safety ++ new.filter safety ++ waiting.filter (fun x => !safety x) ++ new.filter (fun x => !safety x)

/-- The waiting requests (false) and the new ones of a slot (true) in the order of their grants. -/
def slotOrder {α : Type} (safety : α → Bool) (lt : α → α → Bool) (waiting news : List α) : List (Bool × α) :=
  place (fun x => safety x.2) (fun x y => lt x.2 y.2) (waiting.map (fun x => (false, x))) (news.map (fun x => (true, x)))

/-- The new requests among those that a slot has not granted (R39). -/
def lateNews {α : Type} (l : List (Bool × α)) : Nat := (l.filter (fun x => x.1)).length

/-- The first request of each key, and the others, each in their order: one grant per register and slot (R36). -/
def firstEach {α : Type} (key : α → Nat) (l : List α) : List α × List α :=
  l.foldl (fun x a => if x.1.any (fun g => key g == key a) then (x.1, x.2 ++ [a]) else (x.1 ++ [a], x.2)) ([], [])

def WaitReq.lt (a b : WaitReq) : Bool :=
  Requester.rank a.who < Requester.rank b.who || (Requester.rank a.who == Requester.rank b.who && a.key < b.key)
def WaitReq.isSafety (a : WaitReq) : Bool := a.who == .safety

def State.waiting (s : State) (res : Nat) : List WaitReq := Store.get s.arb [] res
def State.setWaiting (s : State) (res : Nat) (l : List WaitReq) : State := { s with arb := Store.put s.arb [] res l }

end Sys2Proof.Machine
end

