-- ==== Sys2Proof/Machine/Crypto.lean ====
section
/-!
DEFINITION. Machine/Crypto.lean: SHA-384 and the verification of an ECDSA P-384 signature, which the checks of images and of
the debug certificate name (R297, R490, R494). The spec names the two algorithms and defines neither: they are those of
FIPS 180-4 and FIPS 186 (PRESUMED, log entry 79).
-/

namespace Sys2Proof.Machine

/-! SHA-384. -/

/-- The first 64 bits of the fractional parts of the cube roots of the first eighty primes. -/
def shaK1 : List Nat :=
  [0x428a2f98d728ae22, 0x7137449123ef65cd, 0xb5c0fbcfec4d3b2f, 0xe9b5dba58189dbbc, 0x3956c25bf348b538, 0x59f111f1b605d019,
   0x923f82a4af194f9b, 0xab1c5ed5da6d8118, 0xd807aa98a3030242, 0x12835b0145706fbe, 0x243185be4ee4b28c, 0x550c7dc3d5ffb4e2,
   0x72be5d74f27b896f, 0x80deb1fe3b1696b1, 0x9bdc06a725c71235, 0xc19bf174cf692694, 0xe49b69c19ef14ad2, 0xefbe4786384f25e3,
   0x0fc19dc68b8cd5b5, 0x240ca1cc77ac9c65, 0x2de92c6f592b0275, 0x4a7484aa6ea6e483, 0x5cb0a9dcbd41fbd4, 0x76f988da831153b5,
   0x983e5152ee66dfab, 0xa831c66d2db43210, 0xb00327c898fb213f, 0xbf597fc7beef0ee4, 0xc6e00bf33da88fc2, 0xd5a79147930aa725,
   0x06ca6351e003826f, 0x142929670a0e6e70, 0x27b70a8546d22ffc, 0x2e1b21385c26c926, 0x4d2c6dfc5ac42aed, 0x53380d139d95b3df,
   0x650a73548baf63de, 0x766a0abb3c77b2a8, 0x81c2c92e47edaee6, 0x92722c851482353b]
def shaK2 : List Nat :=
  [0xa2bfe8a14cf10364, 0xa81a664bbc423001, 0xc24b8b70d0f89791, 0xc76c51a30654be30, 0xd192e819d6ef5218, 0xd69906245565a910,
   0xf40e35855771202a, 0x106aa07032bbd1b8, 0x19a4c116b8d2d0c8, 0x1e376c085141ab53, 0x2748774cdf8eeb99, 0x34b0bcb5e19b48a8,
   0x391c0cb3c5c95a63, 0x4ed8aa4ae3418acb, 0x5b9cca4f7763e373, 0x682e6ff3d6b2b8a3, 0x748f82ee5defb2fc, 0x78a5636f43172f60,
   0x84c87814a1f0ab72, 0x8cc702081a6439ec, 0x90befffa23631e28, 0xa4506cebde82bde9, 0xbef9a3f7b2c67915, 0xc67178f2e372532b,
   0xca273eceea26619c, 0xd186b8c721c0c207, 0xeada7dd6cde0eb1e, 0xf57d4f7fee6ed178, 0x06f067aa72176fba, 0x0a637dc5a2c898a6,
   0x113f9804bef90dae, 0x1b710b35131c471b, 0x28db77f523047d84, 0x32caab7b40c72493, 0x3c9ebe0a15c9bebc, 0x431d67c49c100d4c,
   0x4cc5d4becb3e42b6, 0x597f299cfc657e2a, 0x5fcb6fab3ad6faec, 0x6c44198c4a475817]

/-- The initial hash value of SHA-384. -/
def shaInit : List Nat :=
  [0xcbbb9d5dc1059ed8, 0x629a292a367cd507, 0x9159015a3070dd17, 0x152fecd8f70e5939, 0x67332667ffc00b31, 0x8eb44a8768581511,
   0xdb0c2e0d64f98fa7, 0x47b5481dbefa4fa4]

def add64 (a b : Nat) : Nat := (a + b) % 2 ^ 64
def rotr64 (x n : Nat) : Nat := (x >>> n) ||| ((x <<< (64 - n)) % 2 ^ 64)
def shaS0 (x : Nat) : Nat := rotr64 x 28 ^^^ rotr64 x 34 ^^^ rotr64 x 39
def shaS1 (x : Nat) : Nat := rotr64 x 14 ^^^ rotr64 x 18 ^^^ rotr64 x 41
def shaG0 (x : Nat) : Nat := rotr64 x 1 ^^^ rotr64 x 8 ^^^ (x >>> 7)
def shaG1 (x : Nat) : Nat := rotr64 x 19 ^^^ rotr64 x 61 ^^^ (x >>> 6)

/-- The eight working variables. -/
structure ShaSt where
  a : Nat
  b : Nat
  c : Nat
  d : Nat
  e : Nat
  f : Nat
  g : Nat
  h : Nat
  deriving DecidableEq, Repr

def shaRound (x : ShaSt) (kw : Nat) : ShaSt :=
  let ch := (x.e &&& x.f) ^^^ ((2 ^ 64 - 1 - x.e) &&& x.g)
  let maj := (x.a &&& x.b) ^^^ (x.a &&& x.c) ^^^ (x.b &&& x.c)
  let t1 := add64 (add64 x.h (shaS1 x.e)) (add64 ch kw)
  let t2 := add64 (shaS0 x.a) maj
  ⟨add64 t1 t2, x.a, x.b, x.c, add64 x.d t1, x.e, x.f, x.g⟩

/-- The message schedule, `l` newest word first. -/
def shaSchedule (n : Nat) (l : List Nat) : List Nat :=
  match n with
  | 0 => l.reverse
  | k + 1 =>
    let w := add64 (add64 (shaG1 (nth l 1 0)) (nth l 6 0)) (add64 (shaG0 (nth l 14 0)) (nth l 15 0))
    shaSchedule k (w :: l)

/-- One block of sixteen 64-bit words. -/
def shaBlock (h : List Nat) (block : List Nat) : List Nat :=
  let w := shaSchedule 64 block.reverse
  let kw := List.zipWith add64 (shaK1 ++ shaK2) w
  let x := kw.foldl shaRound
    ⟨nth h 0 0, nth h 1 0, nth h 2 0, nth h 3 0, nth h 4 0, nth h 5 0, nth h 6 0, nth h 7 0⟩
  List.zipWith add64 h [x.a, x.b, x.c, x.d, x.e, x.f, x.g, x.h]

/-- A big-endian number of bytes. -/
def beNum (l : List Byte) : Nat := l.foldl (fun a b => 256 * a + b.toNat) 0

/-- The words of a message of whole blocks. -/
def shaWords (l : List Byte) (n : Nat) : List Nat := (List.range n).map (fun i => beNum ((l.drop (8 * i)).take 8))

def shaBlocks (n : Nat) (h : List Nat) (l : List Byte) : List Nat :=
  match n with
  | 0 => h
  | k + 1 => shaBlocks k (shaBlock h (shaWords l 16)) (l.drop 128)

/-- SHA-384 of a list of bytes, as a number of 384 bits. -/
def sha384 (l : List Byte) : Nat :=
  let z := (239 - l.length % 128) % 128
  let len := (List.range 16).map (fun i => BitVec.ofNat 8 ((8 * l.length) >>> (8 * (15 - i))))
  let m := l ++ [0x80] ++ List.replicate z 0 ++ len
  ((shaBlocks (m.length / 128) shaInit m).take 6).foldl (fun a w => a * 2 ^ 64 + w) 0

/-! ECDSA over P-384. -/

def p384 : Nat := 2 ^ 384 - 2 ^ 128 - 2 ^ 96 + 2 ^ 32 - 1
/-- The order of the base point, b of the curve, and the base point. -/
def p384n : Nat :=
  0xffffffffffffffffffffffffffffffffffffffffffffffffc7634d81f4372ddf581a0db248b0a77aecec196accc52973
def p384b : Nat :=
  0xb3312fa7e23ee7e4988e056be3f82d19181d9c6efe8141120314088f5013875ac656398d8a2ed19d2a85c8edd3ec2aef
def p384gx : Nat :=
  0xaa87ca22be8b05378eb1c71ef320ad746e1d3b628ba79b9859f741e082542a385502f25dbf55296c3a545e3872760ab7
def p384gy : Nat :=
  0x3617de4a96262c6f5d9e98bf9292dc29f8f41dbd289a147ce9da3113b5f0b8c00a60b1ce1d7e819d7a431d7c90ea0e5f

/-- A point in Jacobian coordinates; z = 0 is the point at infinity. -/
structure EcPt where
  x : Nat
  y : Nat
  z : Nat
  deriving DecidableEq, Repr

def mulP (a b : Nat) : Nat := a * b % p384
def subP (a b : Nat) : Nat := (a + p384 - b) % p384

/-- Doubling on y^2 = x^3 - 3 x + b. -/
def EcPt.dbl (p : EcPt) : EcPt :=
  if p.z = 0 then p
  else
    let zz := mulP p.z p.z
    let yy := mulP p.y p.y
    let m := 3 * mulP (subP p.x zz) ((p.x + zz) % p384) % p384
    let s := 4 * mulP p.x yy % p384
    let x := subP (mulP m m) (2 * s % p384)
    ⟨x, subP (mulP m (subP s x)) (8 * mulP yy yy % p384), 2 * mulP p.y p.z % p384⟩

def EcPt.add (p q : EcPt) : EcPt :=
  if p.z = 0 then q
  else if q.z = 0 then p
  else
    let z1 := mulP p.z p.z
    let z2 := mulP q.z q.z
    let u1 := mulP p.x z2
    let u2 := mulP q.x z1
    let s1 := mulP p.y (mulP q.z z2)
    let s2 := mulP q.y (mulP p.z z1)
    let h := subP u2 u1
    let r := subP s2 s1
    if h = 0 then (if r = 0 then p.dbl else ⟨1, 1, 0⟩)
    else
      let hh := mulP h h
      let hhh := mulP h hh
      let v := mulP u1 hh
      let x := subP (subP (mulP r r) hhh) (2 * v % p384)
      ⟨x, subP (mulP r (subP v x)) (mulP s1 hhh), mulP (mulP p.z q.z) h⟩

/-- u G + v Q, from bit n - 1 down. -/
def ecMul2 (n : Nat) (u v : Nat) (g q gq : EcPt) (acc : EcPt) : EcPt :=
  match n with
  | 0 => acc
  | k + 1 =>
    let d := acc.dbl
    ecMul2 k u v g q gq
      (match u.testBit k, v.testBit k with
       | false, false => d
       | true, false => d.add g
       | false, true => d.add q
       | true, true => d.add gq)

/-- a^e modulo m, the lowest `n` bits of the exponent. -/
def powMod (n a e m : Nat) (acc : Nat) : Nat :=
  match n with
  | 0 => acc
  | k + 1 => powMod k (a * a % m) (e / 2) m (if e % 2 = 1 then acc * a % m else acc)

/-- The signature `r`, `s` over a hash verifies under the key with the coordinates `x` and `y`. -/
def ecdsaVerify (x y hash r s : Nat) : Bool :=
  if x < p384 ∧ y < p384 ∧ (x ≠ 0 ∨ y ≠ 0) ∧ mulP y y = (mulP (mulP x x) x + p384b + 3 * (p384 - x)) % p384 ∧
      0 < r ∧ r < p384n ∧ 0 < s ∧ s < p384n then
    let w := powMod 384 s (p384n - 2) p384n 1
    let g : EcPt := ⟨p384gx, p384gy, 1⟩
    let q : EcPt := ⟨x, y, 1⟩
    let a := ecMul2 384 (hash * w % p384n) (r * w % p384n) g q (g.add q) ⟨1, 1, 0⟩
    let zi := powMod 384 a.z (p384 - 2) p384 1
    a.z != 0 && mulP a.x (mulP zi zi) % p384n == r
  else false

/-- A SEC1 uncompressed public key of 97 bytes: 04, x, y. The signature is r then s, 48 bytes each, big-endian. -/
def sec1Verify (key sig : List Byte) (hash : Nat) : Bool :=
  key.head? == some 4 &&
    ecdsaVerify (beNum ((key.drop 1).take 48)) (beNum ((key.drop 49).take 48)) hash (beNum (sig.take 48))
      (beNum ((sig.drop 48).take 48))

end Sys2Proof.Machine
end

