-- ==== Sys2Proof/Machine/Frame.lean ====
section
/-!
DEFINITION. Machine/Frame.lean: the frame of a Chiskaha ring (R186 to R199, R205): where its items lie, its header,
carriages, carts, return word and check fields.
-/

namespace Sys2Proof.Machine

def fbits (f : Frame) (lo w : Nat) : Nat := bits f.toNat lo w
def fput (f : Frame) (lo w x : Nat) : Frame := BitVec.ofNat 5888 (setBits f.toNat lo w x)

/-! Check fields (R188). -/

def crc16 (w v : Nat) : Nat := revBits 16 (crcMsb 16 0x1021 0xFFFF (bitsLsb w v))
def crc32 (w v : Nat) : Nat := 2 ^ 32 - 1 - revBits 32 (crcMsb 32 0x04C11DB7 0xFFFFFFFF (bitsLsb w v))

def fcrcOf (f : Frame) : Nat := crc32 5856 f.toNat
def fcrcOk (f : Frame) : Bool := fbits f 5856 32 == fcrcOf f
def sealFrame (f : Frame) : Frame := fput f 5856 32 (fcrcOf f)
/-- The complement of the FCRC, which tells a failure onward (R189). -/
def sealBad (f : Frame) : Frame := fput f 5856 32 (2 ^ 32 - 1 - fcrcOf f)

/-! Lane coding (R181). A block is two bits of sync header, then 64 bits of payload, of which the scrambler makes the bits
on the lane; a receiver undoes it from the bits it has received, so its result does not rest on a state of its own. -/

/-- Sync headers: data block, control block. -/
def syncData : Nat := 1
def syncCtrl : Nat := 2

/-- The control block types of Table 1. -/
def blockTypes : List Nat := [0xB4, 0x1E, 0x2D, 0x4B]

/-- A receiver discards every other block. -/
def blockValid (sync payload : Nat) : Bool := sync == syncData || (sync == syncCtrl && blockTypes.contains (payload % 256))

/-- One payload through the scrambler x^58 + x^39 + 1; `prev`: the 64 scrambled bits before it, the latest in bit 63. -/
def scramble (prev x : Nat) : Nat :=
  let lo := (x ^^^ prev / 2 ^ 25 ^^^ prev / 2 ^ 6) % 2 ^ 39
  let hi := (x / 2 ^ 39 ^^^ lo ^^^ (prev / 2 ^ 45 + lo * 2 ^ 19)) % 2 ^ 25
  lo + hi * 2 ^ 39

/-- The payload of scrambled bits `y` behind `prev`. -/
def descramble (prev y : Nat) : Nat :=
  let lo := (y ^^^ prev / 2 ^ 25 ^^^ prev / 2 ^ 6) % 2 ^ 39
  let hi := (y / 2 ^ 39 ^^^ y % 2 ^ 39 ^^^ (prev / 2 ^ 45 + y % 2 ^ 39 * 2 ^ 19)) % 2 ^ 25
  lo + hi * 2 ^ 39

/-- The 92 blocks of a frame as sync headers and scrambled payloads, behind the 64 lane bits `prev` (R186). -/
def laneBlocks (prev : Nat) (f : Frame) : List (Nat × Nat) :=
  ((List.range 92).foldl (fun (a : Nat × List (Nat × Nat)) b =>
    let y := scramble a.1 (fbits f (64 * b) 64)
    (y, a.2 ++ [(if b = 0 then syncCtrl else syncData, y)])) (prev, [])).2

/-- A frame begins with a FRAME_START block; a receiver finds none in any other block (R181, R186). -/
def frameStart (f : Frame) : Bool := fbits f 0 8 == 0xB4

/-! Header (Table 4). -/

structure Header where
  ftype  : Nat
  dir    : Nat
  block  : Bool
  commit : Bool
  land   : Bool
  baseJ  : Nat
  lag    : Nat
  cycle  : Nat
  epoch  : Nat
  /-- Hall time of the first bit. -/
  e      : Time
  deriving DecidableEq, Repr

def ftControl : Nat := 1
def ftEnum0 : Nat := 2
def ftEnum1 : Nat := 3

/-- Header bits [175:0]. -/
def Header.word (h : Header) : Nat :=
  0xB4 + h.ftype % 8 * 2 ^ 8 + h.dir % 2 * 2 ^ 11 + b2n h.block * 2 ^ 12 + b2n h.commit * 2 ^ 13 + b2n h.land * 2 ^ 14
    + h.baseJ % 8 * 2 ^ 15 + h.lag % 2 ^ 14 * 2 ^ 18 + h.cycle % 2 ^ 32 * 2 ^ 32 + h.epoch % 2 ^ 16 * 2 ^ 64
    + hallS h.e % 2 ^ 48 * 2 ^ 80 + hallNs h.e * 2 ^ 128 + hallFr h.e * 2 ^ 160

def headerOf (f : Frame) : Header :=
  { ftype := fbits f 8 3, dir := fbits f 11 1, block := fbits f 12 1 == 1, commit := fbits f 13 1 == 1,
    land := fbits f 14 1 == 1, baseJ := fbits f 15 3, lag := fbits f 18 14, cycle := fbits f 32 32,
    epoch := fbits f 64 16, e := (fbits f 80 48 * 1000000000 + fbits f 128 30) * 65536 + fbits f 160 16 }

def hcrcOk (f : Frame) : Bool := fbits f 176 16 == crc16 176 (fbits f 0 176)

/-- The Tread's estimate of the cycle start (R193). -/
def Header.tHat (h : Header) : Time := h.e - h.lag * 4096

/-! Slots, carts and the return word (Table 2). -/

def slotOf (f : Frame) (s : Nat) : Slot := BitVec.ofNat 128 (fbits f (192 + 144 * s) 128)
def slotOk (f : Frame) (s : Nat) : Bool := fbits f (320 + 144 * s) 16 == crc16 128 (fbits f (192 + 144 * s) 128)
def putSlot (f : Frame) (s : Nat) (v : Slot) : Frame :=
  fput (fput f (192 + 144 * s) 128 v.toNat) (320 + 144 * s) 16 (crc16 128 v.toNat)

def cartOf (f : Frame) (c : Nat) : Slot := BitVec.ofNat 128 (fbits f (4800 + 128 * c) 128)
def cartOk (f : Frame) (c : Nat) : Bool := fbits f (4912 + 128 * c) 16 == crc16 112 (fbits f (4800 + 128 * c) 112)
/-- A cart with its CCRC. -/
def sealCart (v : Nat) : Slot := BitVec.ofNat 128 (v % 2 ^ 112 + crc16 112 (v % 2 ^ 112) * 2 ^ 112)
def putCart (f : Frame) (c : Nat) (v : Slot) : Frame := fput f (4800 + 128 * c) 128 v.toNat

def retOf (f : Frame) : Nat := fbits f 5824 32
def retHop (w : Nat) : Nat := bits w 0 6
def retPfar (w : Nat) : Nat := bits w 6 6
def retLbpos (w : Nat) : Nat := bits w 12 6
def retCause (w : Nat) : Nat := bits w 18 2
def retLbv (w : Nat) : Bool := bitOf w 20

/-- Bits of a carriage. -/
def sbits (v : Slot) (lo w : Nat) : Nat := bits v.toNat lo w

/-- The position that slot `s` carries (R194). -/
def slotPos (dir pfar s : Nat) : Option Nat :=
  if dir = 0 then (if s ≤ pfar ∧ pfar - s < 32 then some (pfar - s) else none)
  else (if pfar + s < 32 then some (pfar + s) else none)

/-- The slot that carries position `p` (R194). -/
def posSlot (dir pfar p : Nat) : Option Nat :=
  if dir = 0 then (if p ≤ pfar ∧ pfar - p < 32 then some (pfar - p) else none)
  else (if pfar ≤ p ∧ p - pfar < 32 then some (p - pfar) else none)

/-- A frame as its source emits it. -/
def mkFrame (h : Header) (slots : List Slot) (carts : List Slot) (hop pfar : Nat) : Frame :=
  let w := h.word
  let f : Frame := BitVec.ofNat 5888 (w + crc16 176 w * 2 ^ 176)
  let f := (List.range 32).foldl (fun f s => putSlot f s (nth slots s 0)) f
  let f := (List.range 8).foldl (fun f c => putCart f c (nth carts c (sealCart 0))) f
  sealFrame (fput f 5824 32 (hop % 64 + pfar % 64 * 64))

/-! Carts (Table 10). -/

def cOp (v : Slot) : Nat := sbits v 0 4
def cTag (v : Slot) : Nat := sbits v 4 6
def cPos (v : Slot) : Nat := sbits v 10 5
def cRpl (v : Slot) : Bool := sbits v 15 1 == 1
def cArg (v : Slot) : Nat := sbits v 16 16
def cData (v : Slot) : Nat := sbits v 32 64

def mkCart (op tag pos : Nat) (rpl : Bool) (arg data : Nat) : Slot :=
  sealCart (op % 16 + tag % 64 * 2 ^ 4 + pos % 32 * 2 ^ 10 + b2n rpl * 2 ^ 15 + arg % 2 ^ 16 * 2 ^ 16 + data % 2 ^ 64 * 2 ^ 32)

/-- Operations of Table 11. -/
def opRd : Nat := 1
def opWr : Nat := 2
def opBwr : Nat := 3
def opFwblk : Nat := 4
def opAdmit : Nat := 5
def opLink : Nat := 6
def opRate : Nat := 7
def opIdent : Nat := 8

/-- An operation with one target, and one that every admitted Tread answers in the masks. -/
def opUnicast (op : Nat) : Bool := op == 1 || op == 2 || op == 5 || op == 6 || op == 8
def opMask (op : Nat) : Bool := op == 3 || op == 4 || op == 7

/-- RSTAT of a reply. -/
def cRstat (v : Slot) : Nat := sbits v 28 4

/-! Downlink carriage (Table 5). -/

def mkDownlink (state mode edge duty lchunk lidx : Nat) (lval : Bool) : Slot :=
  BitVec.ofNat 128 (state % 8 + mode % 8 * 2 ^ 3 + edge % 2 ^ 24 * 2 ^ 6 + duty % 2 ^ 20 * 2 ^ 32
    + lchunk % 2 ^ 32 * 2 ^ 64 + lidx % 256 * 2 ^ 96 + b2n lval * 2 ^ 104)

/-! Uplink carriage (Tables 6 and 7). -/

def upUP (v : Slot) : Bool := sbits v 127 1 == 1
def upStatus (v : Slot) (b : Nat) : Bool := sbits v b 1 == 1
def upOutTs (v : Slot) : Nat := sbits v 80 20
def upInTs (v : Slot) : Nat := sbits v 100 20

end Sys2Proof.Machine
end

