-- ==== Sys2Proof/Machine/RecTrig.lean ====
section
/-!
DEFINITION. Machine/RecTrig.lean: what a firing of a recorder trigger source does (R447, R448, R450 to R452). It is
apart from the recorder's commands because a fault raise fires trigger 24.
-/

namespace Sys2Proof.Machine

def State.seg (s : State) (j : Nat) : Segment := Store.get s.recd.segs {} j
def State.setSeg (s : State) (j : Nat) (g : Segment) : State :=
  { s with recd := { s.recd with segs := Store.put s.recd.segs {} j g } }

/-- The number of the slice that holds cycle `k`: the cycle itself, or the first cycle of its interval (R444). -/
def State.sliceNo (s : State) (k : Nat) : Nat :=
  let red := s.rd F.REC_CTRL_RED
  if red = 0 then k else k - k % (red + 1)

/-- Number of slices from slice `a` to slice `b`. -/
def State.sliceDist (s : State) (a b : Nat) : Nat :=
  (b + 2 ^ 32 - a) % 2 ^ 32 / (s.rd F.REC_CTRL_RED + 1)

/-- A trigger that no segment can take is counted in LOST (R452); `err`: no segment is ARMED, so REC_ERR.LOST is set
and 0x0E4 is raised. -/
def State.trigLost (s : State) (cyc : Nat) (err : Bool) : State × List Nat :=
  let s := (s.incSat F.REC_CNT_LOST).count 0x00C
  let s := { s with recd := { s.recd with lostAt := s.recd.lostAt.orElse (fun _ => some cyc),
                                          lostN := s.recd.lostN + 1 } }
  if err then (s.wrB F.REC_ERR_LOST true, [0x0E4]) else (s, [])

/-- A trigger with its slice reaches the segment in ARMED or POST (R450, R451). -/
def State.segTrigger (s : State) (src : Nat) (cyc : Nat) (hall : Time) : State × List Nat :=
  let k := s.sliceNo cyc
  match s.recd.cur with
  | none => s.trigLost cyc true
  | some j =>
    let g := s.seg j
    if g.st = 1 then
      if serialLt k g.first ∨ s.rd F.REC_PP_PRE + 8 < s.sliceDist k (s.sliceNo s.cyc) then (s, [])
      else
        let s := s.setSeg j { g with st := 2, trigCyc := k, trigHall := hall, tsrc := 2 ^ src }
        ((s.wrB F.REC_STAT_POST true).incSat F.REC_CNT_TRIGS |>.count 0x00B, [])
    else
      let d := s.sliceDist g.trigCyc k
      if k = g.trigCyc then (s.setSeg j { g with tsrc := ofBits (bitList g.tsrc 26 ++ [src]) }, [])
      else if serialLt g.trigCyc k ∧ d ≤ s.rd F.REC_PP_POST then
        (s.setSeg j { g with tsrc := ofBits (bitList g.tsrc 26 ++ [src]), retrig := true }, [])
      else if serialLt k g.trigCyc then (s.setSeg j { g with tsrc := ofBits (bitList g.tsrc 26 ++ [src]) }, [])
      else
        match s.recd.held with
        | none => ({ s with recd := { s.recd with held := some (k, hall, 2 ^ src) } }, [])
        | some (k', h', m) =>
          if k' = k then
            ({ s with recd := { s.recd with held := some (k', h', ofBits (bitList m 26 ++ [src])) } }, [])
          else s.trigLost cyc false

/-- One trigger source fires in the hub's own recorder at hall time `hall` (R447): only while enabled, and once per
source and cycle. -/
def State.fireOne (s : State) (src : Nat) (hall : Time) : State × List Nat :=
  let cyc := s.cycAt hall
  let m := Store.get s.recd.trigs 0 cyc
  if !(bitOf (s.erd F.REC_TRG_EN_EN) src) || bitOf m src then (s, [])
  else
    let s := { s with recd := { s.recd with trigs := Store.put s.recd.trigs 0 cyc (m + 2 ^ src) } }
    if s.rdB F.REC_CTRL_EN then s.segTrigger src cyc hall else (s, [])

/-- Bus line `l` fires here, by the local drive or by the arrival of another hub's heartbeat: TBUS_OUTl is high for 1 us
(R531). -/
def State.pulseLine (s : State) (l : Nat) : State :=
  { s with recd := { s.recd with tbusOut := Store.put s.recd.tbusOut 0 l (s.clk.now + ns 1000) } }

/-- A local source drives bus line `l` (R448). -/
def State.driveLine (s : State) (l : Nat) : State :=
  let s := s.pulseLine l
  if s.recd.tbus.any (fun p => p.1 == l) then s
  else { s with recd := { s.recd with tbus := s.recd.tbus ++ [(l, s.clk.now)] } }

/-- A local trigger source fires: in the recorder, and on each bus line it drives, which also fires here (R448). -/
def State.fire (s : State) (src : Nat) (hall : Time) : State × List Nat :=
  let part := bitOf (s.erd F.REC_TRG_EN_EN) src
  let dup := bitOf (Store.get s.recd.trigs 0 (s.cycAt hall)) src
  let r := s.fireOne src hall
  if !part || dup || (4 ≤ src && src ≤ 7) then r
  else
    (List.range 4).foldl
      (fun r l =>
        if bitOf (r.1.erd (F.REC_TBUS_OUT_SRC l)) src then
          let q := (r.1.driveLine l).fireOne (4 + l) hall
          (q.1, r.2 ++ q.2)
        else r) r

end Sys2Proof.Machine
end

