-- ==== Sys2Proof/Machine/Wake.lean ====
section
/-!
DEFINITION. Machine/Wake.lean: the threads of the scheduler (spec/14) as far as other islands wake them: by an item in
an inner queue, by the start of a cycle.
-/

namespace Sys2Proof.Machine

def State.thr (s : State) (t : Nat) : Thr := Store.get s.sch.threads {} t
def State.setThr (s : State) (t : Nat) (x : Thr) : State :=
  { s with sch := { s.sch with threads := Store.put s.sch.threads {} t x } }
/-- STATE of a thread (Table 2). -/
def State.thrState (s : State) (t : Nat) : Nat := s.rd (F.SCH_THR_STAT_STATE t)
def State.setThrState (s : State) (t st : Nat) : State := s.wr (F.SCH_THR_STAT_STATE t) st

/-- A thread's wait ends and it is ready. -/
def State.makeReady (s : State) (t : Nat) : State :=
  (s.setThr t { s.thr t with wake := none, q := none, cyc := none }).setThrState t 1

/-- `SCH_TICK` (R429). -/
def State.schTick (s : State) : Nat := (s.clk.now - s.pwr.t0) / ns 10

/-- The time-out of thread `t` fell in the present tick, in a wait for queue `q` or for a signal. -/
def State.justOut (s : State) (t : Nat) (q : Option Nat) : Bool :=
  (s.thr t).tout && (s.thr t).toutAt == some (s.schTick, q)

/-- The condition of the wait comes in the tick of its time-out and wins (R437). -/
def State.condWins (s : State) (t : Nat) : State :=
  let s := (s.setThr t { s.thr t with tout := false, toutAt := none }).wrB (F.SCH_THR_STAT_TIMEOUT t) false
  s.wr F.SCH_CNT_TIMEOUTS (s.rd F.SCH_CNT_TIMEOUTS - 1)

/-- Every thread that waits for inner queue `q` becomes ready. -/
def State.wakeQueue (s : State) (q : Nat) : State :=
  let s := (s.sch.threads.filter (fun p => s.justOut p.1 (some q))).foldl (fun s p => s.condWins p.1) s
  (s.sch.threads.filter (fun p => p.2.q == some q)).foldl (fun s p => s.makeReady p.1) s

/-- Every thread that waits for the present cycle, or for one that it has passed, becomes ready (R437). -/
def State.wakeCycle (s : State) : State :=
  (s.sch.threads.filter (fun p => match p.2.cyc with | some c => !serialLt s.cyc c | none => false)).foldl
    (fun s p => s.makeReady p.1) s

end Sys2Proof.Machine
end

