-- ==== Sys2Proof/Machine/Fault.lean ====
section
/-!
DEFINITION. Machine/Fault.lean: the fault collector (spec/10): raising a source with its latch, record and reaction,
ending a live condition, inner queues, device-written host rings as far as events need them, and the clears.
-/

namespace Sys2Proof.Machine

/-! Inner queues (R334 to R337). -/

/-- Depth of inner queue `q` (Table 8). -/
def iqDepth (q : Nat) : Nat :=
  if q < 32 then 64 else if q < 36 then 256 else if q < 44 then 512 else 1024

def State.iq (s : State) (q : Nat) : IQueue := Store.get s.flt.queues {} q
def State.setIq (s : State) (q : Nat) (x : IQueue) : State :=
  { s with flt := { s.flt with queues := Store.put s.flt.queues {} q x } }

/-- The island that writes queue `q`, by its place among the 39 of R29: the ring port, the time island for fault records,
the arm control engine for measurements, the stack island for the journal. -/
def iqWriter (q : Nat) : Nat := if q < 32 then q else if q < 36 then 36 else if q < 44 then 33 else 38

/-- What the core island sees of a queue: it is empty while the writing island is unclocked, and holds its items (R32). -/
def State.iqSeen (s : State) (q : Nat) : IQueue :=
  let x := s.iq q
  if s.pwr.noClock.contains (iqWriter q) then { x with items := [] } else x

/-- The place of a fault record among those of one clock: ascending source, then ascending local index (R323). -/
def recordKey (it : Dword) : Nat := bits it.toNat 0 10 * 1024 + bits it.toNat 14 10

/-- An item enters queue `q`: into a full queue it overwrites the oldest, and the flag tells so (R335). Bit 63 is the
not-valid tag, 0 in every item. Fault records of one clock, which is one instant here, stand in the order of R323. Threads
that wait for the queue become ready (Table 3 of spec/14). -/
def State.iqPush (s : State) (q : Nat) (item : Nat) : State × Bool :=
  let x := s.iq q
  let it : Dword := BitVec.ofNat 64 (item % 2 ^ 63)
  let full := decide (iqDepth q ≤ x.items.length)
  let l := if full then x.items.drop 1 else x.items
  let n := min l.length (if x.at_ = s.clk.now then x.fresh else 0)
  let old := l.take (l.length - n)
  let new := l.drop (l.length - n)
  let first (y : Dword) : Bool := !(32 ≤ q && q < 36) || recordKey y ≤ recordKey it
  let s := s.setIq q { x with items := old ++ new.filter first ++ [it] ++ new.filter (fun y => !first y),
                              at_ := s.clk.now, fresh := n + 1 }
  let s := s.wakeQueue q
  if full then ((s.incSat (F.FLT_IQ_STAT_LOST q)).count (0x110 + q), true) else (s, false)

/-! MSI-X (R423) and device-written rings (R409, R410). -/

/-- MSI-X vector `v` is sent: its message is written to host memory, or its pending bit is set while it is masked or
MSI-X or Bus Master Enable is 0 (PRESUMED of the latter, log entry 65). The table entry is four words: address low and high, data, vector control (bit 0 masks). -/
def State.msix (s : State) (v : Nat) : State :=
  let e := 0x470000 + 16 * v
  if s.rdB F.HQ_STAT_MSIX_EN && s.rdB F.HQ_STAT_BME && !(bitOf (s.reg (e + 12)).toNat 0) then
    { s with hostMem := writeBytes s.hostMem ((s.reg e).toNat + 2 ^ 32 * (s.reg (e + 4)).toNat) 4 (s.reg (e + 8)).toNat }
  else s.wr ⟨0x478000 + 4 * (v / 32), v % 32, 1⟩ 1

/-- The error vector, sent on `HQ_ERR` bits and on link changes when it is enabled. -/
def State.errVec (s : State) : State :=
  if s.rdB F.HQ_ERR_VEC_EN then s.msix (s.rd F.HQ_ERR_VEC_VEC) else s

/-- Set a bit of `HQ_ERR`. -/
def State.hqErr (s : State) (f : Fld) : State := (s.wrB f true).errVec

def State.ringOn (s : State) (n : Nat) : Bool := s.rdB (F.HQ_RING_CFG_EN n)
/-- Entries of ring `n`; LOG2SIZE outside 6 to 16 acts as the nearest limit (R424). -/
def State.ringSize (s : State) (n : Nat) : Nat := 2 ^ clampN 6 16 (s.rd (F.HQ_RING_CFG_LOG2SIZE n))
/-- Entry size in bytes (Table 4 of spec/13). -/
def ringEntry (n : Nat) : Nat :=
  if n < 16 then 32 else if n < 32 then 16 else if n < 60 then 32 else 96
def State.ringBase (s : State) (n : Nat) : Nat :=
  s.rd (F.HQ_RING_BASEL_BASE n) * 4096 + 2 ^ 32 * s.rd (F.HQ_RING_BASEH_BASE n)
/-- A device-written ring takes no entry now: one more would make the hub's index equal to the host's (R407), or every
ring stalls because Bus Master Enable is 0 (R411). -/
def State.ringFull (s : State) (n : Nat) : Bool :=
  !s.rdB F.HQ_STAT_BME || (s.rd (F.HQ_RING_STAT_HUB_IDX n) + 1) % s.ringSize n == (s.hring n).hostIdx

/-- An entry goes to its place in a device-written ring, with its phase bit (R409). -/
def State.ringStore (s : State) (n entry : Nat) : State :=
  let sz := ringEntry n
  let e := setBits entry (8 * sz - 1) 1 (s.rd (F.HQ_RING_STAT_PHASE n))
  { s with hostMem := writeBytes s.hostMem (s.ringBase n + sz * s.rd (F.HQ_RING_STAT_HUB_IDX n)) sz e }

/-- The hub's index passes one entry, and the phase changes at a wrap (R409). -/
def State.consume (s : State) (n : Nat) : State :=
  let nx := (s.rd (F.HQ_RING_STAT_HUB_IDX n) + 1) % s.ringSize n
  let s := s.wr (F.HQ_RING_STAT_HUB_IDX n) nx
  if nx = 0 then s.wr (F.HQ_RING_STAT_PHASE n) (1 - s.rd (F.HQ_RING_STAT_PHASE n)) else s

/-- The interrupt of a device-written ring for one more entry (R423). -/
def State.ringSignal (s : State) (n : Nat) : State :=
  if s.rdB (F.HQ_RING_CFG_VEC_EN n) then
    let h := s.hring n
    let c := h.sinceMsg + 1
    if max 1 (s.rd (F.HQ_RING_CFG_MOD_CNT n)) ≤ c then
      (s.setHring n { h with sinceMsg := 0, timer := none }).msix (s.rd (F.HQ_RING_CFG_VEC n))
    else s.setHring n { h with sinceMsg := c, timer := h.timer.orElse (fun _ => some s.clk.now) }
  else s

/-- The hub writes one entry of a device-written ring that has room: the entry with its phase bit, the index, the
phase at a wrap, and the interrupt count (R409, R423). -/
def State.ringWrite (s : State) (n : Nat) (entry : Nat) : State := ((s.ringStore n entry).consume n).ringSignal n

/-- The ring stalls for completion space (`HQ_RINGn_STAT.STALL`, CNT.STALLS). -/
def State.stall (s : State) (n : Nat) : State :=
  (s.wrB (F.HQ_RING_STAT_STALL n) true).incSat (F.HQ_RING_CNT_STALLS n)

/-- An event entry without phase (Table 10 of spec/13). -/
def eventEntry (kind seq : Nat) (hall : Time) (body : Nat) : Nat :=
  kind + seq % 65536 * 2 ^ 16 + hallS hall % 2 ^ 48 * 2 ^ 32 + hallNs hall * 2 ^ 80 + hallFr hall * 2 ^ 112
    + body % 2 ^ 64 * 2 ^ 128

/-- Held events leave for the ring while it has room; a marker goes first when events were lost (R421). -/
def State.drainEvents (fuel : Nat) (s : State) (n : Nat) : State :=
  match fuel with
  | 0 => s
  | f + 1 =>
    let h := s.hring n
    if !s.ringOn n || s.ringFull n then s
    else if 0 < h.lostN then
      let e := eventEntry 0x03 h.lostSeq s.clk.hall (min h.lostN 65535)
      State.drainEvents f ((s.setHring n { h with lostN := 0 }).ringWrite n e) n
    else
      match h.held with
      | [] => s
      | e :: r => State.drainEvents f ((s.setHring n { h with held := r }).ringWrite n e) n

/-- The event with number `sq` is lost, and counted on its ring (R421). -/
def State.loseEvent (s : State) (n : Nat) (h : HostRing) (sq : Nat) : State :=
  ((s.setHring n { h with lostN := h.lostN + 1, lostSeq := if h.lostN = 0 then sq else h.lostSeq }).incSat
    (F.HQ_RING_CNT_LOST n)).hqErr F.HQ_ERR_EV_LOST

/-- An event that has its number goes to its ring (R421). -/
def State.placeEvent (s : State) (n e : Nat) : State × Bool :=
  let h := s.hring n
  if !s.ringOn n then (s.loseEvent n h (bits e 16 16), true)
  else if s.ringFull n || !h.held.isEmpty || 0 < h.lostN then
    if 64 ≤ h.held.length then (s.loseEvent n { h with held := h.held.drop 1 ++ [e] } (bits (nth h.held 0 0) 16 16), true)
    else (s.setHring n { h with held := h.held ++ [e] }, false)
  else (s.ringWrite n e, false)

/-- A fault record goes to event ring `n`: written, held for a full ring, or lost with the oldest held record; the
flag tells that one was lost (R421). -/
def State.pushEvent (s : State) (n : Nat) (hall : Time) (body : Nat) : State × Bool :=
  let h := s.hring n
  (s.setHring n { h with seq := (h.seq + 1) % 65536 }).placeEvent n (eventEntry 0x01 h.seq hall body)

/-! Raises (R317, R322 to R327, R331, R332, R334). -/

/-- The severity in force for a source: the safety island's for its own (R343), else `FLT_SEVs`. -/
def State.sevOf (s : State) (src : Nat) : Nat :=
  if src = 0x0A7 then min 4 (s.rd F.SAF_SEV0_SEV_0A7)
  else if src = 0x076 ∨ src = 0x077 then 0
  else if srcSafety src then
    min 4 (if src < 0x078 then s.rd (F.SAF_SEV0_SEV (src - 0x070)) else s.rd (F.SAF_SEV1_SEV (src - 0x078)))
  else s.rd (F.FLT_SEV_SEV src)

/-- The fault record of Table 7, and the event body of R421. -/
def faultItem (src sev : Nat) (cell : Option Nat) (code cyc : Nat) : Nat :=
  src % 1024 + sev * 2 ^ 10 + (match cell with | some c => 2 ^ 13 + c % 1024 * 2 ^ 14 | none => 0)
    + code % 1024 * 2 ^ 24 + cyc % 2 ^ 29 * 2 ^ 34

/-- The arms and the rings of no arm that a reaction of severity `sev` blocks (Table 3). -/
def State.covers (s : State) (src sev : Nat) (cell : Option Nat) : Nat × Nat :=
  match srcInfo src with
  | none => (0, 0)
  | some i =>
    if 3 ≤ sev then (63, 2 ^ 32 - 1)
    else if sev = 0 then (0, 0)
    else if i.scope = 2 then (63, 2 ^ 32 - 1)
    else if i.scope = 1 then
      -- an odd port in path-only mode serves the ring of the even port below it
      let r := if s.dupMode = 1 then srcRingNo src / 2 * 2 else srcRingNo src
      match s.armOf r with
      | some a => (2 ^ a, 0)
      | none => (0, 2 ^ r)
    else if sev = 2 then
      match cell with
      | some c =>
        match s.armOf (c / 32) with
        | some a => (2 ^ a, 0)
        | none => (0, 2 ^ (c / 32))
      | none => (0, 0)
    else (0, 0)

/-- A Titajor frame slot: 4 blocks of 66 bits over two lanes at 12.5 Gb/s (R387, R388). -/
def titSlot : Time := 692060

/-- The class of a message, Table 7 of spec/12: its place in the row of the Titajor transmit slot (R36, R389). -/
def titClass : TitBody → Nat
  | .block => 0
  | .trip => 0
  | .heartbeat _ => 1
  | .resign _ => 1
  | .revert _ => 1
  | .admitHub _ => 1
  | .relayDn .. => 2
  | .relayUp .. => 2
  | .copyMissing .. => 1
  | .time .. => 3
  | .exch _ => 4
  | .journal _ => 5
  | .snapshot _ => 5
  | .passed m _ _ => if m ≤ 2 then 0 else if m ≤ 6 then 1 else if m ≤ 8 then 2 else if m = 9 then 3 else if m = 10 then 4 else 5

/-- A message that leaves `d` after the instant for which it was made: a TIME message carries the hall time of its own
departure, and one that is forwarded its residence (R395). -/
def titAfter (m : TitMsg) (own : Bool) (d : Time) : TitMsg :=
  match m.body with
  | .time h l c st => { m with body := if own then .time (h + d) l c st else .time h l (c + d) st }
  | .passed 9 p r => { m with body := .passed 9 p (r + d) }
  | _ => m

/-- A message enters the transmit queue of one ring at instant `now`: ahead of every waiting message of a lower class,
behind the others; the flag tells that a request was deferred (R36, R37, R39, R389). -/
def titQueue (hub : Nat) (now : Time) (l : List (Time × TitMsg)) (m : TitMsg) : List (Time × TitMsg) × Bool :=
  let sent := l.filter (fun x => x.1 < now)
  let wait := l.filter (fun x => now ≤ x.1)
  let start := match sent.getLast? with | some x => max now (x.1 + titSlot) | none => now
  let ahead (x : Time × TitMsg) : Bool := titClass x.2.body ≤ titClass m.body
  let order := wait.filter ahead ++ [(now, m)] ++ wait.filter (fun x => !ahead x)
  let put (i : Nat) (x : Time × TitMsg) : Time × TitMsg :=
    let t := start + titSlot * i
    (t, titAfter x.2 (x.2.src == hub) (t - x.1))
  (sent ++ order.mapIdx put, !wait.isEmpty || decide (now < start))

/-- A message is handed to its transmit queue; a deferred one is counted (R39). -/
def State.titSend (s : State) (m : TitMsg) : State :=
  let r := titQueue (s.rd F.GEN_TOPO_HUB_ID) s.clk.now (if m.ringB then s.stk.txB else s.stk.txA) m
  let s := { s with stk := if m.ringB then { s.stk with txB := r.1 } else { s.stk with txA := r.1 } }
  if r.2 then s.defer 5 1 else s

/-- A message leaves for the Titajor ring (R389). -/
def State.stkSend (s : State) (dst : Nat) (body : TitBody) : State :=
  let m (b : Bool) : TitMsg := ⟨s.rd F.GEN_TOPO_HUB_ID, dst, 15, b, s.cyc, body⟩
  if dst = 0x1F then (s.titSend (m false)).titSend (m true) else s.titSend (m (s.farRing dst))

/-- The arms and rings that a raise blocks are held by its latch (R325, R326). -/
def State.reactHold (s : State) (src sev : Nat) (cell : Option Nat) : State :=
  let cov := s.covers src sev cell
  if cov = (0, 0) then s
  else { s with flt := { s.flt with reactions := s.flt.reactions ++ [⟨src, cell, sev, cov.1, cov.2, s.clk.now⟩] } }

/-- A cell-scope raise of S1 or higher takes its cell out of service, and S1 bypasses it (R324, R332). -/
def State.reactCell (s : State) (src sev c : Nat) : State :=
  let s := { s with flt := { s.flt with oosBits := s.flt.oosBits ++ [(c, cellBit src)] } }
  let s := s.wrB (F.FLT_CELL_OOS c) true
  if sev = 1 then { s with flt := { s.flt with bypass := s.flt.bypass ++ [(c, s.clk.now)] } } else s

/-- S3 also blocks the hall, S4 also trips it (R326, R327). -/
def State.reactHall (s : State) (sev : Nat) : State :=
  let s := if sev = 3 then s.stkSend 0x1F .block else if sev = 4 then s.stkSend 0x1F .trip else s
  if 3 ≤ sev then s.wrB F.FLT_STAT_HALL_BLK true else s

/-- `FLT_STAT` shows the blocked arms and the trip, and S4 asks for the safe block outputs. -/
def State.reactShow (s : State) (sev arms : Nat) : State :=
  let s := s.wr F.FLT_STAT_ARM_BLK (ofBits (bitList (s.rd F.FLT_STAT_ARM_BLK) 6 ++ bitList arms 6))
  if sev = 4 then { s.wrB F.FLT_STAT_TRIP true with saf := { s.saf with tripReq := true, collReq := true } } else s

/-- A raise names a cell, its source is of cell scope and its severity takes the cell out of service. -/
def outOfService (src sev : Nat) : Bool := match srcInfo src with | some i => i.scope == 0 && 1 ≤ sev | none => false

/-- The reaction of one raise (Table 3): S1 of a cell bypasses it, S2 and the wider scopes block arms, S3 also blocks
the hall, S4 also asks for the safe block outputs. -/
def State.react (s : State) (src sev : Nat) (cell : Option Nat) : State :=
  let arms := (s.covers src sev cell).1
  let s := s.reactHold src sev cell
  let s := match cell with
    | some c => if outOfService src sev then s.reactCell src sev c else s
    | none => s
  (s.reactHall sev).reactShow sev arms

/-- The sources raised in the present clock, with the cells they name. -/
def State.raisedNow (s : State) : List (Nat × Option Nat) := if s.flt.nowAt = s.clk.now then s.flt.nowSrc else []

/-- The latch, the counts and `FLT_LAST` of a raise (R322, R331): of the raises of one clock the last in the order of R323
stands in `FLT_LAST`. -/
def State.noteRaise (s : State) (src sev : Nat) (cell : Option Nat) : State :=
  let key (x : Nat × Option Nat) : Nat := x.1 * 1024 + x.2.getD 0
  let last := s.raisedNow.all (fun x => key x ≤ key (src, cell))
  let s := { s with flt := { s.flt with nowSrc := s.raisedNow ++ [(src, cell)], nowAt := s.clk.now } }
  let s := s.setBit ⟨R.FLT_LATCH (src / 32), 0, 32⟩ (src % 32) true
  let s := (s.incSat (F.FLT_SEV_COUNT src)).incWrap F.FLT_RAISES_COUNT
  if last then
    let s := (s.wr F.FLT_LAST_SOURCE src).wr F.FLT_LAST_SEV sev
    (s.wrB F.FLT_LAST_CELLV cell.isSome).wr F.FLT_LAST_LOCAL (cell.getD 0)
  else s

/-- The bit of `FLT_CELLi` of a cell-scope raise (R332). -/
def State.noteCell (s : State) (src scope : Nat) (cell : Option Nat) : State :=
  match cell with
  | some c => if scope = 0 then s.wr ⟨R.FLT_CELL c, cellBit src, 1⟩ 1 else s
  | none => s

/-- The record of a raise goes to every enabled fault queue; a loss raises 0x0C7 (R334, R335). -/
def State.toQueues (s : State) (src item : Nat) : State × List Nat :=
  (List.range 4).foldl (fun (r : State × List Nat) n =>
    if r.1.getBit F.FLT_CTRL_QEN n then
      let p := r.1.iqPush (32 + n) item
      (p.1, if p.2 && src != 0x0C7 then r.2 ++ [0x0C7] else r.2)
    else r) (s, [])

/-- The record of a raise goes to its event ring; a loss raises 0x0E1 (R421). -/
def State.toEvents (s : State) (src sev item : Nat) : State × List Nat :=
  if s.rdB F.HQ_EV_ROUTE_FAULT_EN && min 4 (s.rd F.HQ_EV_ROUTE_MINSEV) ≤ sev then
    let p := s.pushEvent (32 + s.rd F.HQ_EV_ROUTE_FAULT_RING) s.clk.hall item
    (p.1, if p.2 && src != 0x0E1 then [0x0E1] else [])
  else (s, [])

/-- A raise fires recorder trigger 24; a lost trigger raises 0x0E4 (R447, R452). -/
def State.toRecorder (s : State) (src sev : Nat) : State × List Nat :=
  if min 4 (s.erd F.REC_TRG_CFG_MINSEV) ≤ sev then
    let f := s.fire 24 s.clk.hall
    (f.1, if src = 0x0E4 then [] else f.2)
  else (s, [])

/-- One raise without those it causes in turn: the list names the sources to be raised after it. The raise of
0x0C7, 0x0E1 or 0x0E4 that another raise caused raises nothing further by its own losses (R335). -/
def State.raise1 (s : State) (src : Nat) (cell : Option Nat) (code : Nat) : State × List Nat :=
  match srcInfo src with
  | none => (s, [])
  | some i =>
    let sev := s.sevOf src
    let item := faultItem src sev cell code s.cyc
    let q := ((s.noteRaise src sev cell).noteCell src i.scope cell).toQueues src item
    let e := q.1.toEvents src sev item
    let r := ((e.1.count (0x010 + sev)).react src sev cell).toRecorder src sev
    (r.1, q.2 ++ e.2 ++ r.2)

/-- Raise a list of hub-scope sources and those they cause, to a depth that the rules bound (R335). -/
def State.raiseAll (fuel : Nat) (s : State) (l : List Nat) : State :=
  match fuel with
  | 0 => s
  | f + 1 =>
    l.foldl (fun s src => let r := s.raise1 src none 0; State.raiseAll f r.1 r.2) s

/-- A fault source is raised (R322): latch, record, reaction, and what the record's loss raises in turn. -/
def State.raise (s : State) (src : Nat) (cell : Option Nat := none) (code : Nat := 0) : State :=
  let r := s.raise1 src cell code
  State.raiseAll 3 r.1 r.2

/-- The condition of a kind-L source starts or ends: a start raises it (R317). -/
def State.live (s : State) (src : Nat) (on : Bool) (cell : Option Nat := none) : State :=
  let f : Fld := ⟨R.FLT_LIVE (src / 32), src % 32, 1⟩
  let was := s.rdB f
  let s := s.wrB f on
  if on && !was then s.raise src cell else s

/-- A cell's condition of a cell-scope kind-L source starts: each cell's start is a raise of its own (R317). -/
def State.liveCell (s : State) (src : Nat) (cell : Nat) : State :=
  (s.wrB ⟨R.FLT_LIVE (src / 32), src % 32, 1⟩ true).raise src (some cell)

/-- The reactions that act on the frames of a cycle that starts at `t`: those of the latches that are set, and those whose
latch was cleared before they had acted (R325). -/
def State.acting (s : State) (t : Time) : List Reaction :=
  (s.flt.reactions ++ s.flt.owed).filter (fun r => decide (r.t + margin ≤ t))

/-- The frames of the present cycle have left: what was owed to them is done. -/
def State.endOwed (s : State) : State :=
  { s with flt := { s.flt with owed := s.flt.owed.filter (fun r => decide (s.clk.tk < r.t + margin)) } }

/-! Clears (R331, R332). -/

/-- The register bits that show which reactions the remaining latches hold. -/
def State.refreshStat (s : State) : State :=
  let arms := s.flt.reactions.foldl (fun m r => ofBits (bitList m 6 ++ bitList r.arms 6)) 0
  let s := s.wr F.FLT_STAT_ARM_BLK arms
  let s := s.wrB F.FLT_STAT_HALL_BLK (s.flt.reactions.any (fun r => 3 ≤ r.sev) || !s.flt.stackBlk.isEmpty)
  s.wrB F.FLT_STAT_TRIP (s.flt.reactions.any (fun r => r.sev == 4))

/-- Any cell has the `FLT_CELLi` bit of a cell-scope source set. -/
def State.anyCellBit (s : State) (src : Nat) : Bool :=
  (List.range 1024).any (fun c =>
    s.rdB ⟨R.FLT_CELL c, cellBit src, 1⟩ &&
      (if 0x200 ≤ src then true
       else if cellBit src = 20 then c / 32 == (src - 0x106) / 8
       else if cellBit src = 21 then s.armOf (c / 32) == some (src - 0x060)
       else true))

/-- Table 6: the cause of a source's latch persists. -/
def State.latchHeld (s : State) (src : Nat) : Bool :=
  match srcInfo src with
  | none => false
  | some i =>
    if i.scope = 0 then s.anyCellBit src
    else i.live && s.rdB ⟨R.FLT_LIVE (src / 32), src % 32, 1⟩

/-- A 1 written to the latch of a source; a raise in the same clock wins (R9, R331). -/
def State.clearLatch (s : State) (src : Nat) : State :=
  let f : Fld := ⟨R.FLT_LATCH (src / 32), src % 32, 1⟩
  if !s.rdB f || s.raisedNow.any (fun x => x.1 == src) then s
  else if s.latchHeld src then s.incSat F.FLT_REFUSED_COUNT
  else
    let s := s.wr f 0
    let gone := s.flt.reactions.filter (fun r => r.src == src && decide (s.clk.tk < r.t + margin))
    let s := { s with flt := { s.flt with reactions := s.flt.reactions.filter (fun r => r.src != src),
                                          owed := s.flt.owed ++ gone } }
    s.refreshStat

/-- A 1 written to bit `b` of `FLT_CELLi`; `held`: the cause of Table 6 persists. -/
def State.clearCellBit (s : State) (c b : Nat) (held : Bool) : State :=
  let f : Fld := ⟨R.FLT_CELL c, b, 1⟩
  if !s.rdB f || s.raisedNow.any (fun x => x.2 == some c && cellBit x.1 == b) then s
  else if held then s.incSat F.FLT_REFUSED_COUNT
  else
    let s := s.wr f 0
    let s := { s with flt := { s.flt with oosBits := s.flt.oosBits.filter (fun p => p != (c, b)) } }
    if s.flt.oosBits.any (fun p => p.1 == c) then s else s.wrB (F.FLT_CELL_OOS c) false

end Sys2Proof.Machine
end

