-- ==== Sys2Proof/Machine/Float.lean ====
section
/-!
DEFINITION. Machine/Float.lean: IEEE 754 arithmetic on bit patterns, exact and then rounded to nearest even: binary32
and binary64, fused multiply-add, the flush of R109, and the sine of the test-signal generator (R139).
-/

namespace Sys2Proof.Machine

/-- A binary format: precision, exponent of the smallest quantum, width of the exponent field. -/
structure Fmt where
  p    : Nat
  qmin : Int
  eb   : Nat
  deriving DecidableEq, Repr

def b32 : Fmt := ⟨24, -149, 8⟩
def b64 : Fmt := ⟨53, -1074, 11⟩

/-- A floating-point datum; a finite one has the value (-1)^neg * m * 2^e. -/
inductive Fp where
  | nan
  | inf (neg : Bool)
  | fin (neg : Bool) (m : Nat) (e : Int)
  deriving DecidableEq, Repr

def Fp.zero : Fp := .fin false 0 0

/-- The datum of a bit pattern. -/
def Fmt.dec (f : Fmt) (w : Nat) : Fp :=
  let neg := bitOf w (f.p - 1 + f.eb)
  let ex := bits w (f.p - 1) f.eb
  let m := bits w 0 (f.p - 1)
  if ex = 2 ^ f.eb - 1 then (if m = 0 then .inf neg else .nan)
  else if ex = 0 then .fin neg m f.qmin
  else .fin neg (m + 2 ^ (f.p - 1)) (f.qmin + (ex - 1 : Nat))

/-- Quotient by a power of two, to the nearest, a tie to even. -/
def shrEven (m k : Nat) : Nat :=
  let q := m / 2 ^ k
  let r := m % 2 ^ k
  if k = 0 then m
  else if 2 * r < 2 ^ k then q
  else if 2 ^ k < 2 * r then q + 1
  else q + q % 2

/-- Round to the format, to nearest even; overflow gives an infinity. -/
def Fmt.round (f : Fmt) (x : Fp) : Fp :=
  match x with
  | .nan => .nan
  | .inf n => .inf n
  | .fin n m e =>
    if m = 0 then .fin n 0 f.qmin
    else
      let q := max (e + (Nat.log2 m + 1 : Nat) - (f.p : Int)) f.qmin
      let m' := if q ≤ e then m * 2 ^ (e - q).toNat else shrEven m (q - e).toNat
      let (m', q) := if m' = 2 ^ f.p then (2 ^ (f.p - 1), q + 1) else (m', q)
      if f.qmin + (2 ^ f.eb - 3 : Nat) < q then .inf n else .fin n m' q

/-- The bit pattern of a datum of the format; of a NaN which one is open (log entry 30). -/
def Fmt.enc (f : Fmt) (x : Fp) : Nat :=
  match x with
  | .nan => (2 ^ f.eb - 1) * 2 ^ (f.p - 1) + 1 + Config.nanPayload f.p % (2 ^ (f.p - 1) - 1)
  | .inf n => b2n n * 2 ^ (f.p - 1 + f.eb) + (2 ^ f.eb - 1) * 2 ^ (f.p - 1)
  | .fin n m e =>
    b2n n * 2 ^ (f.p - 1 + f.eb) +
      (if m < 2 ^ (f.p - 1) then m else (e - f.qmin + 1).toNat * 2 ^ (f.p - 1) + (m - 2 ^ (f.p - 1)))

/-- Round and encode. -/
def Fmt.put (f : Fmt) (x : Fp) : Nat := f.enc (f.round x)

/-! Exact operations. -/

def Fp.neg (x : Fp) : Fp :=
  match x with
  | .nan => .nan
  | .inf n => .inf (!n)
  | .fin n m e => .fin (!n) m e

def Fp.abs (x : Fp) : Fp :=
  match x with
  | .nan => .nan
  | .inf _ => .inf false
  | .fin _ m e => .fin false m e

/-- Signed mantissa at exponent `e0`, at most `e`. -/
def fpAt (n : Bool) (m : Nat) (e e0 : Int) : Int :=
  let v : Int := m * 2 ^ (e - e0).toNat
  if n then -v else v

def Fp.add (x y : Fp) : Fp :=
  match x, y with
  | .nan, _ => .nan
  | _, .nan => .nan
  | .inf a, .inf b => if a = b then .inf a else .nan
  | .inf a, .fin _ _ _ => .inf a
  | .fin _ _ _, .inf b => .inf b
  | .fin a m e, .fin b n f =>
    let e0 := min e f
    let v := fpAt a m e e0 + fpAt b n f e0
    if v = 0 then .fin (a && b) 0 e0 else .fin (decide (v < 0)) v.natAbs e0

def Fp.sub (x y : Fp) : Fp := x.add y.neg

def Fp.mul (x y : Fp) : Fp :=
  match x, y with
  | .nan, _ => .nan
  | _, .nan => .nan
  | .inf a, .inf b => .inf (a != b)
  | .inf a, .fin b m _ => if m = 0 then .nan else .inf (a != b)
  | .fin a m _, .inf b => if m = 0 then .nan else .inf (a != b)
  | .fin a m e, .fin b n f => .fin (a != b) (m * n) (e + f)

/-- The quotient with 130 bits and a sticky bit below them, enough for every rounding of either format. -/
def Fp.div (x y : Fp) : Fp :=
  match x, y with
  | .nan, _ => .nan
  | _, .nan => .nan
  | .inf _, .inf _ => .nan
  | .inf a, .fin b _ _ => .inf (a != b)
  | .fin a _ _, .inf b => .fin (a != b) 0 0
  | .fin a m e, .fin b n f =>
    if n = 0 then (if m = 0 then .nan else .inf (a != b))
    else
      let k := 130 + Nat.log2 n
      let q := m * 2 ^ k / n
      let st := if m * 2 ^ k % n = 0 then 0 else 1
      .fin (a != b) (2 * q + st) (e - f - (k + 1 : Nat))

/-- Integer square root by bits, from bit `b` down. -/
def isqrt (b n r : Nat) : Nat :=
  match b with
  | 0 => r
  | k + 1 => if (r + 2 ^ k) * (r + 2 ^ k) ≤ n then isqrt k n (r + 2 ^ k) else isqrt k n r

def Fp.sqrt (x : Fp) : Fp :=
  match x with
  | .nan => .nan
  | .inf n => if n then .nan else .inf false
  | .fin n m e =>
    if m = 0 then .fin n 0 e
    else if n then .nan
    else
      let k : Nat := 128 + (e % 2).toNat
      let v := m * 2 ^ k
      let r := isqrt (Nat.log2 v / 2 + 1) v 0
      .fin false (2 * r + (if r * r = v then 0 else 1)) ((e - (k : Int)) / 2 - 1)

/-- Ordered comparisons: false when either is a NaN. -/
def Fp.lt (x y : Fp) : Bool :=
  match x, y with
  | .nan, _ => false
  | _, .nan => false
  | .inf a, .inf b => a && !b
  | .inf a, .fin _ _ _ => a
  | .fin _ _ _, .inf b => !b
  | .fin a m e, .fin b n f => let e0 := min e f; decide (fpAt a m e e0 < fpAt b n f e0)

def Fp.isNan (x : Fp) : Bool := x == .nan
def Fp.le (x y : Fp) : Bool := !x.isNan && !y.isNan && !(y.lt x)
def Fp.isFin (x : Fp) : Bool := match x with | .fin _ _ _ => true | _ => false

/-- The value of a whole number. -/
def Fp.ofInt (i : Int) : Fp := .fin (decide (i < 0)) i.natAbs 0

/-- floor of a finite datum. -/
def Fp.floor (x : Fp) : Int :=
  match x with
  | .fin n m e =>
    let v : Int := if n then -(m : Int) else m
    if 0 ≤ e then v * 2 ^ e.toNat else v / (2 ^ (-e).toNat : Nat)
  | _ => 0

def Fp.ceil (x : Fp) : Int := -x.neg.floor

/-- The nearest whole number, a tie to even, of a finite datum. -/
def Fp.roundHE (x : Fp) : Int :=
  match x with
  | .fin n m e =>
    let v : Nat := if 0 ≤ e then m * 2 ^ e.toNat else shrEven m (-e).toNat
    if n then -(v : Int) else v
  | _ => 0

/-! binary32 on bit patterns, without a flush (R90, R148, R151). -/

def f32 (op : Fp → Fp → Fp) (a b : Nat) : Nat := b32.put (op (b32.dec a) (b32.dec b))
def f32Fin (a : Nat) : Bool := (b32.dec a).isFin
def f32Neg (a : Nat) : Nat := b32.enc (b32.dec a).neg
/-- A finite binary32 above 0. -/
def f32Pos (a : Nat) : Bool := (b32.dec a).isFin && Fp.zero.lt (b32.dec a)

/-! The engine's arithmetic: subnormal operands and rounded results are zero of the same sign (R109). -/

def ftz (x : Fp) : Fp :=
  match x with
  | .fin n m e => if m < 2 ^ 23 ∧ e ≤ -149 then .fin n 0 (-149) else .fin n m e
  | y => y

/-- An operand. -/
def eDec (w : Nat) : Fp := ftz (b32.dec w)
/-- A result. -/
def eRnd (x : Fp) : Fp := ftz (b32.round x)
def eEnc (x : Fp) : Nat := b32.enc x

def eAdd (x y : Fp) : Fp := eRnd (x.add y)
def eSub (x y : Fp) : Fp := eRnd (x.sub y)
def eMul (x y : Fp) : Fp := eRnd (x.mul y)
def eDiv (x y : Fp) : Fp := eRnd (x.div y)
def eSqrt (x : Fp) : Fp := eRnd x.sqrt
/-- x * y + z with one rounding. -/
def eFma (x y z : Fp) : Fp := eRnd ((x.mul y).add z)

/-- min and max: a NaN operand gives a NaN (DESIGN CHOICE, log entry 31). -/
def fMin (x y : Fp) : Fp := if x.isNan || y.isNan then .nan else if y.lt x then y else x
def fMax (x y : Fp) : Fp := if x.isNan || y.isNan then .nan else if x.lt y then y else x
/-- clamp(x, lo, hi) = min(max(x, lo), hi). -/
def fClamp (x lo hi : Fp) : Fp := fMin (fMax x lo) hi

/-! The sine (R139), in fixed point of 2^-40. -/

/-- pi * 2^60, to the nearest. -/
def piQ60 : Nat := 3622009729038561421

/-- The sum of x^(2k+1) / (2k+1)! with alternating signs, x in 2^-60. -/
def sinSeries (fuel k : Nat) (term x2 : Nat) : Int :=
  match fuel with
  | 0 => 0
  | n + 1 => (term : Int) - sinSeries n (k + 1) (term * x2 / 2 ^ 60 / ((2 * k + 2) * (2 * k + 3))) x2

/-- sin(2 pi * turn / 2^48) in 2^-40. -/
def sinQ40 (turn : Nat) : Int :=
  let a := turn % 2 ^ 48
  let h := a % 2 ^ 47
  let q := if 2 ^ 46 < h then 2 ^ 47 - h else h
  let x := 2 * piQ60 * q / 2 ^ 48
  let v := sinSeries 14 0 x (x * x / 2 ^ 60) / 2 ^ 20
  if 2 ^ 47 ≤ a then -v else v

/-- A sine that is accurate to 2^-20 of full amplitude; where inside that band it lies is open (log entry 32). -/
def sinApprox (turn : Nat) : Fp :=
  let e : Int := (Config.sineError turn % (2 ^ 21 + 1) : Nat) - 2 ^ 20
  eRnd ((Fp.ofInt (sinQ40 turn + e)).mul (.fin false 1 (-40)))

end Sys2Proof.Machine
end

