-- ==== Sys2Proof/Machine/Mi.lean ====
section
/-!
DEFINITION. Machine/Mi.lean: measurement inputs and decimation (spec/03).
-/

namespace Sys2Proof.Machine

def State.chan (s : State) (c : Nat) : MiChan := Store.get s.mi {} c
def State.setChan (s : State) (c : Nat) (m : MiChan) : State := { s with mi := Store.put s.mi {} c m }

/-- The output register of a preset (0 SWIFT, 1 CONTROL, 2 QUIET, 3 RECORD) of a channel. -/
def presetReg (c p : Nat) : Nat := R.MI_SWIFT c + 4 * p

/-- The placeholder output (R542). -/
def placeholder : Word := 0x04000000

/-- Group delay of a preset in modulator periods, and its total OSR (Table 1). -/
def presetDelay (p : Nat) : Nat := if p = 0 then 23 else if p = 1 then 57 else if p = 2 then 224 else 31
def presetOsr (p : Nat) : Nat := if p = 0 then 16 else if p = 2 then 160 else 40
/-- Filter span of a preset in modulator periods (R89). -/
def presetSpan (p : Nat) : Nat := 2 * presetDelay p
/-- Decimation of a preset's sinc3 stage (Table 1). -/
def sincM (p : Nat) : Nat := if p = 0 then 8 else 20
/-- Length of the response of a sinc3 stage in bits, 3(M - 1) + 1. -/
def sincLen (p : Nat) : Nat := 3 * (sincM p - 1) + 1
/-- The sinc3 outputs of one filter span: the taps of the FIR stages; RECORD has none (Table 1). -/
def firLen (p : Nat) : Nat := if p = 3 then 1 else (presetSpan p - sincLen p) / sincM p + 1
/-- Bits of pipeline before the sinc3 stage: they place the response symmetrically in the span (R87). -/
def presetLag (p : Nat) : Nat := (presetSpan p - sincLen p - (firLen p - 1) * sincM p) / 2

/-! The sinc3 stages (R92). -/

/-- One bit enters the integrators; at a decimation instant the combs give the next output. Every register wraps. -/
def sincBit (dec : Bool) (b : Bool) (x : Sinc) : Sinc :=
  let i1 := x.i1 + BitVec.ofNat 16 (b2n b)
  let i2 := x.i2 + i1
  let i3 := x.i3 + i2
  let x := { x with i1 := i1, i2 := i2, i3 := i3 }
  if dec then
    let d1 := i3 - x.c1
    let d2 := d1 - x.c2
    let d3 := d2 - x.c3
    { x with c1 := i3, c2 := d1, c3 := d2, outs := (d3.toNat :: x.outs).take 20 }
  else x

/-- One bit of the channel's stream: every preset takes it from the same stream, `delay` bits late (R86, R96). -/
def MiChan.bit (m : MiChan) (delay : Nat) (b : Bool) : MiChan :=
  let tail := (b :: m.tail).take 272
  let ix := m.bitIx + 1
  { m with tail := tail, bitIx := ix,
           sinc := (List.range 4).map (fun p =>
             sincBit (ix % sincM p == 0) (tail.getD (delay + presetLag p) false) (nth m.sinc p {})) }

/-- The density of ones over the response of a preset, as numerator and denominator: the linear-phase FIR stages weigh the
sinc3 outputs symmetrically; they have unity gain for a constant (R86 to R88). -/
def density (p : Nat) (outs : List Nat) : Nat × Nat :=
  let n := firLen p
  let full := sincM p ^ 3
  let x (i : Nat) : Nat := outs.getD i 0
  if (List.range n).all (fun i => x i == x 0) then (x 0, full)
  else
    let w (i : Nat) : Int := Config.firTap p (min i (n - 1 - i))
    let den := max 1 ((List.range n).map w).sum.toNat
    let num := ((List.range n).map (fun i => w i * x i)).sum.toNat
    (min num (full * den), full * den)

def State.chanOn (s : State) (c : Nat) : Bool := s.rdB (F.MI_CFG_EN c)
def State.hubClock (s : State) (c : Nat) : Bool := !s.rdB (F.MI_CFG_CLK_EXT c)

/-- The modulator period of a channel: 1,000 MHz / MCLK_DIV (R83), or the measured clock. -/
def State.modPeriod (s : State) (c : Nat) : Time :=
  if s.hubClock c then ns (s.rd F.MI_CTRL_MCLK_DIV) else (s.chan c).extPeriod

/-- DELAY of a hub-clock channel as whole modulator periods of bitstream delay, and the remainder by which the emitted
clock is early (R95, R96). -/
def State.delayBits (s : State) (c : Nat) : Nat × Time :=
  if s.hubClock c then
    let d := ns (25 * s.rd (F.MI_CFG_DELAY c))
    (d / max 1 (s.modPeriod c), d % max 1 (s.modPeriod c))
  else (0, 0)

/-- The clock that the hub drives on MI_CLKc, period and advance; none where the pin is an input or the channel is disabled
(R82, R83, R96). -/
def State.miClk (s : State) (c : Nat) : Option (Time × Time) :=
  if s.chanOn c && s.hubClock c then some (s.modPeriod c, (s.delayBits c).2) else none

/-- ALIGNED of a channel and of the block: enabled, in hub-clock mode and aligned. -/
def State.setAligned (s : State) (c : Nat) (b : Bool) : State :=
  (s.setBit F.MI_STAT_ALIGNED c b).wrB (F.MI_CHSTAT_ALIGNED c) b

/-- OVR, CLKF or SETTLING (R89). -/
def flagged (w : Word) : Bool := bits w.toNat 24 3 != 0

/-- The outputs of a channel and preset with their output instants, newest first. -/
def State.outputs (s : State) (c p : Nat) : List (Time × Word) := Store.get s.miLog [] (4 * c + p)
def State.logOutput (s : State) (c p : Nat) (w : Word) : State :=
  let s := { s with miLog := Store.put s.miLog [] (4 * c + p) (((s.clk.hall, w) :: s.outputs c p).take 256) }
  if flagged w then s
  else { s with miHeld := Store.put s.miHeld [] (4 * c + p) (((s.clk.hall, w) :: Store.get s.miHeld [] (4 * c + p)).take 8) }

/-- The newest output of each preset carries CLKF from a clock fault on: in its register and for every consumer. A
placeholder carries none (R85, R542). The flag stays on that output until the preset's next one (log entry 69). -/
def State.flagClock (s : State) (c : Nat) : State :=
  (List.range 4).foldl (fun s p =>
    match s.outputs c p with
    | [] => s
    | (h, w) :: r =>
      { s.wr ⟨presetReg c p, 25, 1⟩ 1 with miLog := Store.put s.miLog [] (4 * c + p) ((h, w ||| 0x02000000) :: r) }) s

/-- The latest output of a channel and preset at or before hall time `h`; the placeholder when there is none (R106, R144). -/
def State.outputAt (s : State) (c p : Nat) (h : Time) : Word :=
  match (s.outputs c p).find? (fun o => o.1 ≤ h) with
  | some o => o.2
  | none => placeholder

/-- V of an output word of channel `c`, binary32 (R90). Every output is scaled with the pair that is active when it is
read, also one completed before the latest apply; an OFFS of 0x80_0000, outside Table 11, is -2^23 (log entry 69). -/
def State.voltOf (s : State) (c : Nat) (w : Word) : Nat :=
  let m := s.chan c
  b32.put ((Fp.ofInt (sext 24 w.toNat - sext 24 m.offs)).mul (b32.dec m.gain))

/-- V of the output that stands at hall time `h` and its flag; a placeholder is 0.0 (R90, R106, R542). -/
def State.voltAt (s : State) (c p : Nat) (h : Time) : Nat × Bool :=
  match (s.outputs c p).find? (fun o => o.1 ≤ h) with
  | some o => (s.voltOf c o.2, flagged o.2)
  | none => (0, true)

/-- Every output register shows the placeholder, and no output counts as produced. -/
def State.clearOutputs (s : State) (c : Nat) : State :=
  (List.range 4).foldl (fun s p =>
    let s := s.setReg (presetReg c p) placeholder
    { s with miLog := Store.put s.miLog [] (4 * c + p) [] }) s

/-- A channel restarts its filters: a hub-clock channel is aligned to the present cycle (R94). The restart is one of the
decimation and of the settling time; the registers of R92, which need no reset, and the delayed bits go on (log entry 68). -/
def State.alignChan (s : State) (c : Nat) : State :=
  if s.chanOn c then
    let m := s.chan c
    let per := max 1 (s.modPeriod c)
    let d := s.clk.hall + ns 900 - s.clk.tkHall
    let ix := if s.hubClock c then d / per else 0
    let s := s.setChan c { m with alignHall := s.clk.tkHall, bitIx := ix, startIx := if s.hubClock c then ceilDiv d per else 0,
                                  outNo := (List.range 4).map (fun p => ix / presetOsr p), cntHi := 0, cntLo := 0 }
    s.setAligned c (s.hubClock c)
  else s

/-- Hall time steps: what the channels remember by its instants keeps its distance from now, and every enabled hub-clock
channel is realigned (R94, R235). -/
def State.moveChans (s : State) (move : Time → Time) : State :=
  { s with mi := s.mi.map (fun x => (x.1, { x.2 with stuckEnd := x.2.stuckEnd.map move, alignHall := move x.2.alignHall })),
           miLog := s.miLog.map (fun x => (x.1, x.2.map (fun o => (move o.1, o.2)))),
           miHeld := s.miHeld.map (fun x => (x.1, x.2.map (fun o => (move o.1, o.2)))) }

/-- Every enabled hub-clock channel is realigned (R94). -/
def State.realignAll (s : State) : State :=
  (List.range 16).foldl (fun s c => if s.chanOn c && s.hubClock c then s.alignChan c else s) s

/-- Channels that a reset leaves enabled, in either clock mode, start at the first cycle start; until then they count from
hall time 0 (log entry 69). -/
def State.firstAlign (s : State) : State :=
  (List.range 16).foldl (fun s c => if s.chanOn c then s.alignChan c else s) s

/-- A disabled channel gives placeholders (R542); its clock-fault, stuck and guard conditions end (log entry 69). -/
def State.disableChan (s : State) (c : Nat) : State :=
  let s := (s.clearOutputs c).setAligned c false
  let s := s.setReg (R.MI_CHSTAT c) 0
  let m := s.chan c
  let s := s.setChan c { m with stuck := false, stuckEnd := none, cntHi := 0, cntLo := 0 }
  (((s.live (0x020 + c) false).live (0x030 + c) false).live (0x040 + c) false).live (0x050 + c) false

/-- A channel in hub-clock mode has no external clock: EXT_PERIOD is 0 (Table 15) and its clock fault has ended (log entry
69). -/
def State.dropExt (s : State) (c : Nat) : State :=
  let s := s.setChan c { s.chan c with extPeriod := 0 }
  ((s.wr (F.MI_CHSTAT_EXT_PERIOD c) 0).wrB (F.MI_CHSTAT_CLK_FAULT c) false).live (0x030 + c) false

/-- What follows the commit of an accepted `MI_CTRL` (`c` none) or `MI_CFGc` (R94, R542); `was`: EN before it. -/
def State.miCommitted (s : State) (c : Option Nat) (was : Bool) : State :=
  match c with
  | none => s.realignAll
  | some c =>
    if s.chanOn c then
      let s := if was then s else s.clearOutputs c
      (if s.hubClock c then s.dropExt c else s).alignChan c
    else s.disableChan c

/-- R103: a value inside the ranges of the field tables. -/
def miInRange (off : Nat) (v : Word) : Bool :=
  if off = R.MI_CTRL then 25 ≤ bits v.toNat 0 8 && bits v.toNat 0 8 ≤ 200 && bits v.toNat 8 24 == 0
  else bits v.toNat 12 20 == 0

/-- SCALE_APPLY is requested (R91). -/
def scaleApply (s : State) : State := { s with miApply := true }

/-- A binary32 word that is NaN or infinite. -/
def badF32 (w : Nat) : Bool := bits w 23 8 == 255

/-- The apply at a cycle start: every channel's shadows become active, except a gain that is NaN or infinite (R91). -/
def State.applyScales (s : State) : State :=
  if s.miApply then
    (List.range 16).foldl (fun s c =>
      let g := s.rd (F.MI_GAIN_GAIN c)
      let m := s.chan c
      let s := s.setChan c { m with offs := s.rd (F.MI_OFFS_OFFS c), gain := if badF32 g then m.gain else g }
      if badF32 g then s.raise 0x006 else s) { s with miApply := false }
  else s

/-- At every reset the active scales are loaded from the kept shadows; a bad gain gives 1.0 (R91). -/
def State.loadScales (s : State) : State :=
  (List.range 16).foldl (fun s c =>
    let g := s.rd (F.MI_GAIN_GAIN c)
    let m := s.chan c
    let s := s.setChan c { m with offs := s.rd (F.MI_OFFS_OFFS c), gain := if badF32 g then 0x3F800000 else g }
    if badF32 g then s.raise 0x006 else s) s

/-- MI_CMD.REALIGN (R94). -/
def realign (s : State) : State := if s.anyDeblocked then s.raise 0x006 else s.realignAll

/-- CODE of a density of ones `num / den` (R88): round((2 rho - 1) * 0x7F_FFFF), a tie away from zero; a density is at
most 1. -/
def codeOf (num den : Nat) : Int :=
  let d := max den 1
  let n := min num d
  let x : Int := (2 * (n : Int) - d) * 0x7FFFFF
  let q := (2 * x.natAbs + d) / (2 * d)
  if x < 0 then -(q : Int) else q

/-- The guard comparator on a SWIFT output (R99, R100, R102). -/
def State.guardCheck (s : State) (c : Nat) (code : Int) (settling : Bool) : State :=
  let m := s.chan c
  if settling then s.setChan c { m with cntHi := 0, cntLo := 0 }
  else
    let n := min 16 (s.rd (F.MI_GUARD_CFG_COUNT c))
    let hi := s.rdB (F.MI_GUARD_CFG_HI_EN c) && 0 < n && decide (sext 24 (s.rd (F.MI_GUARD_HI_THRESH c)) < code)
    let lo := s.rdB (F.MI_GUARD_CFG_LO_EN c) && 0 < n && decide (code < sext 24 (s.rd (F.MI_GUARD_LO_THRESH c)))
    let s := if hi || lo then s.count (0x0B0 + c) else s
    let ch := if hi then m.cntHi + 1 else 0
    let cl := if lo then m.cntLo + 1 else 0
    let s := s.setChan c { m with cntHi := ch, cntLo := cl }
    let inBand := decide (code ≤ sext 24 (s.rd (F.MI_GUARD_HI_THRESH c))) &&
      decide (sext 24 (s.rd (F.MI_GUARD_LO_THRESH c)) ≤ code)
    let s :=
      if hi && n ≤ ch then (s.wrB (F.MI_CHSTAT_GUARD_HI c) true).live (0x040 + c) true
      else if inBand then (s.wrB (F.MI_CHSTAT_GUARD_HI c) false).live (0x040 + c) false else s
    if lo && n ≤ cl then (s.wrB (F.MI_CHSTAT_GUARD_LO c) true).live (0x050 + c) true
    else if inBand then (s.wrB (F.MI_CHSTAT_GUARD_LO c) false).live (0x050 + c) false else s

/-- Measurement queues 36 to 43 that take this channel and preset (Table 8 of spec/10). -/
def State.measQueues (s : State) (c p : Nat) (w : Word) : State :=
  (List.range 8).foldl (fun s i =>
    let q := 36 + i
    if s.rdB (F.FLT_IQ_CFG_MEN q) && s.rd (F.FLT_IQ_CFG_MCH q) == c && s.rd (F.FLT_IQ_CFG_MPRE q) == p then
      let r := s.iqPush q (w.toNat + s.cyc % 2 ^ 31 * 2 ^ 32)
      if r.2 then r.1.raise 0x0C7 else r.1
    else s) s

/-- A period of an external clock outside 22.5 ns to 220 ns, or a missing one (R84). -/
def badPeriod (period : Option Time) : Bool :=
  match period with
  | none => true
  | some p => decide (2 * p < ns 45) || decide (ns 220 < p)

/-- A measured period of an external clock (R84, Table 15). -/
def State.notePeriod (s : State) (c : Nat) (period : Time) : State :=
  (s.setChan c { s.chan c with extPeriod := period }).wr (F.MI_CHSTAT_EXT_PERIOD c) (min 255 (period / 65536))

/-- An external modulator clock out of range: a period below 22.5 ns or above 220 ns, or no edge for 400 ns (R84,
R85). `period` is the measured period, none for a missing edge. -/
def miClockFault (c : Nat) (period : Option Time) (s : State) : State :=
  if !s.chanOn c || s.hubClock c || !badPeriod period then s
  else
    let s := match period with
      | some p => s.notePeriod c p
      | none => s
    let s := (s.wrB (F.MI_CHSTAT_CLK_FAULT c) true).setBit F.MI_ERR_CLK_STICKY c true
    (s.flagClock c).live (0x030 + c) true

/-- The number of the next output of a preset: the first after its latest whose bits are not all in the past (R93). -/
def State.nextOutput (s : State) (c p : Nat) : Nat :=
  let m := s.chan c
  let now := if s.hubClock c then ceilDiv (s.clk.hall + ns 900 - m.alignHall) (max 1 (s.modPeriod c)) else m.bitIx
  max (nth m.outNo p 0 + 1) (ceilDiv (max now m.bitIx) (presetOsr p))

/-- The channel samples the bits up to number `ix`: bit i after the latest one is bit i of `rise` or of `fall`, the levels
of MI_DATc at the rising and the falling edges of MI_CLKc (R81, R82). -/
def State.sampleTo (s : State) (c ix rise fall : Nat) : State :=
  let dat := if s.rdB (F.MI_CFG_DATA_EDGE c) then fall else rise
  let inv := s.rdB (F.MI_CFG_INVERT c)
  let m := s.chan c
  s.setChan c ((List.range (ix - m.bitIx)).foldl (fun m i => m.bit (s.delayBits c).1 (dat.testBit i != inv)) m)

/-- The output word of preset `p` at output number `n` (R88, R89, R98, Table 14). -/
def State.outputWord (s : State) (c p n : Nat) : Word :=
  let ch := s.chan c
  let span := presetSpan p
  let settling := decide (n * presetOsr p < ch.startIx + span)
  let ovr := ch.stuck || (match ch.stuckEnd with | some e => decide (s.clk.hall < e + span * s.modPeriod c) | none => false)
  let d := density p (nth ch.sinc p {}).outs
  let seq := bits (s.reg (presetReg c p)).toNat 27 5
  BitVec.ofNat 32 (toField 24 (codeOf d.1 d.2) + b2n ovr * 2 ^ 24 + b2n settling * 2 ^ 26
    + (if (s.outputs c p).isEmpty then 1 else (seq + 1) % 32) * 2 ^ 27)

/-- A preset completes output `n`. -/
def State.output (s : State) (c p n : Nat) : State :=
  let m := s.chan c
  let s := s.setChan c { m with outNo := m.outNo.set p n }
  let w := s.outputWord c p n
  let s := s.setReg (presetReg c p) w
  let s := if bitOf w.toNat 24 then s.count (0x0A0 + c) else s
  let s := (s.measQueues c p w).logOutput c p w
  if p = 0 then s.guardCheck c (sext 24 w.toNat) (bitOf w.toNat 26) else s

/-- PRESET_OUTPUT: the preset's next output instant comes. In hub-clock mode it is the next of R93; in external-clock mode it
is `t`, and `per` the period that the hub has measured of the clock (R84, R87, R95). `rise`, `fall`: the levels of MI_DATc
since the latest bit. A channel with a clock fault makes no output (R85). -/
def presetOutput (c p rise fall : Nat) (per t : Time) (s : State) : State :=
  if !s.chanOn c then s
  else if s.hubClock c then
    let n := s.nextOutput c p
    let s := s.advanceHall ((s.chan c).alignHall + n * presetOsr p * s.modPeriod c - ns 900)
    (s.sampleTo c (n * presetOsr p) rise fall).output c p n
  else
    let s := s.advance t
    if s.rdB (F.MI_CHSTAT_CLK_FAULT c) then s
    else if badPeriod (some per) then miClockFault c (some per) s
    else
      let s := s.notePeriod c per
      let n := s.nextOutput c p
      (s.sampleTo c (n * presetOsr p) rise fall).output c p n

/-- 64 consecutive periods inside 25 to 200 ns end the clock fault (R84); `period` is the last of them. -/
def miClockRecovery (c : Nat) (period : Time) (s : State) : State :=
  if !s.chanOn c || s.hubClock c || !s.rdB (F.MI_CHSTAT_CLK_FAULT c) || decide (period < ns 25) ||
      decide (ns 200 < period) then s
  else
    ((s.notePeriod c period).wrB (F.MI_CHSTAT_CLK_FAULT c) false).live (0x030 + c) false

/-- The 64th identical bit of MI_DATc (R97). -/
def modulatorStuck (c : Nat) (s : State) : State :=
  if !s.chanOn c then s
  else
    let s := s.setChan c { s.chan c with stuck := true }
    ((s.wrB (F.MI_CHSTAT_OVR c) true).setBit F.MI_ERR_OVR_STICKY c true).live (0x020 + c) true

/-- The first bit of the other value (R97). -/
def modulatorStuckEnd (c : Nat) (s : State) : State :=
  if (s.chan c).stuck then
    let s := s.setChan c { s.chan c with stuck := false, stuckEnd := some s.clk.hall }
    (s.wrB (F.MI_CHSTAT_OVR c) false).live (0x020 + c) false
  else s

end Sys2Proof.Machine
end

