-- ==== Sys2Proof/Machine/Engine.lean ====
section
/-!
DEFINITION. Machine/Engine.lean: the arm control engine (spec/04): sources, blocks, regions, the arm output stage, the
pass, the test-signal generator, the capture and its DFT bins.
-/

namespace Sys2Proof.Machine

/-! Banks (R134, Table 31). -/

def State.bank (s : State) (active : Bool) : Store Word :=
  if s.rdB F.ACE_STAT_BANK == active then s.ace.bank1 else s.ace.bank0

/-- Word `w` of the descriptor of block `b`. -/
def dWord (k : Store Word) (b w : Nat) : Nat := (Store.get k 0 (16 * b + w)).toNat
/-- Gain word `g` of set `t` of block `b`. -/
def gWord (k : Store Word) (b t g : Nat) : Nat := (Store.get k 0 (4096 + 64 * b + 8 * t + g)).toNat

def dType (k : Store Word) (b : Nat) : Nat := bits (dWord k b 0) 0 4
def dArm (k : Store Word) (b : Nat) : Nat := bits (dWord k b 0) 4 3
def dRgn (k : Store Word) (b : Nat) : Nat := bits (dWord k b 0) 8 3
def dRgnEn (k : Store Word) (b : Nat) : Bool := bitOf (dWord k b 0) 11
def dCh (k : Store Word) (b : Nat) : Nat := bits (dWord k b 0) 12 3
def dChEn (k : Store Word) (b : Nat) : Bool := bitOf (dWord k b 0) 15
def dDynMin (k : Store Word) (b : Nat) : Bool := bitOf (dWord k b 0) 16
def dDynMax (k : Store Word) (b : Nat) : Bool := bitOf (dWord k b 0) 17
def dA (k : Store Word) (b : Nat) : Nat := bits (dWord k b 1) 0 10
def dB (k : Store Word) (b : Nat) : Nat := bits (dWord k b 1) 16 10
def dC (k : Store Word) (b : Nat) : Nat := bits (dWord k b 2) 0 10
/-- Saturation link 0 or 1: linked block, enable, inversion. -/
def dLink (k : Store Word) (b l : Nat) : Nat × Bool × Bool :=
  let v := if l = 0 then bits (dWord k b 2) 16 10 else bits (dWord k b 3) 0 10
  (v % 256, bitOf v 8, bitOf v 9)
/-- Parameter P_i. -/
def dP (k : Store Word) (b i : Nat) : Nat := dWord k b (4 + i)

/-! Table 3. -/

def tCost (t : Nat) : Nat := ([0, 1, 2, 3, 2, 1, 2, 4, 3, 2, 1, 1, 6] : List Nat).getD t 0
def tUsesA (t : Nat) : Bool := 1 ≤ t && t ≤ 12
def tUsesB (t : Nat) : Bool := t == 1 || t == 5 || t == 8 || t == 9
def tUsesC (t : Nat) : Bool := t == 1 || t == 2 || t == 3 || t == 5 || t == 6 || t == 7 || t == 9
def tSat (t : Nat) : Bool := t == 2 || t == 3 || t == 5 || t == 6 || t == 7 || t == 12
/-- The types that read saturation links (R115, R116). -/
def tLinks (t : Nat) : Bool := t == 2 || t == 3

/-- A source code that Table 2 marks reserved (R113). -/
def srcReserved (c : Nat) : Bool :=
  !(c < 0x240 || (0x240 ≤ c && c ≤ 0x245) || (0x248 ≤ c && c ≤ 0x24D) || (0x250 ≤ c && c ≤ 0x255) ||
    (0x260 ≤ c && c ≤ 0x280) || c == 0x3FE || c == 0x3FF)

/-! The load check (R135, Table 6). -/

/-- ERR, BLOCK, KIND and total cost of the edit bank, against the enabled arms. `arms`: mask of the enabled arms. -/
structure CheckSt where
  err   : Nat := 0
  at_   : Nat := 0
  kind  : Nat := 0
  cost  : Nat := 0
  /-- Arms and capture channels claimed so far. -/
  armsSeen : Nat := 0
  chSeen   : Nat := 0
  deriving DecidableEq, Repr

/-- The first failure stands. -/
def CheckSt.fail (c : CheckSt) (err at_ kind : Nat) (bad : Bool) : CheckSt :=
  if bad && c.err == 0 then { c with err := err, at_ := at_, kind := kind } else c

/-- One block, the errors of one block in the order of Table 6 (DEDUCED, log entry 35). -/
def checkBlock (k : Store Word) (arms : Nat) (c : CheckSt) (b : Nat) : CheckSt :=
  let t := dType k b
  let cost := c.cost + tCost t
  let arm := dArm k b
  let tap := t == 11 && dChEn k b
  let src := (tUsesA t && srcReserved (dA k b)) || (tUsesB t && srcReserved (dB k b)) ||
    (tUsesC t && srcReserved (dC k b))
  let link (l : Nat) : Bool := let x := dLink k b l; tLinks t && x.2.1 && !tSat (dType k x.1)
  let badOut := t == 12 && (!(bitOf arms arm) || bitOf c.armsSeen arm)
  let c' := { c with cost := cost }
  let c' := c'.fail 1 b 0 (decide (c.cost ≤ 320) && decide (320 < cost))
  let c' := c'.fail 2 b 0 (decide (13 ≤ t))
  let c' := c'.fail 3 b 0 src
  let c' := c'.fail 4 b 0 badOut
  let c' := c'.fail 5 b 0 (tap && bitOf c.chSeen (dCh k b))
  let c' := c'.fail 6 b 0 (link 0 || link 1)
  let c' := c'.fail 7 b 0 (arm == 6)
  { c' with armsSeen := if t = 12 then setBits c'.armsSeen arm 1 1 else c'.armsSeen,
            chSeen := if tap then setBits c'.chSeen (dCh k b) 1 1 else c'.chSeen }

/-- The whole check: blocks, detectors with EN = 1, enabled arms. -/
def State.checkList (s : State) : Nat × Nat × Nat × Nat :=
  let k := s.bank false
  let arms := ofBits ((List.range 6).filter s.armOn)
  let c := (List.range 256).foldl (checkBlock k arms) {}
  let c := (List.range 8).foldl (fun c d =>
    CheckSt.fail c 3 d 1 (s.rdB (F.ACE_RGN_CFG_EN d) &&
      (srcReserved (s.rd (F.ACE_RGN_CFG_X1_SRC d)) || srcReserved (s.rd (F.ACE_RGN_CFG_X2_SRC d))))) c
  let c := (List.range 6).foldl (fun c a => CheckSt.fail c 4 a 2 (bitOf arms a && !bitOf c.armsSeen a)) c
  (c.err, c.at_, c.kind, c.cost)

/-! List commands (R134 to R138). -/

/-- A word written in an edit window; `key` as in `AceSt` (R134). -/
def State.editWrite (s : State) (key : Nat) (v : Word) : State :=
  if s.rdB F.ACE_STAT_SWITCH_PEND || s.rdB F.ACE_LIST_STAT_BUSY then s.wrB F.ACE_LIST_STAT_IGN true
  else
    let s := s.wrB F.ACE_LIST_STAT_OK false
    if s.rdB F.ACE_STAT_BANK then { s with ace := { s.ace with bank0 := Store.put s.ace.bank0 0 key v } }
    else { s with ace := { s.ace with bank1 := Store.put s.ace.bank1 0 key v } }

/-- `ACE_LIST_CMD.COPY`. -/
def aceCopy (s : State) : State :=
  if s.rdB F.ACE_LIST_STAT_BUSY then s
  else if s.rdB F.ACE_STAT_SWITCH_PEND then s.wrB F.ACE_LIST_STAT_IGN true
  else { (s.wrB F.ACE_LIST_STAT_BUSY true) with ace := { s.ace with copying := true } }

def aceCopyDone (s : State) : State :=
  if s.ace.copying then
    let s := { s with ace := { s.ace with copying := false } }
    let s := (s.wrB F.ACE_LIST_STAT_BUSY false).wrB F.ACE_LIST_STAT_OK false
    if s.rdB F.ACE_STAT_BANK then { s with ace := { s.ace with bank0 := s.ace.bank1 } }
    else { s with ace := { s.ace with bank1 := s.ace.bank0 } }
  else s

/-- `ACE_LIST_CMD.CHECK`: judged as it starts. -/
def aceCheck (s : State) : State :=
  if s.rdB F.ACE_LIST_STAT_BUSY then s
  else { (s.wrB F.ACE_LIST_STAT_BUSY true) with ace := { s.ace with checking := some s.checkList, topoHit := false } }

def aceCheckDone (s : State) : State :=
  match s.ace.checking with
  | none => s
  | some (err, at_, kind, cost) =>
    let s := { s with ace := { s.ace with checking := none } }
    let s := (s.wrB F.ACE_LIST_STAT_BUSY false).wrB F.ACE_LIST_STAT_OK (err == 0 && !s.ace.topoHit)
    let s := (s.wr F.ACE_LIST_STAT_ERR err).wr F.ACE_LIST_STAT_BLOCK at_
    (s.wr F.ACE_LIST_STAT_KIND kind).wr F.ACE_LIST_STAT_COST (min 511 cost)

/-- `ACE_LIST_CMD.SWITCH` (R136). -/
def aceSwitch (s : State) : State :=
  if s.rdB F.ACE_LIST_STAT_BUSY then s
  else if !s.rdB F.ACE_LIST_STAT_OK || s.rdB F.ACE_STAT_SWITCH_PEND then s.raise 0x008
  else s.wrB F.ACE_STAT_SWITCH_PEND true

/-- A topology write that R43 accepts (R135, R136). -/
def State.aceTopology (s : State) : State :=
  { (s.wrB F.ACE_LIST_STAT_OK false) with ace := { s.ace with topoHit := true } }

/-- A write of `ACE_LIST_CMD`: one with more than one of COPY, CHECK and SWITCH is ignored as a whole. -/
def State.aceListCmd (s : State) (v : Nat) : State :=
  match v % 8 with
  | 1 => aceCopy s
  | 2 => aceCheck s
  | 4 => aceSwitch s
  | _ => s

/-! Capture and generator events (R138, R140, R141). -/

/-- The capture ends in IDLE with ABORTED. -/
def State.capAbort (s : State) : State :=
  (s.wr F.ACE_CAP_STAT_STATE 0).wrB F.ACE_CAP_STAT_ABORTED true

/-- The generator ends in IDLE with ABORTED; an armed or synchronous capture ends with it. -/
def State.genAbort (s : State) : State :=
  let s := { s with ace := { s.ace with sample := 0, stopReq := false } }
  let s := (s.wr F.ACE_INJ_STAT_STATE 0).wrB F.ACE_INJ_STAT_ABORTED true
  let c := s.rd F.ACE_CAP_STAT_STATE
  if c = 1 ∨ (c = 2 ∧ s.rdB F.ACE_CAP_CTRL_SYNC_INJ) then s.capAbort else s

/-- The capture enters RUN. -/
def State.capRun (s : State) : State :=
  { (s.wr F.ACE_CAP_STAT_STATE 2) with ace := { s.ace with capDec := 0 } }

/-- The generator enters RUN: n = 0, and an armed capture starts with it. -/
def State.genRun (s : State) : State :=
  let s := { (s.wr F.ACE_INJ_STAT_STATE 2) with ace := { s.ace with genN := 0, genIdx := 0 } }
  if s.rd F.ACE_CAP_STAT_STATE = 1 then s.capRun else s

/-- The generator's target block is an INJECT block of the active bank whose arm is deblocked or 7. -/
def State.targetOk (s : State) : Bool :=
  let k := s.bank true
  let b := s.rd F.ACE_INJ_CTRL_TARGET
  dType k b == 10 && (dArm k b == 7 || s.deblocked (dArm k b))

/-- `ACE_INJ_CMD.START` (R140). -/
def injectStart (s : State) : State :=
  let mode := s.rd F.ACE_INJ_CTRL_MODE
  if s.rd F.ACE_INJ_STAT_STATE != 0 || !s.targetOk || mode == 3 || 6 ≤ s.rd F.ACE_INJ_CTRL_PRBS ||
      (mode == 0 && s.rd F.ACE_INJ_LEN_LEN == 0) then
    s.wrB F.ACE_INJ_STAT_REFUSED true
  else
    let s := ((s.wrB F.ACE_INJ_STAT_REFUSED false).wrB F.ACE_INJ_STAT_DONE false).wrB F.ACE_INJ_STAT_ABORTED false
    let fade := s.rd F.ACE_INJ_CTRL_FADE
    let s := { s with ace := { s.ace with acc := 0, lfsr := 2 ^ 31 - 1, hold := 0, genN := 0, genIdx := -(fade : Int),
                                          stopReq := false } }
    if fade = 0 then s.genRun else s.wr F.ACE_INJ_STAT_STATE 1

/-- `ACE_INJ_CMD.STOP`: it acts on a generator in RUN. -/
def injectStop (s : State) : State :=
  if s.rd F.ACE_INJ_STAT_STATE = 2 then { s with ace := { s.ace with stopReq := true } } else s

/-- `ACE_CAP_CMD.START` (Table 9). -/
def captureStart (s : State) : State :=
  let st := s.rd F.ACE_CAP_STAT_STATE
  if st = 0 ∨ st = 3 then
    let s := ((s.wrB F.ACE_CAP_STAT_ABORTED false).wrB F.ACE_CAP_STAT_DFT_DONE false).wr F.ACE_CAP_STAT_DFT_NA 0
    let s := s.wr F.ACE_CAP_CNT_COUNT 0
    if s.rdB F.ACE_CAP_CTRL_SYNC_INJ then s.wr F.ACE_CAP_STAT_STATE 1 else s.capRun
  else s

/-- `ACE_CAP_CMD.STOP`. -/
def captureStop (s : State) : State :=
  let st := s.rd F.ACE_CAP_STAT_STATE
  if st = 1 ∨ st = 2 then s.capAbort else s

/-- The exchange of banks at a cycle start (R136 to R138). -/
def State.bankSwitch (s : State) : State :=
  if s.rdB F.ACE_STAT_SWITCH_PEND then
    let old := s.bank true
    let oldArm := dArm old (s.rd F.ACE_INJ_CTRL_TARGET)
    let s := (s.wrB F.ACE_STAT_SWITCH_PEND false).wrB F.ACE_STAT_BANK (!s.rdB F.ACE_STAT_BANK)
    let new := s.bank true
    let kept (b : Nat) : Bool := dType old b == dType new b && dArm old b == dArm new b
    let s := { s with ace := { s.ace with blks := s.ace.blks.filter (fun p => kept p.1) } }
    let s := s.count 0x004
    let b := s.rd F.ACE_INJ_CTRL_TARGET
    let s := if s.rd F.ACE_INJ_STAT_STATE != 0 && !(dType new b == 10 && dArm new b == oldArm) then s.genAbort else s
    if s.rd F.ACE_CAP_STAT_STATE = 2 then s.capAbort else s
  else s

/-! Mailboxes (R130 to R133). -/

def State.stgStat (s : State) (q : Nat) : Nat := (Store.get s.ace.stgStat 0 q).toNat
def State.setStgStat (s : State) (q v : Nat) : State :=
  { s with ace := { s.ace with stgStat := Store.put s.ace.stgStat 0 q (BitVec.ofNat 32 v) } }
def State.stgWords (s : State) (q : Nat) : List Word := (List.range 4).map (fun n => Store.get s.ace.staging 0 (4 * q + n))

/-- A commit of four words by requester `q` for mailbox `m` waits for its grant (R131, R133). -/
def State.commitMbx (s : State) (q m : Nat) (words : List Word) : State :=
  if bitOf (s.stgStat q) 0 then s.setStgStat q (setBits (s.stgStat q) 1 1 1)
  else
    let s := { s with ace := { s.ace with waiting := s.ace.waiting ++ [({ slot := s.cyc, who := q, mbx := m, words := words } : MbxCommit)] } }
    s.setStgStat q (1 + m % 64 * 4)

/-- A write of `ACE_STG_COMMIT` by core 0 to 3 or by the host, 4. -/
def stgCommit (q m : Nat) (s : State) : State := s.commitMbx q (m % 64) (s.stgWords q)

/-- The commit that is granted next for mailbox `m`: the earliest slot first, and in one slot the cores, lower first,
then the host (R36, R37). -/
def State.nextCommit (s : State) (m : Nat) : Option MbxCommit :=
  (s.ace.waiting.filter (fun c => c.mbx == m)).foldl (fun best c =>
    match best with
    | none => some c
    | some b => if c.slot = b.slot ∧ c.who < b.who then some c else some b) none

/-- A grant for mailbox `m`: one per mailbox and cycle (R131). -/
def mailboxCommitGrant (m : Nat) (s : State) : State :=
  if s.ace.granted.any (fun c => c.mbx == m) then s
  else
    match s.nextCommit m with
    | none => s
    | some c =>
      let s := { s with ace := { s.ace with waiting := s.ace.waiting.erase c, granted := s.ace.granted ++ [c] } }
      (s.setStgStat c.who (setBits (s.stgStat c.who) 0 1 0)).count 0x00A

/-- The granted commits become the active words. -/
def State.commitWords (s : State) : State :=
  s.ace.granted.foldl (fun s c =>
    (List.range 4).foldl (fun s w => s.setReg (R.ACE_MBX (4 * c.mbx + w)) (nth c.words w 0)) s) s

/-- At a cycle start the granted commits become the active words, and each request not granted in its first cycle
counts as deferred (R131, R39). -/
def State.commitMailboxes (s : State) : State :=
  let s := s.commitWords
  let late := s.ace.waiting.filter (fun c => !c.counted)
  let s := { s with ace := { s.ace with granted := [],
                                        waiting := s.ace.waiting.map (fun (c : MbxCommit) => { c with counted := true }) } }
  s.defer 2 late.length

/-! The pass. -/

/-- What a pass holds fixed: the active bank, and the instant at which its sources are latched (R106). -/
structure PassCtx where
  k : Store Word
  h : Time
  /-- Source values that a journal record brings in place of the hub's own (R382). -/
  inp : List (Nat × Nat × Bool) := []

def State.blk (s : State) (b : Nat) : AceBlk := Store.get s.ace.blks {} b
def State.setBlk (s : State) (b : Nat) (x : AceBlk) : State :=
  { s with ace := { s.ace with blks := Store.put s.ace.blks {} b x } }

/-- The hold of R112. -/
def State.measHold (s : State) (c p : Nat) : Bool :=
  if c < 8 then bitOf (s.reg R.ACE_MHOLD0).toNat (4 * c + p) else bitOf (s.reg R.ACE_MHOLD1).toNat (4 * (c - 8) + p)

/-- The value of the last output of a channel and preset that carried no flag, at or before hall time `h`; 0.0 when there
has been none since reset (R112). -/
def State.heldVolt (s : State) (c p : Nat) (h : Time) : Nat :=
  match (Store.get s.miHeld [] (4 * c + p)).find? (fun o => o.1 ≤ h) with
  | some o => s.voltOf c o.2
  | none => 0

/-- The value of a channel and preset with its hold, and its flag (R106, R111, R112). -/
def State.measVal (s : State) (c p : Nat) (h : Time) : Nat × Bool :=
  let v := s.voltAt c p h
  if v.2 && s.measHold c p then (s.heldVolt c p h, true) else v

/-- A count as binary32. -/
def f32Nat (n : Nat) : Nat := b32.put (Fp.ofInt n)

/-- The value and MEAS flag of a source code (Table 2). -/
def State.source (s : State) (x : PassCtx) (c : Nat) : Nat × Bool :=
  if c < 0x100 then let b := s.blk c; (b.y, b.meas)
  else if x.inp.any (fun i => i.1 == c) then ((x.inp.find? (fun i => i.1 == c)).map Prod.snd).getD (0, false)
  else if c < 0x140 then s.measVal ((c - 0x100) / 4) ((c - 0x100) % 4) x.h
  else if c < 0x240 then ((s.reg (R.ACE_MBX (c - 0x140))).toNat, false)
  else if c < 0x246 then (s.rd (F.GAL_ARM_VC_VALUE (c - 0x240)), false)
  else if 0x248 ≤ c ∧ c < 0x24E then (f32Nat (s.rd (F.GAL_ARM_AVAIL_N_POS (c - 0x248))), false)
  else if 0x250 ≤ c ∧ c < 0x256 then (f32Nat (s.rd (F.GAL_ARM_AVAIL_N_NEG (c - 0x250))), false)
  else if 0x260 ≤ c ∧ c < 0x280 then (s.rd (F.ACE_CONST_VALUE (c - 0x260)), false)
  else if c = 0x280 then (s.ace.sample, false)
  else if c = 0x3FE then (0x3F800000, false)
  else (0, false)

/-- Engine-numeric fault (R110, R120, R123): the sticky bit, the first block and the count for a block execution. -/
def State.numFault (s : State) (b : Option Nat) : State :=
  let s := match b with
    | some b =>
      let s := if s.rd F.ACE_NUM_STAT_COUNT = 0 then s.wr F.ACE_NUM_STAT_FIRST_BLOCK b else s
      (s.incSat F.ACE_NUM_STAT_COUNT).count 0x003
    | none => (s.wrB F.ACE_NUM_STAT_DETF true).count 0x003
  (s.wrB F.ACE_NUM_STAT_NUMF true).raise 0x007

/-! Region detectors (R123, R124). -/

/-- Up while b < 3 and x >= theta_(b+1) + H, then down while b > 0 and x < theta_b - H. -/
def bandUp (fuel : Nat) (th : Nat → Fp) (h x : Fp) (b : Nat) : Nat :=
  match fuel with
  | 0 => b
  | n + 1 => if b < 3 && Fp.le (eAdd (th (b + 1)) h) x then bandUp n th h x (b + 1) else b
def bandDown (fuel : Nat) (th : Nat → Fp) (h x : Fp) (b : Nat) : Nat :=
  match fuel with
  | 0 => b
  | n + 1 => if 0 < b && Fp.lt x (eSub (th b) h) then bandDown n th h x (b - 1) else b

/-- One band of a detector. A threshold of +infinity is never reached. -/
def bandStep (th : Nat → Fp) (h x : Fp) (b : Nat) : Nat :=
  let h := if Fp.lt h Fp.zero then Fp.zero else h
  let th' (i : Nat) : Fp := if th i = .inf false then .nan else th i
  bandDown 3 th h x (bandUp 3 th' h x b)

/-- Detector `d` in one pass. -/
def State.detector (s : State) (x : PassCtx) (d : Nat) : State :=
  if !s.rdB (F.ACE_RGN_CFG_EN d) then
    let old := s.rd (F.ACE_RGN_STAT_SET d)
    let s := ((s.wr (F.ACE_RGN_STAT_BAND1 d) 0).wr (F.ACE_RGN_STAT_BAND2 d) 0).wr (F.ACE_RGN_STAT_REGION d) 0
    let set := s.rd (F.ACE_RGN_MAP0_SET d 0)
    let s := (s.wr (F.ACE_RGN_STAT_SET d) set).wrB (F.ACE_RGN_STAT_NUMF d) false
    if set = old then s else s.incWrap (F.ACE_RGN_STAT_CHANGES d)
  else
    let v1 := eDec (s.source x (s.rd (F.ACE_RGN_CFG_X1_SRC d))).1
    let v2 := eDec (s.source x (s.rd (F.ACE_RGN_CFG_X2_SRC d))).1
    let th1 (i : Nat) : Fp := eDec (s.rd (F.ACE_RGN_TH1_VALUE d (i - 1)))
    let th2 (i : Nat) : Fp := eDec (s.rd (F.ACE_RGN_TH2_VALUE d (i - 1)))
    let b1 := s.rd (F.ACE_RGN_STAT_BAND1 d)
    let b2 := s.rd (F.ACE_RGN_STAT_BAND2 d)
    let b1 := if v1.isNan then b1 else bandStep th1 (eDec (s.rd (F.ACE_RGN_HYS1_VALUE d))) v1 b1
    let b2 := if v2.isNan then b2 else bandStep th2 (eDec (s.rd (F.ACE_RGN_HYS2_VALUE d))) v2 b2
    let r := b1 + 4 * b2
    let set := if r < 10 then s.rd (F.ACE_RGN_MAP0_SET d r) else s.rd (F.ACE_RGN_MAP1_SET d (r - 10))
    let old := s.rd (F.ACE_RGN_STAT_SET d)
    let s := ((s.wr (F.ACE_RGN_STAT_BAND1 d) b1).wr (F.ACE_RGN_STAT_BAND2 d) b2).wr (F.ACE_RGN_STAT_REGION d) r
    let s := s.wr (F.ACE_RGN_STAT_SET d) set
    let s := if set = old then s else s.incWrap (F.ACE_RGN_STAT_CHANGES d)
    let bad := v1.isNan || v2.isNan
    let s := s.wrB (F.ACE_RGN_STAT_NUMF d) bad
    if bad then s.numFault none else s

/-! Blocks. -/

/-- What the execution of a block gives: its new record, and whether R120's bad breakpoints make it faulting. -/
structure BlkRes where
  x     : AceBlk
  fault : Bool := false
  deriving DecidableEq, Repr

/-- linked_hi and linked_lo of the enabled links (R116). -/
def State.linked (s : State) (k : Store Word) (b : Nat) : Bool × Bool :=
  (List.range 2).foldl (fun r l =>
    let x := dLink k b l
    if x.2.1 then
      let f := s.blk x.1
      let hi := if x.2.2 then f.lo else f.hi
      let lo := if x.2.2 then f.hi else f.lo
      (r.1 || hi, r.2 || lo)
    else r) (false, false)

/-- PI (R115, R125, Table 5). -/
def blkPi (o : AceBlk) (blocked : Bool) (set : Nat) (a c kp ki ymin ymax : Fp) (cZero lhi llo : Bool) : AceBlk :=
  if blocked then
    let x := fClamp (if cZero then Fp.zero else c) ymin ymax
    let s := eFma kp a x
    let y := fClamp s ymin ymax
    { o with y := eEnc y, s1 := eEnc x, u1 := eEnc a, hi := Fp.lt ymax s, lo := Fp.lt s ymin, set := set, kp := eEnc kp }
  else
    let x0 := eDec o.s1
    let x := if o.ran && (o.set != set || o.kp != eEnc kp) then
        fClamp (eFma ((eDec o.kp).sub kp) (eDec o.u1) x0) ymin ymax
      else x0
    let p := eMul kp a
    let dx := eMul ki a
    let t := eAdd (eAdd p x) dx
    let sh := Fp.lt ymax t || lhi
    let sl := Fp.lt t ymin || llo
    let xn := if (Fp.lt Fp.zero dx && sh) || (Fp.lt dx Fp.zero && sl) then x else fClamp (eAdd x dx) ymin ymax
    let s := eAdd p xn
    let y := fClamp s ymin ymax
    { o with y := eEnc y, s1 := eEnc xn, u1 := eEnc a, hi := Fp.lt ymax s, lo := Fp.lt s ymin, set := set, kp := eEnc kp }

/-- RES (R116, Table 5); the products left to right, each after the first fused (R109). -/
def blkRes (o : AceBlk) (blocked linked : Bool) (a b0 b1 b2 a1 a2 ymin ymax : Fp) : AceBlk :=
  if blocked then { o with y := 0, s1 := 0, s2 := 0, u1 := 0, u2 := 0, hi := false, lo := false }
  else if linked then o
  else
    let v := eMul b0 a
    let v := eFma b1 (eDec o.u1) v
    let v := eFma b2 (eDec o.u2) v
    let v := eFma a1.neg (eDec o.s1) v
    let v := eFma a2.neg (eDec o.s2) v
    let y := fClamp v ymin ymax
    { o with y := eEnc y, s1 := eEnc y, s2 := o.s1, u1 := eEnc a, u2 := o.u1, hi := Fp.lt ymax v, lo := Fp.lt v ymin }

/-- LEADLAG. -/
def blkLeadlag (o : AceBlk) (blocked : Bool) (a b0 b1 a1 : Fp) : AceBlk :=
  if blocked then
    let den := eAdd (.fin false 1 0) a1
    let y := if den.isNan || Fp.lt den Fp.zero || Fp.lt Fp.zero den then eDiv (eMul (eAdd b0 b1) a) den else Fp.zero
    { o with y := eEnc y, s1 := eEnc y, u1 := eEnc a }
  else
    let v := eFma a1.neg (eDec o.s1) (eFma b1 (eDec o.u1) (eMul b0 a))
    { o with y := eEnc v, s1 := eEnc v, u1 := eEnc a }

/-- RATE (R117). -/
def blkRate (o : AceBlk) (a up dn : Fp) : AceBlk :=
  let y0 := eDec o.y
  let d := eSub a y0
  let y := eAdd y0 (fClamp d dn.neg up)
  { o with y := eEnc y, hi := Fp.lt up d, lo := Fp.lt d dn.neg }

/-- JERK (R118). -/
def blkJerk (o : AceBlk) (a s j : Fp) : AceBlk :=
  let y := eDec o.y
  let v := eDec o.s1
  let half : Fp := .fin false 1 (-1)
  let quarter : Fp := .fin false 1 (-2)
  let e := eSub a y
  let vb := eMul j (eSub (eSqrt (eAdd (eDiv (eMul (.fin false 2 0) e.abs) j) quarter)) half)
  let m := fMin s vb
  let vstar := if Fp.lt e Fp.zero then m.neg else if Fp.lt Fp.zero e then m else if e.isNan then .nan else Fp.zero
  let vn := eAdd v (fClamp (eSub vstar v) j.neg j)
  let step := eAdd y vn
  let past := Fp.lt (eMul e (eSub a step)) Fp.zero
  let yn := if past then a else step
  let vn := if past then Fp.zero else vn
  { o with y := eEnc yn, s1 := eEnc vn, hi := Fp.lt yn a, lo := Fp.lt a yn }

/-- f of R120 on the breakpoints, `none` where they break its rule. -/
def schedF (x y : Nat → Fp) (a : Fp) : Option Fp :=
  let eqPt (i j : Nat) : Bool := Fp.le (x i) (x j) && Fp.le (x j) (x i) && Fp.le (y i) (y j) && Fp.le (y j) (y i)
  let tail (u : Nat) : Bool := (List.range 6).all (fun i => i ≤ u || eqPt u i)
  let u := ((List.range 6).find? tail).getD 5
  let asc := (List.range u).all (fun i => Fp.lt (x i) (x (i + 1)))
  if !asc || (x 0).isNan then none
  else if a.isNan then some .nan
  else if Fp.le a (x 0) then some (y 0)
  else if Fp.le (x u) a then some (y u)
  else
    let i := ((List.range u).filter (fun i => Fp.le (x i) a)).length - 1
    let r := eDiv (eSub a (x i)) (eSub (x (i + 1)) (x i))
    some (eFma (eSub (y (i + 1)) (y i)) r (y i))

/-- A whole number of a datum that may be infinite. -/
def fFloor (x : Fp) : Fp := match x with | .fin _ _ _ => Fp.ofInt x.floor | y => y
def fCeil (x : Fp) : Fp := match x with | .fin _ _ _ => Fp.ofInt x.ceil | y => y

/-- ARMOUT (R127 to R129) of an arm that is not blocked: the block's record, and the arm's record when the result is a
number. -/
def State.blkArmout (s : State) (o : AceBlk) (arm : Nat) (v p0 p1 : Fp) (meas : Bool) : AceBlk × Option ArmRec :=
  let r := Store.get s.ace.recs {} arm
  let vc := eDec (s.rd (F.GAL_ARM_VC_VALUE arm))
  if !vc.isFin || Fp.le vc Fp.zero then ({ o with y := eEnc .nan }, none)
  else
    let m := eDiv v vc
    let hi := fMin (fFloor p1) (Fp.ofInt (s.rd (F.GAL_ARM_AVAIL_N_POS arm)))
    let lo := fMax (fCeil p0) (Fp.ofInt (-(s.rd (F.GAL_ARM_AVAIL_N_NEG arm) : Int)))
    let mc := fMin (fMax m lo) hi
    if !mc.isFin then ({ o with y := eEnc .nan }, none)
    else
      let nPrev : Int := if r.live then r.n else 0
      let mPrev : Int := if r.live then r.m else 0
      let (n, d) : Int × Nat :=
        if s.rdB (F.ACE_ARM_CFG_DITHER arm) then
          let n := mc.floor
          let d := ((eSub mc (Fp.ofInt n)).mul (Fp.ofInt 4096)).roundHE.toNat
          if d = 4096 then (n + 1, 0) else (n, d)
        else (mc.roundHE, 0)
      let dmax : Int := s.rd (F.ACE_ARM_CFG_DMAX arm)
      let up := decide (dmax ≠ 0) && r.live && decide (dmax < n - nPrev)
      let dn := decide (dmax ≠ 0) && r.live && decide (n - nPrev < -dmax)
      let n' := if up then nPrev + dmax else if dn then nPrev - dmax else n
      let d' := if up || dn then 0 else d
      let x := { o with y := eEnc mc, hi := Fp.lt hi m || up, lo := Fp.lt m lo || dn }
      (x, some { n := n', delta := n' - nPrev, d := d', m := (mc.mul (Fp.ofInt 16384)).roundHE,
                 nPrev := nPrev, mPrev := mPrev, meas := meas, numf := false, live := true, same := r.live })

/-- The arm registers show the record (Tables 17 and 18). -/
def State.showRec (s : State) (arm : Nat) (hi lo : Bool) : State :=
  let r := Store.get s.ace.recs {} arm
  let s := (s.wrI (F.ACE_ARM_OUT_N arm) r.n).wrI (F.ACE_ARM_OUT_DELTA arm) r.delta
  let s := (s.wrB (F.ACE_ARM_OUT_SAT_HI arm) hi).wrB (F.ACE_ARM_OUT_SAT_LO arm) lo
  let s := (s.wrB (F.ACE_ARM_OUT_MEAS arm) r.meas).wrB (F.ACE_ARM_OUT_NUMF arm) r.numf
  (s.wr (F.ACE_ARM_FRAC_DUTY arm) r.d).wrI (F.ACE_ARM_POS_M arm) r.m

def State.setRec (s : State) (arm : Nat) (r : ArmRec) : State :=
  { s with ace := { s.ace with recs := Store.put s.ace.recs {} arm r } }

/-- The MEAS flag of the operands that a block reads in a pass (R111). -/
def opMeas (t : Nat) (blocked dmin dmax cZero a b c : Bool) : Bool :=
  if t = 0 then false
  else if t = 1 then a || b || c
  else if t = 2 then a || (blocked && !cZero && c)
  else if t = 3 then !blocked && a
  else if t = 5 then a || (dmin && b) || (dmax && c)
  else if t = 6 ∨ t = 7 then (if blocked && !cZero then c else a)
  else if t = 8 then a || b
  else if t = 9 then a || b || c
  else if t = 12 then !blocked && a
  else a

/-- Arm `a` is deblocked in the next frame, as the requests and reactions of this moment say: a deblock accepted for its
cycle start counts, so that the first frame after a deblock carries a selection (R129, R174, R418, R419). -/
def State.nextLive (s : State) (a : Nat) : Bool :=
  let t := s.hallInstant s.nextStart
  let due := s.host.armReq.filter (fun r => decide (r.2.2 + margin ≤ t))
  let ask (d : Bool) : Bool := due.any (fun r => r.1 == d && bitOf r.2.1 a)
  let st := s.rd F.STK_RED_STAT_STATE
  let held := (s.acting t).any (fun r => bitOf r.arms a) ||
    s.flt.stackBlk.any (fun b => decide (b.t + margin ≤ t)) || (s.ringsOf a).any (fun r => (s.port r).token.isNone) ||
    (s.dupMode == 2 && !(st == 1 || (st == 3 && s.stk.emitting))) || !s.armOn a
  !held && !ask false && (ask true || s.deblocked a)

/-- The arm is deblocked in the frame the pass serves, or a takeover carries it deblocked (R382, R384). -/
def State.engLive (s : State) (a : Nat) : Bool := s.nextLive a || bitOf s.stk.carry a

/-- One block in a pass (R107, R110, R114, R122). -/
def State.execBlock (x : PassCtx) (s : State) (b : Nat) : State :=
  let k := x.k
  let t := dType k b
  let arm := dArm k b
  let o := s.blk b
  let set := if dRgnEn k b then s.rd (F.ACE_RGN_STAT_SET (dRgn k b)) else 0
  let blocked := arm < 6 && !(s.engLive arm && s.armOn arm)
  let va := s.source x (dA k b)
  let vb := s.source x (dB k b)
  let vc := s.source x (dC k b)
  let a := eDec va.1
  let bb := eDec vb.1
  let c := eDec vc.1
  let g (i : Nat) : Fp := eDec (gWord k b set i)
  let p (i : Nat) : Fp := eDec (dP k b i)
  let cZero := dC k b == 0x3FF
  let meas := opMeas t blocked (dDynMin k b) (dDynMax k b) cZero va.2 vb.2 vc.2
  let o := { o with set := set }
  let lk := s.linked k b
  let armout := if t = 12 && !blocked && arm < 6 then s.blkArmout o arm a (p 0) (p 1) meas else ({ o with y := 0 }, none)
  let res : BlkRes :=
    if t = 1 then ⟨{ o with y := eEnc (eFma (g 2) c (eFma (g 1) bb (eMul (g 0) a))) }, false⟩
    else if t = 2 then ⟨blkPi (s.blk b) blocked set a c (g 0) (g 1) (p 0) (p 1) cZero lk.1 lk.2, false⟩
    else if t = 3 then ⟨blkRes o blocked (lk.1 || lk.2) a (g 0) (g 1) (g 2) (g 3) (g 4) (p 0) (p 1), false⟩
    else if t = 4 then ⟨blkLeadlag o blocked a (g 0) (g 1) (g 2), false⟩
    else if t = 5 then
      let lo := if dDynMin k b then bb else p 0
      let hi := if dDynMax k b then c else p 1
      ⟨{ o with y := eEnc (fMin (fMax a lo) hi), hi := Fp.lt hi a, lo := Fp.lt a lo }, false⟩
    else if t = 6 ∨ t = 7 then
      if blocked then
        ⟨{ o with y := eEnc (if cZero then a else c), s1 := 0, hi := false, lo := false }, false⟩
      else ⟨if t = 6 then blkRate o a (p 0) (p 1) else blkJerk o a (p 0) (p 1), false⟩
    else if t = 8 then
      match schedF p (fun i => p (6 + i)) a with
      | some f => ⟨{ o with y := eEnc (eMul f bb) }, false⟩
      | none => ⟨{ o with y := 0 }, true⟩
    else if t = 9 then
      let c1 := if o.ran then eDec o.s1 else c
      ⟨{ o with y := eEnc (eFma (g 2) (eSub c c1) (eFma (g 1) bb (eMul (g 0) a))), s1 := eEnc c }, false⟩
    else if t = 10 then
      let tgt := !blocked && s.rd F.ACE_INJ_STAT_STATE != 0 && s.rd F.ACE_INJ_CTRL_TARGET == b
      ⟨{ o with y := eEnc (if tgt then eAdd a (eDec s.ace.sample) else a) }, false⟩
    else if t = 11 then ⟨{ o with y := eEnc a }, false⟩
    else if t = 12 then
      if blocked then ⟨{ o with y := 0, hi := false, lo := false }, false⟩ else ⟨armout.1, false⟩
    else ⟨{ o with y := 0 }, false⟩
  let bad := !(b32.dec res.x.y).isFin
  let old := s.blk b
  let new : AceBlk :=
    if bad then { old with meas := meas, numf := true, ran := true, set := set }
    else { res.x with meas := meas, numf := res.fault, ran := true }
  let s := s.setBlk b new
  let s := if bad || res.fault then s.numFault (some b) else s
  let s := if t = 11 ∧ dChEn k b then { s with ace := { s.ace with tapIn := Store.put s.ace.tapIn 0 (dCh k b) va.1 } } else s
  if t = 12 ∧ arm < 6 then
    let r := Store.get s.ace.recs {} arm
    let s :=
      if blocked then s.setRec arm { n := 0, delta := 0, d := 0, m := 0, nPrev := r.n, mPrev := r.m, meas := meas }
      else
        match armout.2 with
        | some q => s.setRec arm q
        | none =>
          s.setRec arm { r with delta := 0, nPrev := r.n, mPrev := r.m, meas := meas, numf := true, same := r.live,
                                live := true }
    s.showRec arm new.hi new.lo
  else s

/-! The generator (R139, R140). -/

/-- Length and second tap of each polynomial (Table 7). -/
def prbsPoly (i : Nat) : Nat × Nat :=
  ([(7, 6), (9, 5), (11, 9), (15, 14), (23, 18), (31, 28)] : List (Nat × Nat)).getD i (7, 6)

/-- The phase of tone `j` in 2^-48 of a turn at sample `n`. -/
def tonePhase (h p : Nat) (n : Int) (ph : Nat) : Nat :=
  ((((h : Int) * n) % (p : Int)).toNat * 2 ^ 48 / p + ph * 2 ^ 16) % 2 ^ 48

def State.injPeriod (s : State) : Nat := clampN 64 65536 (s.rd F.ACE_INJ_PERIOD_P)

/-- s_n of the mode, with the accumulator and the shift register as they stand. -/
def State.baseSignal (s : State) : Fp :=
  let mode := s.rd F.ACE_INJ_CTRL_MODE
  if mode = 0 then sinApprox (s.ace.acc * 2 ^ 16)
  else if mode = 1 then
    (List.range 16).foldl (fun v j =>
      let w := s.rd (F.ACE_TONE_AMP_VALUE j)
      if w % 2 ^ 31 = 0 then v
      else
        eFma (eDec w) (sinApprox (tonePhase (s.rd (F.ACE_DFT_CFG_H j)) s.injPeriod s.ace.genIdx
          (s.rd (F.ACE_TONE_PH_PH j)))) v) Fp.zero
  else .fin (!s.ace.lfsrBit) 1 0

/-- Before the sample is taken: an abort, and the shift of the LFSR (R139, R140). -/
def State.genShift (s : State) : State :=
  if s.rd F.ACE_INJ_CTRL_MODE = 2 then
    if s.ace.hold = 0 then
      let q := prbsPoly (s.rd F.ACE_INJ_CTRL_PRBS)
      let b := bitOf s.ace.lfsr (q.1 - 1) != bitOf s.ace.lfsr (q.2 - 1)
      { s with ace := { s.ace with lfsr := (2 * s.ace.lfsr + b2n b) % 2 ^ 31, lfsrBit := b,
                                   hold := s.rd F.ACE_INJ_CTRL_HOLD } }
    else { s with ace := { s.ace with hold := s.ace.hold - 1 } }
  else s

/-- The fade factor: i counts from 0 in FADE_IN and from 1 in FADE_OUT. -/
def State.fadeFactor (s : State) : Fp :=
  let st := s.rd F.ACE_INJ_STAT_STATE
  let fade := s.rd F.ACE_INJ_CTRL_FADE
  if st = 2 then .fin false 1 0
  else if st = 1 then eDiv (Fp.ofInt s.ace.genN) (Fp.ofInt fade)
  else eDiv (Fp.ofInt ((fade : Int) - (s.ace.genN + 1 : Nat))) (Fp.ofInt fade)

/-- The sample of this pass; 0.0 while the generator is in IDLE. -/
def State.genSample (s : State) : State :=
  if s.rd F.ACE_INJ_STAT_STATE = 0 then { s with ace := { s.ace with sample := 0 } }
  else if !s.targetOk then s.genAbort
  else
    let s := s.genShift
    let g := eMul (eMul (eDec (s.rd F.ACE_INJ_AMP_VALUE)) s.fadeFactor) s.baseSignal
    { s with ace := { s.ace with sample := eEnc g } }

/-- inc_n of the chirp, exact. -/
def State.chirpInc (s : State) : Nat :=
  let st := s.rd F.ACE_INJ_STAT_STATE
  let f0 := s.rd F.ACE_INJ_F0_INC
  let f1 := s.rd F.ACE_INJ_F1_INC
  if st = 1 then f0
  else if st = 3 then f1
  else
    let len := max 1 (s.rd F.ACE_INJ_LEN_LEN)
    ((f0 : Int) + ((f1 : Int) - f0) * s.ace.genIdx / (len : Int)).toNat

/-- The generator steps for the next pass (R140, Table 8). -/
def State.genStep (s : State) : State :=
  let st := s.rd F.ACE_INJ_STAT_STATE
  if st = 0 then s
  else
    let fade := s.rd F.ACE_INJ_CTRL_FADE
    let len := s.rd F.ACE_INJ_LEN_LEN
    let s := { s with ace := { s.ace with acc := (s.ace.acc + s.chirpInc) % 2 ^ 32, genN := s.ace.genN + 1,
                                          genIdx := s.ace.genIdx + 1 } }
    if st = 1 then (if fade ≤ s.ace.genN then s.genRun else s)
    else if st = 2 then
      if s.ace.stopReq || (len != 0 && len ≤ s.ace.genN) then
        let s := { s with ace := { s.ace with genN := 0, stopReq := false } }
        if fade = 0 then (s.wr F.ACE_INJ_STAT_STATE 0).wrB F.ACE_INJ_STAT_DONE true else s.wr F.ACE_INJ_STAT_STATE 3
      else s
    else if fade ≤ s.ace.genN then (s.wr F.ACE_INJ_STAT_STATE 0).wrB F.ACE_INJ_STAT_DONE true
    else s

/-! The capture (R141). -/

/-- Samples per channel: 0 acts as 1 (Table 28), and the model lets a LEN above 65,536 act as 65,536 (DESIGN CHOICE, log
entry 73). -/
def State.capLen (s : State) : Nat := clampN 1 65536 (s.rd F.ACE_CAP_LEN_LEN)

/-- The TAP block that feeds capture channel `i`. -/
def tapOf (k : Store Word) (i : Nat) : Option Nat :=
  (List.range 256).find? (fun b => dType k b == 11 && dChEn k b && dCh k b == i)

/-- One sample of each enabled channel, and DONE at the last; with it the words that it stores in core memory.
`ACE_CAP_CYC` takes the number of the frame that the pass serves (R105; DEDUCED, log entry 73). -/
def State.capSample (s : State) (k : Store Word) : State × List (Nat × Nat) :=
  if s.rd F.ACE_CAP_STAT_STATE != 2 then (s, [])
  else if 0 < s.ace.capDec then ({ s with ace := { s.ace with capDec := s.ace.capDec - 1 } }, [])
  else
    let n := s.rd F.ACE_CAP_CNT_COUNT
    let s := if n = 0 then s.wr F.ACE_CAP_CYC_CYC (s.cyc + 1) else s
    let base := s.rd F.ACE_CAP_BASE_BASE * 2 ^ 21
    let out := ((List.range 8).filter (fun i => s.getBit F.ACE_CAP_CTRL_CH_EN i)).filterMap (fun i =>
      (tapOf k i).map (fun b => (base + i * 0x40000 + 4 * n, (s.blk b).y)))
    let s := { (s.wr F.ACE_CAP_CNT_COUNT (n + 1)) with ace := { s.ace with capDec := s.rd F.ACE_CAP_CTRL_DEC } }
    (if s.capLen ≤ n + 1 then s.wr F.ACE_CAP_STAT_STATE 3 else s, out)

/-- TAP triggers of a pass, on the values that the TAPs have read in it (R121, R447): bit 8 + i when a > P0 of channel i,
bit 16 + i when a < P1. -/
def State.tapMask (s : State) (x : PassCtx) : Nat :=
  ofBits ((List.range 16).filterMap (fun j =>
    match tapOf x.k (j % 8) with
    | some b =>
      let a := eDec (Store.get s.ace.tapIn 0 (j % 8))
      let hit := if j < 8 then Fp.lt (eDec (dP x.k b 0)) a else Fp.lt a (eDec (dP x.k b 1))
      if hit then some (8 + j) else none
    | none => none))

/-- Rising comparisons fire at pass start `h` (R447). -/
def State.tapTriggers (s : State) (x : PassCtx) : State :=
  let m := s.tapMask x
  let r := (bitList m 24).foldl (fun (r : State × List Nat) i =>
      if bitOf s.recd.tapPrev i then r
      else let q := r.1.fire i x.h; (q.1, r.2 ++ q.2)) (s, [])
  let s := { r.1 with recd := { r.1.recd with tapPrev := m } }
  s.raiseAll 3 r.2

/-- The engine and the gallery of a standby, and of a hub that takes over before its replay is done, are idle (R370,
R382). -/
def State.idleUnit (s : State) : Bool :=
  let st := s.rd F.STK_RED_STAT_STATE
  st == 2 || (st == 3 && match s.stk.take with | some t => decide (t.phase < 5) | none => false)

/-- The source codes that the active list and its ARMOUT blocks read, apart from the results of blocks (R372). -/
def State.readCodes (s : State) (k : Store Word) : List Nat :=
  let blk (b : Nat) : List Nat :=
    let t := dType k b
    (if tUsesA t then [dA k b] else []) ++ (if tUsesB t then [dB k b] else []) ++ (if tUsesC t then [dC k b] else []) ++
      (if t = 12 ∧ dArm k b < 6 then [0x240 + dArm k b, 0x248 + dArm k b, 0x250 + dArm k b] else [])
  let det (d : Nat) : List Nat :=
    if s.rdB (F.ACE_RGN_CFG_EN d) then [s.rd (F.ACE_RGN_CFG_X1_SRC d), s.rd (F.ACE_RGN_CFG_X2_SRC d)] else []
  (((List.range 256).flatMap blk ++ (List.range 8).flatMap det).filter (fun c => 0x100 ≤ c)).eraseDups

/-- An ACTIVE whole-unit hub keeps what the pass read for the journal. -/
def State.keepInputs (s : State) (x : PassCtx) : State :=
  if s.rd F.STK_RED_STAT_STATE = 1 then
    { s with ace := { s.ace with passInp := (s.readCodes x.k).map (fun c => (c, s.source x c)) } }
  else s

/-- The pass that serves the next frame (R105 to R108): from t_j - 900 ns; with it the words that its capture stores in
core memory. -/
def enginePass (s : State) : State × List (Nat × Nat) :=
  let s := s.advanceHall (s.nextStart - ns 900)
  if s.idleUnit then (s, []) else
  let h := s.clk.hall
  let x : PassCtx := { k := s.bank true, h := h }
  let s := s.keepInputs x
  let s := (List.range 8).foldl (fun s d => s.detector x d) s
  let s := s.genSample
  let s := (List.range 256).foldl (State.execBlock x) s
  let s := s.tapTriggers x
  let r := s.capSample x.k
  (r.1.genStep.incWrap F.ACE_STAT_PASS, r.2)

/-! DFT bins (R142). -/

/-- The samples of capture channel `i`, the first `n`. -/
def State.capWord (s : State) (i j : Nat) : Nat :=
  readBytes s.coreMem (s.rd F.ACE_CAP_BASE_BASE * 2 ^ 21 + i * 0x40000 + 4 * j) 4

/-- Sum over j < n of x_j times the weight, exact. -/
def State.dftSum (s : State) (i n : Nat) (w : Nat → Fp) : Fp :=
  (List.range n).foldl (fun v j => v.add ((b32.dec (s.capWord i j)).mul (w j))) Fp.zero

def State.capMax (s : State) (i n : Nat) : Fp :=
  (List.range n).foldl (fun m j => fMax m (b32.dec (s.capWord i j)).abs) Fp.zero

/-- One part of X of channel `i` (`im`: the sine part, negated), with the error the spec leaves open, at most 2^-24 of
the largest sample (log entry 33). -/
def State.dftPart (s : State) (bin i n h : Nat) (im : Bool) (part : Nat) : Fp :=
  let p := s.injPeriod
  let w (j : Nat) : Fp :=
    let t := h * j % p * 2 ^ 48 / p
    let v := sinQ40 (if im then t else t + 2 ^ 46)
    (Fp.ofInt (if im then -v else v)).mul (.fin false 1 (-40))
  let sum := s.dftSum i n w
  let e := clampI (-(2 ^ 16)) (2 ^ 16) (Config.dftError bin part s.freeCtr)
  ((sum.mul (.fin false 2 0)).div (Fp.ofInt n)).add (((Fp.ofInt e).mul (.fin false 1 (-40))).mul (s.capMax i n))

/-- Bin `j`: its results, and whether it has none. -/
def State.dftBin (s : State) (j : Nat) : State :=
  if !s.rdB (F.ACE_DFT_CFG_EN j) then s
  else
    let p := s.injPeriod
    let n := if s.rd F.ACE_CAP_CTRL_DEC = 0 then s.capLen / p * p else 0
    let h := s.rd (F.ACE_DFT_CFG_H j)
    let num := s.rd (F.ACE_DFT_CFG_NUM j)
    let den := s.rd (F.ACE_DFT_CFG_DEN j)
    let x (i : Nat) (im : Bool) (part : Nat) : Fp := if n = 0 then .nan else s.dftPart j i n h im part
    let nre := x num false 0
    let nim := x num true 1
    let put (s : State) (f : Fld) (v : Fp) : State := s.wr f (b32.put v)
    let s' := (put s (F.ACE_DFT_NRE_VALUE j) nre)
    let s' := (put s' (F.ACE_DFT_NIM_VALUE j) nim)
    if s.rdB (F.ACE_DFT_CFG_DEN_EN j) then
      let dre := x den false 2
      let dim := x den true 3
      let d2 := (dre.mul dre).add (dim.mul dim)
      let zero := dre.isFin && dim.isFin && Fp.le d2 Fp.zero
      let zre := if zero then .nan else ((nre.mul dre).add (nim.mul dim)).div d2
      let zim := if zero then .nan else ((nim.mul dre).sub (nre.mul dim)).div d2
      let s' := put (put s' (F.ACE_DFT_DRE_VALUE j) dre) (F.ACE_DFT_DIM_VALUE j) dim
      let s' := put (put s' (F.ACE_DFT_ZRE_VALUE j) (b64.round zre)) (F.ACE_DFT_ZIM_VALUE j) (b64.round zim)
      if n = 0 || zero then s'.setBit F.ACE_CAP_STAT_DFT_NA j true else s'
    else if n = 0 then s'.setBit F.ACE_CAP_STAT_DFT_NA j true
    else s'

/-- The bins of a capture in DONE complete. -/
def dftDone (s : State) : State :=
  if s.rd F.ACE_CAP_STAT_STATE = 3 ∧ s.rdB F.ACE_CAP_CTRL_DFT_EN ∧ !s.rdB F.ACE_CAP_STAT_DFT_DONE then
    let r := (List.range 16).foldl State.dftBin s
    (r.tick).wrB F.ACE_CAP_STAT_DFT_DONE true
  else s

end Sys2Proof.Machine
end

