-- ==== Sys2Proof/Machine/Gallery.lean ====
section
/-!
DEFINITION. Machine/Gallery.lean: the gallery (spec/05): cell data, prediction, keys, selection, edge instants, refresh,
the record of commanded levels, the capacitance estimator and the health check.
-/

namespace Sys2Proof.Machine

def State.galCell (s : State) (i : Nat) : GalCell := Store.get s.gal.cells {} i
def State.setGalCell (s : State) (i : Nat) (c : GalCell) : State :=
  { s with gal := { s.gal with cells := Store.put s.gal.cells {} i c } }
def State.galArm (s : State) (a : Nat) : GalArm := Store.get s.gal.arms {} a
def State.setGalArm (s : State) (a : Nat) (x : GalArm) : State :=
  { s with gal := { s.gal with arms := Store.put s.gal.arms {} a x } }

/-- One unit of inserted times: 250 ps. -/
def quarterNs : Time := 16384

/-- T_u: the cycle in 250 ps units (R161). -/
def State.tu (s : State) : Nat := 4 * s.cycNs

/-- Hall time of the next cycle start. -/
def State.tNext (s : State) : Time := s.nextStart

/-- Lead of an arm in ns, and action base of a ring in ns (R57, R59). -/
def State.lead (s : State) (a : Nat) : Nat := s.rd (F.GEN_ARM_LEAD_LEAD a)
def State.actBase (s : State) (r : Nat) : Nat := 230 + 250 * s.rd (F.GEN_RING_DLV_BASE_J r)

/-- The arm of a ring as the gallery sees it: none while its port is in HALT (R211). -/
def State.galArmOf (s : State) (r : Nat) : Option Nat := if s.pst r = 5 then none else s.armOf r

/-- The cells of an arm, populated or not, by local index. -/
def State.cellsOf (s : State) (a : Nat) : List Nat :=
  ((s.ringsOf a).filter (fun r => s.pst r != 5)).flatMap (fun r => (List.range 32).map (fun p => 32 * r + p))

def State.carrierMode (s : State) (a : Nat) : Bool := s.erdB (F.GAL_ARM_CFG_MODE a)

/-! The record of commanded levels (R145). -/

/-- Level at instant `t`. -/
def GalCell.levelAt (c : GalCell) (t : Time) : Int :=
  match c.edges.find? (fun e => e.1 ≤ t) with
  | some e => e.2
  | none => c.base

/-- Level at the end of the latest recorded frame. -/
def GalCell.endLevel (c : GalCell) : Int :=
  match c.edges with
  | e :: _ => e.2
  | [] => c.base

/-- Integral of the level from `a` to `b`, over edges newest first, in 2^-16 ns. -/
def levelInt (a : Time) (base : Int) (b : Time) (l : List (Time × Int)) : Int :=
  match l with
  | [] => base * ((b - a : Nat) : Int)
  | (t, v) :: r => v * ((b - max t a : Nat) : Int) + (if t ≤ a then 0 else levelInt a base (min b t) r)

/-- Inserted time over [a, b] in 250 ps units. -/
def GalCell.inserted (c : GalCell) (a b : Time) : Int := roundEven (levelInt a c.base b c.edges) quarterNs

/-- A commanded edge enters the record; what is older than 17 cycles of length `t` becomes the base. -/
def GalCell.addEdge (c : GalCell) (t : Time) (v : Int) (keep : Time) : GalCell :=
  let l := (t, v) :: c.edges
  let new := l.filter (fun e => decide (t ≤ e.1 + keep))
  { c with edges := new, base := if new.length = l.length then c.base else
      match l.drop new.length with
      | e :: _ => e.2
      | [] => c.base }

/-- Instant of the latest commanded edge. -/
def GalCell.lastEdge (c : GalCell) : Option Time := c.edges.head?.map Prod.fst

/-! Cell data (R64, R66, R149, R150). -/

/-- An uplink carriage accepted for frame `k`, whose sampling instant is `sk`; the temperature register shows the theta of
the uplink (R153). -/
def State.acceptCell (s : State) (i k : Nat) (sk : Time) (up : Nat) : State :=
  let c := s.galCell i
  let d : CellData := ⟨bits up 0 14, bitOf up 14, sext 8 (bits up 16 8), bitOf up 48, sk, k⟩
  let prev := match c.data with
    | some o => if c.fresh && (o.cyc + 1) % 2 ^ 32 == k then some o else none
    | none => none
  (s.setGalCell i { c with data := some d, prev := prev, fresh := true }).wrI (F.GAL_CELL_MEAS_TEMP i) d.temp

/-- The cell's previous data stand, marked stale. -/
def State.staleCell (s : State) (i : Nat) : State := s.setGalCell i { s.galCell i with fresh := false }

/-! Eligibility (R146 to R148). -/

def State.cellInfo (s : State) (i : Nat) : Nat := s.rd (F.RP_CELL_INFO_STATE (i / 32) (i % 32))

/-- Age in cycles of a cell's data for the ranking of the next frame (R72). -/
def State.dataAge (s : State) (d : CellData) : Nat := (s.cyc + 2 ^ 32 - 1 - d.cyc) % 2 ^ 32

/-- Bypassed: the latest accepted uplink says so, or a reaction holds the cell (Table 2). -/
def State.cellOos (s : State) (i : Nat) : Bool :=
  bitOf (Store.get s.uplinks 0 i).toNat 30 || s.rdB (F.FLT_CELL_OOS i)

/-- The exclusion bits of Table 2, SVC at bit 0. -/
def State.exclBits (s : State) (i : Nat) : Nat :=
  let c := s.galCell i
  let info := s.cellInfo i
  let old := match c.data with
    | some d => decide (16 < s.dataAge d)
    | none => info != 0
  b2n (s.rdB (F.GAL_CELL_CTRL_SVC i)) + 2 * b2n (s.cellOos i) + 4 * b2n (info != 1)
    + 8 * b2n c.refr.isSome + 16 * b2n old + 32 * b2n (s.erd (F.GAL_CELL_CTRL_SCALE i) == 0)

/-- A full-bridge cell: by the arm's TYPE, in a hybrid arm by the Tread's own report (R18). -/
def State.fullBridge (s : State) (a i : Nat) : Bool :=
  let t := s.erd (F.GEN_ARM_CFG_TYPE a)
  t == 1 || (t == 2 && s.rd (F.RP_CELL_INFO_BTYPE (i / 32) (i % 32)) == 1)

/-! Prediction and key (R149 to R153). -/

/-- What a ranking knows of one cell. -/
structure Ranked where
  i     : Nat
  excl  : Nat
  vm    : Nat := 0
  vp    : Nat := 0
  key   : Nat := 0
  temp  : Int := 0
  level : Int := 0
  age   : Nat := 0
  full  : Bool := false
  predOff : Bool := false
  deriving DecidableEq, Repr

/-- R149. -/
def measured (u scale : Nat) : Nat := (u * scale + 2 ^ 14) / 2 ^ 15

/-- vp of R151 from vm and the inserted time, rounded once; the flag is pred_off. -/
def predict (vm : Nat) (tau : Int) (ia cap qv : Nat) : Nat × Bool :=
  let ts := b32.put ((Fp.ofInt tau).div (Fp.ofInt 4000000000))
  let dv := f32 Fp.div (f32 Fp.div (f32 Fp.mul ia ts) cap) qv
  let off := !f32Fin dv || !f32Pos cap
  let v := if off then (vm : Int) else ((Fp.ofInt vm).add (b32.dec dv)).roundHE
  ((clampI 0 65535 v).toNat, off)

/-- K_i of R153. -/
def keyOf (pref csw : Nat) (temp thRef : Int) (wsw wth : Nat) (stay : Bool) : Nat :=
  let psw : Int := wsw * csw / 256
  let pth : Int := wth * (max 0 (temp - thRef)) / 16
  (clampI 0 65535 ((pref : Int) + (if stay then -psw else psw) + pth)).toNat

/-- One cell of arm `a`, given the arm current (binary32), the polarity and whether I_eff >= 0. -/
def State.rankCell (s : State) (a ia : Nat) (pol : Int) (charge : Bool) (i : Nat) : Ranked :=
  let c := s.galCell i
  let e := s.exclBits i
  let full := s.fullBridge a i
  match c.data with
  | none => { i := i, excl := e, level := c.endLevel, full := full }
  | some d =>
    let vm := measured d.u (s.erd (F.GAL_CELL_CTRL_SCALE i))
    if e != 0 then { i := i, excl := e, vm := vm, temp := d.temp, level := c.endLevel, age := s.dataAge d, full := full }
    else
      let tau := c.inserted d.s (s.tNext + ns (s.lead a))
      let est := s.rd (F.GAL_CELL_CEST_CEST i)
      let cap := if s.erd F.GAL_CTRL_CONF_MIN ≤ s.rd (F.GAL_CELL_CONF_CONF i) ∧ f32Pos est then est
        else s.erd (F.GAL_ARM_CNOM_VALUE a)
      let p := predict vm tau ia cap (s.erd (F.GAL_ARM_QV_VALUE a))
      let pref := if charge then p.1 else 65535 - p.1
      let key := keyOf pref (s.rd (F.GAL_CELL_SW_CSW i)) d.temp (sext 8 (s.erd (F.GAL_ARM_WGT_TH_REF a)))
        (s.erd (F.GAL_ARM_WGT_W_SW a)) (s.erd (F.GAL_ARM_WGT_W_TH a)) (c.endLevel == pol)
      { i := i, excl := e, vm := vm, vp := p.1, key := key, temp := d.temp, level := c.endLevel, age := s.dataAge d,
        full := full, predOff := p.2 }

/-- R155. -/
def Ranked.before (x y : Ranked) : Bool := decide (x.key < y.key) || (x.key == y.key && decide (x.i < y.i))

def rankInsert (x : Ranked) (l : List Ranked) : List Ranked :=
  match l with
  | [] => [x]
  | y :: r => if x.before y then x :: y :: r else y :: rankInsert x r

/-- The rank order of R155. -/
def rankSort (l : List Ranked) : List Ranked := l.foldr rankInsert []

/-- The arm current I_a (R144), binary32, and its flag. -/
def State.armCurrent (s : State) (a : Nat) : Nat × Bool :=
  let v := s.measVal (s.erd (F.GAL_ARM_CFG_ICH a)) (s.erd (F.GAL_ARM_CFG_IPRE a)) (s.tNext - ns 900)
  (if s.erdB (F.GAL_ARM_CFG_ISIGN a) then f32Neg v.1 else v.1, v.2)

/-- pi of R152. -/
def polarity (n lprev : Int) : Int := if 0 < n then 1 else if n < 0 then -1 else if lprev < 0 then -1 else 1

/-! Selection (R156, R157). -/

/-- The candidates, in rank order. -/
def candidates (pol : Int) (l : List Ranked) : List Ranked :=
  l.filter (fun x => x.excl == 0 && x.level != -pol && (decide (0 < pol) || x.full))

/-- Remove the in-band members that rank last until `n` are left; `l` in rank order. -/
def dropLast (n : Nat) (inb : Ranked → Bool) (l : List Ranked) : List Ranked :=
  let k := l.length - n
  ((l.reverse.foldl (fun (st : Nat × List Ranked) x =>
      if inb x && decide (0 < st.1) then (st.1 - 1, st.2) else (st.1, x :: st.2)) (k, [])).2)

/-- The set S of R157, in rank order; `c`: the candidates in rank order, `n`: at most their number. -/
def selectSet (c : List Ranked) (n band : Nat) (pol : Int) : List Ranked :=
  if n = 0 then []
  else if n = c.length then c
  else
    match (c.drop (n - 1)).head? with
    | none => c
    | some kx =>
      let kb : Int := kx.key
      let inb (x : Ranked) : Bool := decide (kb - (band : Int) ≤ x.key) && decide ((x.key : Int) ≤ kb + band)
      let first := c.filter (fun x => decide ((x.key : Int) < kb - band) || (inb x && x.level == pol))
      if n ≤ first.length then dropLast n inb first
      else
        let add := (c.filter (fun x => inb x && !first.any (fun y => y.i == x.i))).take (n - first.length)
        c.filter (fun x => first.any (fun y => y.i == x.i) || add.any (fun y => y.i == x.i))

/-! Refresh grants (R166). -/

/-- State of the grants of one arm and cycle. -/
structure Grants where
  granted : List Nat := []
  free    : Nat
  queue   : List (Nat × Nat) := []
  conts   : Nat := 0
  noparts : Nat := 0
  deriving DecidableEq, Repr

/-- One request: cell and flags (1 counted at GEN_CONT4, 2 counted in NOPART; each counts a request once, as R39 has it for
GEN_CONT4; DEDUCED for NOPART, log entry 75). Only a grant takes a grant position (R166). -/
def grantOne (all cands : List Ranked) (need : Nat) (nZero : Bool) (g : Grants) (q : Nat × Nat) : Grants :=
  match all.find? (fun x => x.i == q.1) with
  | none => g
  | some x =>
    let isCand := cands.any (fun y => y.i == x.i)
    let noPos := x.level == 0 || nZero || !isCand
    if !noPos && g.free == 0 then
      { g with queue := g.queue ++ [(q.1, setBits q.2 0 1 1)], conts := g.conts + (if bitOf q.2 0 then 0 else 1) }
    else
      let left := (cands.filter (fun y => y.i != x.i && !g.granted.any (fun j => j == y.i))).length
      if need ≤ left then
        { g with granted := g.granted ++ [x.i], free := if noPos then g.free else g.free - 1 }
      else
        { g with queue := g.queue ++ [(q.1, setBits q.2 1 1 1)], noparts := g.noparts + (if bitOf q.2 1 then 0 else 1) }

/-! Edge instants (R160 to R164). -/

/-- s_j of R161. -/
def rampInstant (j : Nat) (up : Bool) (r : ArmRec) (tu c : Nat) : Int :=
  let l : Int := if up then r.nPrev + j else r.nPrev - j + 1
  ((l * 16384 - c - r.mPrev) * tu).fdiv (r.m - r.mPrev)

/-- The riser instants of a frame and whether they are uniform (R161, R162, R174). -/
def risers (n : Nat) (up : Bool) (r : ArmRec) (tu c : Nat) (onRamp : Bool) : List Nat × Bool :=
  let ramp := (List.range n).map (fun j => rampInstant (j + 1) up r tu c)
  if onRamp && (n == 0 || r.m != r.mPrev) && ramp.all (fun x => decide (0 ≤ x) && decide (x < tu)) then
    (ramp.map Int.toNat, false)
  else ((List.range n).map (fun j => tu * (2 * j + 1) / (2 * n)), true)

/-- Earliest instant, from the frame's action instant of the arm at s = 0, that MIN_GAP leaves a cell. -/
def gapInstant (last : Option Time) (base gap : Time) : Nat :=
  match last with
  | none => 0
  | some t => ceilDiv (t + gap - base) quarterNs

/-- MIN_GAP in force, in 250 ps units: values above T/2 act as T/2 (R164). -/
def State.minGap (s : State) : Nat := min (40 * s.erd F.GAL_CTRL_MIN_GAP) (s.tu / 2)

/-- Put one changing cell at instant `t`. -/
def State.putSel (s : State) (i : Nat) (x : Sel) : State :=
  { s with gal := { s.gal with sel := Store.put s.gal.sel {} i x } }

/-- STATE of a level (Table 5 of spec/06). -/
def levelState (l : Int) : Nat := if l = 0 then 1 else if 0 < l then 2 else 3

/-- What the gallery decides for one arm and frame. -/
structure Choice where
  pol    : Int
  nEff   : Int
  set    : List Nat
  dcell  : Option Nat
  grants : List Nat
  deriving DecidableEq, Repr

/-- The new level of a cell under R160. -/
def Choice.level (c : Choice) (x : Ranked) : Int :=
  if x.excl = 0 ∧ !c.grants.any (fun j => j == x.i) ∧ c.set.any (fun j => j == x.i) then c.pol else 0

/-- The up or down list of R160. -/
def changeList (c : Choice) (ranked all : List Ranked) (dir : Int) : List Nat :=
  let ch := all.filter (fun x => c.level x - x.level == dir)
  let ex (x : Ranked) : Bool := x.excl != 0 || c.grants.any (fun j => j == x.i)
  let fst := (ch.filter ex).map Ranked.i
  let opp := ch.filter (fun x => !ex x && x.level == -c.pol)
  let rest := ranked.filter (fun x => c.level x - x.level == dir && !ex x && x.level != -c.pol)
  fst ++ opp.map Ranked.i ++ (if dir = 1 then rest else rest.reverse).map Ranked.i

/-- The carriage of an excluded or changing cell moves by MIN_GAP; the flag tells that it moved. -/
def State.gapFor (s : State) (a i sWant : Nat) : Nat × Bool :=
  let g := gapInstant (s.galCell i).lastEdge (s.tNext + ns (s.lead a)) (s.minGap * quarterNs)
  (max sWant g, decide (sWant < g))

/-- Content of a cell that changes at instant `t`. -/
def State.selChange (s : State) (c : Choice) (x : Ranked) (t : Nat) : State :=
  let l := c.level x
  let hold := s.rd (F.EVC_SVC_HOLD_HOLD (x.i / 16) (x.i % 16))
  let st := if s.rdB (F.GAL_CELL_CTRL_SVC x.i) && hold != 0 then (if hold = 1 then 0 else 4) else levelState l
  let mode := if c.grants.any (fun j => j == x.i) then 3 else 0
  s.putSel x.i { state := st, mode := mode, s := t, duty := 0, level := l, edges := if l = x.level then 0 else 1 }

/-- The edge instants of one arm: pairs at 0, risers, and MIN_GAP; then the dither pulse. -/
def State.placeEdges (s : State) (a : Nat) (c : Choice) (ranked all : List Ranked) (r : ArmRec) (d : Nat)
    (onRamp : Bool) : State :=
  let up := changeList c ranked all 1
  let dn := changeList c ranked all (-1)
  let p := min up.length dn.length
  let rest := if up.length > dn.length then up.drop p else dn.drop p
  let dith := s.rdB (F.ACE_ARM_CFG_DITHER a)
  let (inst, uni) := risers rest.length (decide (dn.length < up.length)) r s.tu (if dith then 0 else 8192) onRamp
  let find (i : Nat) : Ranked := (all.find? (fun x => x.i == i)).getD { i := i, excl := 0 }
  let bump (s : State) (m : Bool) : State :=
    if m then (s.incSat (F.GAL_ARM_CNT_MOVED a)).count (0x0C0 + 8 * a + 7) else s
  -- unchanged cells
  let s := all.foldl (fun s x => if c.level x = x.level then s.selChange c x 0 else s) s
  -- paired exchanges
  let s := (List.range p).foldl (fun s j =>
    let u := s.gapFor a (nth up j 0) 0
    let v := s.gapFor a (nth dn j 0) 0
    let t := max u.1 v.1
    bump ((s.selChange c (find (nth up j 0)) t).selChange c (find (nth dn j 0)) t) (u.2 || v.2)) s
  -- risers
  let s := (List.range rest.length).foldl (fun s j =>
    let i := nth rest j 0
    let g := s.gapFor a i (nth inst j 0)
    bump (s.selChange c (find i) g.1) g.2) s
  let s := ((s.count (0x0C0 + 8 * a + 1) rest.length).count (0x0C0 + 8 * a + 2) p)
  let s := if uni then s.count (0x0C0 + 8 * a + 6) else s
  let s := s.wrB (F.GAL_ARM_STAT_UNIFORM a) uni
  -- dither pulse (R163, R164)
  match c.dcell with
  | none => s
  | some i =>
    let gap := s.minGap
    let w0 := (roundEven ((d * s.tu : Nat) : Int) 4096).toNat
    let wide := decide (0 < w0) && decide (w0 < gap)
    let w := if wide then gap else w0
    if w = 0 then s
    else
      let g := s.gapFor a i ((s.tu - w) / 2)
      let w' := min w (s.tu - 1 - g.1)
      let w' := if w' < w && w' < gap then 0 else w'
      let b : Int := if 0 ≤ c.nEff then 0 else -1
      let s := bump s (wide || g.2 || w' != w)
      if w' = 0 then s
      else s.putSel i { state := levelState (b + 1), mode := 1, s := g.1, duty := w', level := b, edges := 2 }

/-! Dither cell (R159). -/

/-- The dither cell for this frame and the cycles it has then held the role; `ranked` in rank order. -/
def State.ditherCell (s : State) (a : Nat) (c : Choice) (cands : List Ranked) : Option Nat × Nat :=
  let b : Int := if 0 ≤ c.nEff then 0 else -1
  let prev := if s.rdB (F.GAL_ARM_MRATE_DVALID a) then some (s.rd (F.GAL_ARM_MRATE_DCELL a)) else none
  let inS (i : Nat) : Bool := c.set.any (fun j => j == i)
  let ok (x : Ranked) : Bool := x.level == b && !s.erdB (F.GAL_CELL_CTRL_NODITHER x.i) &&
    (if b = 0 then !inS x.i else inS x.i)
  let q := cands.filter ok
  let held := (s.galArm a).dHeld
  let lim := 2 ^ max 8 (s.erd (F.GAL_ARM_RATE_DROT a))
  let isPrev (x : Ranked) : Bool := prev == some x.i
  if q.any isPrev && decide (held < lim) then (prev, held + 1)
  else
    let o := q.filter (fun x => !isPrev x)
    let pick := if b = 0 then o.head? else o.getLast?
    match pick with
    | some x => (some x.i, 1)
    | none => if q.any isPrev then (prev, 1) else (none, 0)

/-! The ranking of one arm (R148 to R168, R173 to R175). -/

/-- The registers that show a ranking. -/
def State.showRank (s : State) (ranked : List Ranked) (x : Ranked) : State :=
  let lv := if x.level = 0 then 0 else if 0 < x.level then 1 else 3
  let i := x.i
  let s := (s.wr (F.GAL_CELL_STAT_LEVEL i) lv).wr (F.GAL_CELL_STAT_EXCL i) x.excl
  let s := (s.wr (F.GAL_CELL_STAT_AGE i) (min 15 x.age)).wr (F.GAL_CELL_STAT_RANK i)
    (if x.excl = 0 then ranked.findIdx (fun y => y.i == i) else 0)
  let s := s.wr (F.GAL_CELL_MEAS_VM i) (min 65535 x.vm)
  if x.excl = 0 then (s.wr (F.GAL_CELL_KEY_KEY i) x.key).wr (F.GAL_CELL_KEY_VP i) x.vp else s

/-- The cell is excluded, or not, from instant `t` on; its arm is blocked, or not (R170). -/
def GalCell.exclude (c : GalCell) (on : Bool) (t : Time) : GalCell :=
  match c.exclAt with
  | none => if on then { c with exclAt := some t } else c
  | some u => if on then c else { c with exclAt := none, away := ((u, t) :: c.away).take 16 }
def GalCell.block (c : GalCell) (on : Bool) (t : Time) : GalCell :=
  match c.blkAt with
  | none => if on then { c with blkAt := some t } else c
  | some u => if on then c else { c with blkAt := none, away := ((u, t) :: c.away).take 16 }

/-- The cell was excluded, or its arm blocked, at some instant from `t` to `u` (R170). -/
def GalCell.awayIn (c : GalCell) (t u : Time) : Bool :=
  let open_ (x : Option Time) : Bool := match x with | some b => decide (b ≤ u) | none => false
  open_ c.exclAt || open_ c.blkAt || c.away.any (fun x => decide (x.1 ≤ u) && decide (t < x.2))

/-- Exclusion bookkeeping of a ranking: the OLD count, the instants of R170, the end of a refresh (R167). -/
def State.noteExcl (s : State) (a : Nat) (i : Nat) : State :=
  let c := s.galCell i
  let c := match c.refr, c.data with
    | some t, some d => if c.fresh && !d.refr && decide (t < d.s) then { c with refr := none } else c
    | _, _ => c
  let s := s.setGalCell i c
  let e := s.exclBits i
  let old := bitOf e 4
  let s := if old && !c.old then s.incSat (F.GAL_ARM_CNT_OLD a) else s
  s.setGalCell i (({ c with old := old }).exclude (e != 0) s.clk.hall)

/-- Requests that wait, in order: those of earlier cycles, then new ones by local index (R166). -/
def State.refrQueue (s : State) (a : Nat) : List (Nat × Nat) :=
  let asks (i : Nat) : Bool :=
    let c := s.galCell i
    c.fresh && c.refr.isNone && s.cellInfo i == 1 && (match c.data with | some d => d.refr | none => false)
  let old := (s.galArm a).refrQ.filter (fun q => asks q.1)
  let new := (s.cellsOf a).filter (fun i => asks i && !old.any (fun q => q.1 == i))
  old ++ new.map (fun i => (i, 0))

/-! Landing entries (R385). -/

/-- L0, L1 and Q of the cell at place `r`, 1 first, without the tag; `m`, `mw`: the stair position of the frame and of
WIN frames before it. -/
def landWord (pi : Int) (half : Bool) (r : Nat) (m mw : Int) (win depth : Nat) : Nat :=
  let w : Int := win
  let sl := m - mw
  let m0 := m * w + ((depth : Int) - 1) * sl
  let m1 := m0 + sl
  let th := ((r : Int) * 16384 - 8192) * w
  let b := decide (th ≤ pi * m0)
  let f := decide (th ≤ pi * m1)
  let l : Nat := if pi < 0 then 3 else 1
  if half && decide (pi < 0) then 0
  else
    let q := if b == f then 0 else (clampI 0 4095 (((th - pi * m0) * 4096).fdiv (pi * sl))).toNat
    (if b then l else 0) + 4 * (if f then l else 0) + 16 * q

/-- The entries of the cells of arm `a` for the frame being selected: `order` holds the members of S, then the other
candidates, in rank order, without the dither cell's place being used. -/
def State.landEntries (s : State) (a : Nat) (pi m : Int) (order : List Ranked) (dcell : Option Nat) : State :=
  let win := clampN 1 16383 (s.rd (F.STK_LAND_CFG_WIN a))
  let mw := nth (s.galArm a).mHist (win - 1) 0
  let depth := min 64 (s.rd (F.STK_LAND_CFG_DEPTH a))
  let put (s : State) (i v : Nat) : State := { s with gal := { s.gal with land := Store.put s.gal.land 0 i v } }
  let s := (s.cellsOf a).foldl (fun s i => put s i 0) s
  (List.range order.length).foldl (fun s j =>
    match order[j]? with
    | none => s
    | some x => if dcell = some x.i then s else put s x.i (landWord pi (!x.full) (j + 1) m mw win depth)) s

/-- The stair position of the frame enters the history. -/
def State.noteM (s : State) (a : Nat) (m : Int) : State :=
  let g := s.galArm a
  if s.rdB (F.STK_LAND_CFG_EN a) then
    s.setGalArm a { g with mHist := (m :: g.mHist).take (clampN 1 16383 (s.rd (F.STK_LAND_CFG_WIN a))) }
  else if g.mHist.isEmpty then s else s.setGalArm a { g with mHist := [] }

/-- The next frame is the first ranked frame after a takeover, and a frame of resume carriages (R383). -/
def State.firstRanked (s : State) : Bool :=
  match s.stk.resumeAt with
  | some k => s.cyc == (k + 1) % 2 ^ 32
  | none => false
def State.nextResumes (s : State) : Bool := s.stk.resumeAt == some s.cyc

/-- b of the arm; without adaptation it is BMIN (R158). -/
def State.bandFixed (s : State) (a : Nat) : Bool :=
  !s.erdB (F.GAL_ARM_CFG_ADAPT a) || decide (s.erd (F.GAL_ARM_BAND_BMAX a) ≤ s.erd (F.GAL_ARM_BAND_BMIN a))
def State.bandOf (s : State) (a : Nat) : Nat :=
  if s.bandFixed a then s.erd (F.GAL_ARM_BAND_BMIN a) else (s.galArm a).band

/-- One arm of GALLERY_RANKING. -/
def State.rankArm (s : State) (a : Nat) : State :=
  let cells := s.cellsOf a
  let s := cells.foldl (fun s i => s.noteExcl a i) s
  let rec0 := Store.get s.ace.recs {} a
  let ia := s.armCurrent a
  let live := s.nextLive a && s.armOn a && rec0.live
  let n : Int := if live then rec0.n else 0
  let lprev : Int := if live then (cells.map (fun i => (s.galCell i).endLevel)).sum else 0
  let pol := if live then polarity n lprev else 1
  let charge := !(Fp.lt (b32.dec (if pol = 1 then ia.1 else f32Neg ia.1)) Fp.zero)
  let all := cells.map (s.rankCell a ia.1 pol charge)
  let elig := all.filter (fun x => x.excl == 0)
  let ranked := rankSort elig
  let s := all.foldl (fun s x => s.showRank ranked x) s
  let npos := elig.length
  let nneg := if s.erd (F.GEN_ARM_CFG_TYPE a) = 0 then 0 else (elig.filter Ranked.full).length
  let sum := (elig.map Ranked.vp).sum
  let vc := if npos = 0 then 0 else
    b32.put (((Fp.ofInt sum).mul (b32.dec (s.erd (F.GAL_ARM_QV_VALUE a)))).div (Fp.ofInt npos))
  let s := (s.wr (F.GAL_ARM_AVAIL_N_POS a) npos).wr (F.GAL_ARM_AVAIL_N_NEG a) nneg
  let s := (s.wr (F.GAL_ARM_VC_VALUE a) vc).wr (F.GAL_ARM_IPRED_VALUE a) ia.1
  let s := s.wrB (F.GAL_ARM_STAT_PRED_OFF a) (elig.any Ranked.predOff)
  let s := s.wrB (F.GAL_ARM_STAT_POL a) (decide (pol < 0))
  let g := s.galArm a
  let s := if rec0.meas && rec0.live then s.setGalArm a { g with measAt := ((s.tNext + ns (s.lead a)) :: g.measAt).take 20 } else s
  if !live || s.carrierMode a then
    let s := ((s.wr (F.GAL_ARM_STAT_N_EFF a) 0).wrB (F.GAL_ARM_STAT_CLIPPED a) false).wrB (F.GAL_ARM_STAT_UNIFORM a) false
    let s := s.wrB (F.GAL_ARM_MRATE_DVALID a) false
    let s := if s.nextLive a then s else s.wr (F.GAL_ARM_STAT_BAND a) (s.bandOf a)
    let s := cells.foldl (fun s i => s.putSel i {}) s
    let s := s.noteM a 0
    s.setGalArm a { s.galArm a with ready := false, dHeld := 0 }
  else
    let g := s.galArm a
    let band := if g.first then s.erd (F.GAL_ARM_BAND_BMIN a) else s.bandOf a
    let cands := candidates pol ranked
    let clip := decide ((cands.length : Int) < n.natAbs)
    let nEff : Int := if clip then (if n < 0 then -(cands.length : Int) else cands.length) else n
    let d := if clip then 0 else rec0.d
    let s := if clip then (s.incSat (F.GAL_ARM_CNT_CLIP a)).count (0x0C0 + 8 * a + 3) else s
    -- refresh grants
    let lim := clampN 1 8 (s.erd (F.GAL_ARM_CFG_REFR_LIM a))
    let need := nEff.natAbs + (if 0 ≤ nEff ∧ 0 < d then 1 else 0)
    let gr := (s.refrQueue a).foldl (grantOne all cands need (nEff == 0)) { free := lim }
    let s := (s.incSat (F.GAL_ARM_CNT_NOPART a) gr.noparts).defer 4 gr.conts
    let s := (s.count (0x0C0 + 8 * a + 4) gr.granted.length).count (0x0C0 + 8 * a + 5) (gr.noparts + gr.conts)
    let cands := cands.filter (fun x => !gr.granted.any (fun j => j == x.i))
    -- the set and the dither cell
    let members := selectSet cands nEff.natAbs band pol
    let set := members.map Ranked.i
    let c : Choice := ⟨pol, nEff, set, none, gr.granted⟩
    let dsel := if s.rdB (F.ACE_ARM_CFG_DITHER a) then s.ditherCell a c cands else (none, 0)
    let dDrop := s.rdB (F.ACE_ARM_CFG_DITHER a) && dsel.1.isNone && decide (0 < d)
    let s := if dDrop then (s.incSat (F.GAL_ARM_CNT_CLIP a)).count (0x0C0 + 8 * a + 3) else s
    let c := { c with dcell := dsel.1 }
    let s := s.wrB (F.GAL_ARM_MRATE_DVALID a) dsel.1.isSome
    let s := match dsel.1 with | some i => s.wr (F.GAL_ARM_MRATE_DCELL a) i | none => s
    let s := all.foldl (fun s x => s.wrB (F.GAL_CELL_STAT_DITHER x.i) (dsel.1 == some x.i)) s
    let delta := nEff - lprev
    let onRamp := delta == rec0.delta && rec0.same && !g.first && !s.firstRanked
    let s := s.placeEdges a c ranked all rec0 d onRamp
    let s := if s.rdB (F.STK_LAND_CFG_EN a) then
        s.landEntries a pol rec0.m (members ++ cands.filter (fun x => !set.any (fun j => j == x.i))) dsel.1
      else s
    let s := s.noteM a rec0.m
    let s := ((s.wrI (F.GAL_ARM_STAT_N_EFF a) nEff).wrB (F.GAL_ARM_STAT_CLIPPED a) clip).wr (F.GAL_ARM_STAT_BAND a) band
    let s := gr.granted.foldl (fun (s : State) i =>
      let x := Store.get s.gal.sel ({} : Sel) i
      s.setGalCell i { s.galCell i with refr := some (s.tNext + ns (s.lead a) + x.s * quarterNs) }) s
    s.setGalArm a { s.galArm a with ready := true, band := band, dHeld := dsel.2, refrQ := gr.queue, first := false }

/-- The cell state window is rewritten at the hand-off (R405). -/
def State.writeWindow (s : State) : State :=
  (List.range 1024).foldl (fun s i =>
    if s.cellInfo i = 0 then
      if s.cellWin.any (fun p => p.1 / 16 == i) then { s with cellWin := s.cellWin.filter (fun p => p.1 / 16 != i) } else s
    else
      let up := (Store.get s.uplinks 0 i).toNat
      let dn := (Store.get s.downlinks 0 i).toNat
      let w (k : Nat) : Nat :=
        if k < 4 then bits up (32 * k) 32 else if k < 8 then bits dn (32 * (k - 4)) 32
        else if k = 8 then (s.reg (R.GAL_CELL_STAT i)).toNat
        else if k = 9 then (s.reg (R.GAL_CELL_KEY i)).toNat
        else if k = 10 then (s.reg (R.FLT_CELL i)).toNat
        else if k = 11 then (s.reg (R.RP_CELL_INFO (i / 32) (i % 32))).toNat
        else if k = 15 then s.cyc else 0
      (List.range 16).foldl (fun s k =>
        { s with cellWin := Store.put s.cellWin 0 (16 * i + k) (BitVec.ofNat 32 (w k)) }) s) s

/-- The gallery's work for the next frame (R144 to R168); `done`: ns from the later input to the hand-off. -/
def galleryRanking (done : Nat) (s : State) : State :=
  if s.idleUnit || s.rd F.STK_RED_STAT_STATE == 3 || s.nextResumes then s else
  let s := (List.range 6).foldl (fun s a => s.rankArm a) s
  let l := (min 400 done :: s.gal.done).take 1024
  let s := { s with gal := { s.gal with done := l } }
  let s := (s.wr F.GAL_STAT_LAST_DONE (min 400 done)).wr F.GAL_STAT_MAX_DONE (l.foldl max 0)
  s.writeWindow

/-! The frame is emitted (R145, R154). -/

/-- R154. -/
def cswNext (c k e : Nat) : Nat := min 65535 (c - c / 2 ^ max 4 k + 256 * e)

/-- The record, the switching measure and the edge count of one cell follow a frame that is emitted with its
selection; `t`: the arm's action instant at s = 0. -/
def State.recordCell (s : State) (a i : Nat) (t : Time) : State :=
  let x := Store.get s.gal.sel {} i
  let c := s.galCell i
  let keep := 17 * s.cycT
  let t0 := t + x.s * quarterNs
  let c :=
    if x.mode = 1 then (c.addEdge t0 (x.level + 1) keep).addEdge (t0 + x.duty * quarterNs) x.level keep
    else if x.level = c.endLevel then c
    else c.addEdge t0 x.level keep
  let s := s.setGalCell i (c.block false t)
  let s := s.wr (F.GAL_CELL_SW_CSW i) (cswNext (s.rd (F.GAL_CELL_SW_CSW i)) (s.erd (F.GAL_ARM_WGT_K_SW a)) x.edges)
  (s.incWrap (F.GAL_CELL_EDGES_EDGES i) x.edges).wr (F.GAL_CELL_STAT_LEVEL i)
    (if x.level = 0 then 0 else if 0 < x.level then 1 else 3)

/-- A cell of an arm whose frame is emitted without a selection: level 0; `block`: the frame carries BLOCK = 1. -/
def State.recordBlocked (s : State) (block : Bool) (i : Nat) (t : Time) : State :=
  let c := s.galCell i
  let c := if c.endLevel = 0 then c else c.addEdge t 0 (17 * s.cycT)
  (s.setGalCell i (c.block block t)).wr (F.GAL_CELL_STAT_LEVEL i) 0

/-- A deblocked cycle with `e` edges ends: the window of R158 counts it. -/
def State.bandCycle (s : State) (a e : Nat) : State :=
  let g := s.galArm a
  let g := { g with edges := g.edges + e, cycles := g.cycles + 1 }
  s.setGalArm a (if g.cycles < 1024 then g
    else { g with winEnd := some (g.edges, s.rd (F.GAL_ARM_AVAIL_N_POS a)), edges := 0, cycles := 0 })

/-- The gallery's record follows the frames of an arm at a cycle start; `block`: they carry BLOCK = 1. -/
def State.recordArm (s : State) (a : Nat) (block : Bool) : State :=
  let t := s.clk.tkHall + ns (s.lead a)
  let s := s.setGalArm a { s.galArm a with hlthN := (s.galArm a).hlthN + 1 }
  let g := s.galArm a
  let cells := s.cellsOf a
  if block || !g.ready then
    let s := cells.foldl (fun s i => s.recordBlocked block i t) s
    if block then s.setGalArm a { s.galArm a with first := true, ready := false, dHeld := 0 } else s
  else
    let e := (cells.map (fun i => (Store.get s.gal.sel {} i).edges)).sum
    let s := cells.foldl (fun s i => s.recordCell a i t) s
    (s.bandCycle a e).count (0x0C0 + 8 * a) e

/-! Band adaptation (R158). -/

/-- The end of 1,024 deblocked cycles of an arm. -/
def bandAdapt (a : Nat) (s : State) : State :=
  let g := s.galArm a
  match g.winEnd with
  | none => s
  | some (edges, npos) =>
    let r := 256 * edges / max 1 npos
    let bmin := s.erd (F.GAL_ARM_BAND_BMIN a)
    let bmax := s.erd (F.GAL_ARM_BAND_BMAX a)
    let tgt := s.erd (F.GAL_ARM_RATE_TARGET a)
    let step := max 1 (g.band / 2 ^ s.erd (F.GAL_ARM_RATE_GAIN_SH a))
    let b :=
      if s.bandFixed a then bmin
      else if tgt < r then min bmax (g.band + step)
      else if r < tgt then max bmin (g.band - step)
      else g.band
    let s := s.setGalArm a { g with band := b, winEnd := none }
    (s.wr (F.GAL_ARM_MRATE_RATE a) (min 65535 r)).wr (F.GAL_ARM_STAT_BAND a) b

/-! Capacitance estimation and health (R169 to R172, R178). -/

/-- The output of the arm-current channel whose represented instant lies nearest to `t`, the later of two that lie equally
near (R96, R169; DESIGN CHOICE, log entry 75). -/
def State.nearest (s : State) (c p : Nat) (t : Time) : Option (Time × Word) :=
  let g := presetSpan p * s.modPeriod c / 2 + (if s.hubClock c then ns (25 * s.rd (F.MI_CFG_DELAY c)) else 0)
  let dist (o : Time × Word) : Nat := ((o.1 : Int) - g - t).natAbs
  (s.outputs c p).foldl (fun best o =>
    match best with
    | none => some o
    | some b => if dist o < dist b then some o else some b) none

/-- C_est and CONF from the sums (R171). -/
def State.showEst (s : State) (i : Nat) : State :=
  let c := s.galCell i
  let a := b64.dec c.estA
  let b := b64.dec c.estB
  let e := b64.dec c.estE
  let s := ((s.wr (F.GAL_CELL_ESTA_VALUE i) (b32.put a)).wr (F.GAL_CELL_ESTB_VALUE i) (b32.put b)).wr
    (F.GAL_CELL_ESTE_VALUE i) (b32.put e)
  let bZero := Fp.le b Fp.zero && Fp.le Fp.zero b
  let s := if bZero then s else s.wr (F.GAL_CELL_CEST_CEST i) (b32.put (a.div b))
  let be := b.mul e
  let beZero := Fp.le be Fp.zero && Fp.le Fp.zero be
  let conf := if s.rd (F.GAL_CELL_CONF_NACC i) < 64 ∨ beZero ∨ !(Fp.lt Fp.zero a) then 0
    else
      match ((Fp.ofInt 255).mul (a.mul a)).div be with
      | .fin n m x => (clampI 0 255 (Fp.roundHE (.fin n m x))).toNat
      | .inf _ => 255
      | .nan => 0
  s.wr (F.GAL_CELL_CONF_CONF i) conf

/-- The charge that entered a cell inserted over its window (R169, R170): the mean of the arm currents `x` and `y` at the
two sampling instants, times the inserted time. -/
def State.windowCharge (s : State) (a : Nat) (c : GalCell) (p d : CellData) (x y : Time × Word) : Fp :=
  let ch := s.erd (F.GAL_ARM_CFG_ICH a)
  let curOf (o : Time × Word) : Nat :=
    let m := s.chan ch
    let v := b32.put ((Fp.ofInt (sext 24 o.2.toNat - sext 24 m.offs)).mul (b32.dec m.gain))
    if s.erdB (F.GAL_ARM_CFG_ISIGN a) then f32Neg v else v
  let cur := b64.round (((b32.dec (curOf x)).add (b32.dec (curOf y))).mul (.fin false 1 (-1)))
  let tau := b64.round ((Fp.ofInt (c.inserted p.s d.s)).div (Fp.ofInt 4000000000))
  b64.round (cur.mul tau)

/-- The change of the cell voltage over its window (R169). -/
def State.windowVoltage (s : State) (i a : Nat) (p d : CellData) : Fp :=
  b64.round (((Fp.ofInt (((d.u : Int) - p.u) * s.erd (F.GAL_CELL_CTRL_SCALE i))).mul
    (b32.dec (s.erd (F.GAL_ARM_QV_VALUE a)))).mul (.fin false 1 (-15)))

/-- The window is rejected (R170); `q`: its charge. -/
def State.windowBad (s : State) (a : Nat) (c : GalCell) (p d : CellData) (x y : Time × Word) (q : Fp) : Bool :=
  let qZero := Fp.le q Fp.zero && Fp.le Fp.zero q
  d.ovr || p.ovr || flagged x.2 || flagged y.2 || qZero ||
    Fp.lt q.abs (b32.dec (s.erd F.GAL_QMIN_QMIN)) || s.carrierMode a || !s.erdB (F.GAL_ARM_CFG_EST_EN a) ||
    c.awayIn p.s d.s || (s.galArm a).measAt.any (fun t => decide (t < d.s) && decide (p.s < t + s.cycT))

/-- A sum with its forgetting factor takes a term (R171). -/
def State.forget (s : State) (old : Nat) (x : Fp) : Nat :=
  let sh := clampN 8 24 (s.erd F.GAL_CTRL_LAMBDA_SH)
  let lam : Fp := .fin false (2 ^ sh - 1) (-(sh : Int))
  b64.put ((b64.round (lam.mul (b64.dec old))).add (b64.round x))

/-- The window of a cell between its two latest accepted uplinks (R169 to R171). -/
def estimatorWindow (i : Nat) (s : State) : State :=
  let c := s.galCell i
  match s.galArmOf (i / 32), c.data, c.prev with
  | some a, some d, some p =>
    let ch := s.erd (F.GAL_ARM_CFG_ICH a)
    let pr := s.erd (F.GAL_ARM_CFG_IPRE a)
    match s.nearest ch pr p.s, s.nearest ch pr d.s with
    | some x, some y =>
      if !c.fresh || c.winAt == d.s then s
      else
        let q := s.windowCharge a c p d x y
        if s.windowBad a c p d x y q then s.setGalCell i { c with winAt := d.s }
        else
          let dv := s.windowVoltage i a p d
          let s := s.setGalCell i { c with winAt := d.s, estA := s.forget c.estA (q.mul dv), estB := s.forget c.estB (dv.mul dv),
                                           estE := s.forget c.estE (q.mul q) }
          (s.incSat (F.GAL_CELL_CONF_NACC i)).showEst i
    | _, _ => s
  | _, _, _ => s

/-- The lower median of a list of positive binary32 words (R172). -/
def lowerMedian (l : List Nat) : Nat :=
  let ins (x : Nat) (l : List Nat) : List Nat := l.filter (fun y => y < x) ++ [x] ++ l.filter (fun y => x ≤ y)
  nth (l.foldr ins []) ((l.length - 1) / 2) 0

/-- The health check of an arm (R172). Positive binary32 words order as numbers. -/
def State.checkHealth (s : State) (a : Nat) : State :=
  let set := (s.cellsOf a).filter (fun i =>
    s.erd F.GAL_CTRL_CONF_MIN ≤ s.rd (F.GAL_CELL_CONF_CONF i) && f32Pos (s.rd (F.GAL_CELL_CEST_CEST i)))
  if set.length < max 1 (s.erd F.GAL_HEALTH_CFG_MIN_CELLS) then s.wrB (F.GAL_ARM_HLTH_VALID a) false
  else
    let med := lowerMedian (set.map (fun i => s.rd (F.GAL_CELL_CEST_CEST i)))
    let frac : Fp := .fin false (s.erd F.GAL_HEALTH_CFG_FRAC) (-16)
    let out (i : Nat) : Bool :=
      Fp.lt (frac.mul (b32.dec med)) ((b32.dec (s.rd (F.GAL_CELL_CEST_CEST i))).sub (b32.dec med)).abs
    let s := set.foldl (fun s i =>
      let was := s.rdB (F.GAL_CELL_STAT_HEALTH i)
      let s' := s.wrB (F.GAL_CELL_STAT_HEALTH i) (out i)
      if out i && !was then s'.liveCell (0x060 + a) i else s') s
    let bad := (s.cellsOf a).filter (fun i => s.rdB (F.GAL_CELL_STAT_HEALTH i))
    let s := if bad.isEmpty then s.live (0x060 + a) false else s
    let s := (s.wrB (F.GAL_ARM_HLTH_VALID a) true).wr (F.GAL_ARM_HLTH_OUT a) bad.length
    (s.wr (F.GAL_ARM_HLTH_CHECKED a) set.length).wr (F.GAL_ARM_CMED_VALUE a) med

/-- The cycles from one health check to the next (R172). -/
def State.healthEvery (s : State) : Nat := 2 ^ clampN 10 24 (s.erd F.GAL_HEALTH_CFG_PER_SH)

/-- The health check of an arm is due: 2^PER_SH cycles after the latest one was, or after reset (R172; the phase is DESIGN
CHOICE, log entry 75). -/
def healthCheck (a : Nat) (s : State) : State :=
  let n := (s.galArm a).hlthN
  if n < s.healthEvery then s
  else (s.setGalArm a { s.galArm a with hlthN := n % s.healthEvery }).checkHealth a

/-- The cell is excluded, by the latest ranking, or its arm blocked, or the ring in no arm (R178). -/
def State.cellFree (s : State) (i : Nat) : Bool :=
  s.rd (F.GAL_CELL_STAT_EXCL i) != 0 || !s.ringDeblocked (i / 32)

/-- A write of sum 0 A, 1 B or 2 E of a cell (R178). -/
def estimateLoad (i which : Nat) (v : Word) (s : State) : State :=
  if !s.cellFree i then s.raise 0x009
  else
    let w := b64.put (b32.dec v.toNat)
    let c := s.galCell i
    let c := if which = 0 then { c with estA := w } else if which = 1 then { c with estB := w } else { c with estE := w }
    ((s.setGalCell i c).wr (F.GAL_CELL_CONF_NACC i) 64).showEst i

/-- A write that sets the RW fields of a register and leaves its other fields (R9). -/
def State.galPlain (s : State) (off : Nat) (v : Word) : State :=
  match regRow off with
  | some r => s.setReg off ((s.reg off &&& ~~~ (BitVec.ofNat 32 r.rw)) ||| (v &&& BitVec.ofNat 32 r.rw))
  | none => s

/-- R177: a write of a gallery register; the estimate sums go to `estimateLoad`. -/
def galleryWrite (off : Nat) (v : Word) (s : State) : State :=
  let rel := off - R.GAL_ARM_CFG 0
  let a := rel / 0x40
  let r := rel % 0x40
  let cel := off - R.GAL_CELL_CTRL 0
  let i := cel / 0x40
  if R.GAL_CELL_CTRL 0 ≤ off ∧ i < 1024 then
    if cel % 0x40 = 0 then
      let old := s.reg off
      if !s.cellFree i && bits old.toNat 16 16 != bits v.toNat 16 16 then
        (s.setReg off (BitVec.ofNat 32 (setBits v.toNat 16 16 (bits old.toNat 16 16) % 2 ^ 32 &&& 0xFFFF0003))).raise 0x009
      else s.setReg off (v &&& 0xFFFF0003)
    else if cel % 0x40 = 0x20 then estimateLoad i 0 v s
    else if cel % 0x40 = 0x24 then estimateLoad i 1 v s
    else if cel % 0x40 = 0x28 then estimateLoad i 2 v s
    else s
  else if R.GAL_ARM_CFG 0 ≤ off ∧ a < 6 then
    if r = 4 then
      if s.deblocked a || !f32Pos v.toNat then s.raise 0x009 else s.setReg off v
    else if r = 0 then
      let old := s.reg off
      if s.deblocked a && bits old.toNat 0 8 != bits v.toNat 0 8 then
        (s.setReg off (BitVec.ofNat 32 (setBits (v.toNat % 2 ^ 14) 0 8 (bits old.toNat 0 8)))).raise 0x009
      else s.setReg off (v &&& 0x3FFF)
    else
      s.galPlain off v
  else
    s.galPlain off v

end Sys2Proof.Machine
end

