-- ==== Sys2Proof/Machine/HostRing.lean ====
section
/-!
DEFINITION. Machine/HostRing.lean: completions of the host-written rings (R409 to R413, Table 7 of spec/13).
-/

namespace Sys2Proof.Machine

/-- Completion ring of a host-written ring (R413). -/
def State.cqOf (s : State) (n : Nat) : Nat := 16 + s.rd (F.HQ_RING_CFG_CQ n)

/-- The completion ring can take an entry now (R410). -/
def State.cqRoom (s : State) (n : Nat) : Bool :=
  let q := s.cqOf n
  s.ringOn q && !s.ringFull q && (s.hring q).held.isEmpty

/-- A completion entry without its phase (Table 7). -/
def complEntry (cid sq status head result cyc : Nat) : Nat :=
  cid % 2 ^ 16 + sq % 64 * 2 ^ 16 + status % 256 * 2 ^ 24 + head % 2 ^ 16 * 2 ^ 32 + result % 2 ^ 32 * 2 ^ 64
    + cyc % 2 ^ 31 * 2 ^ 96

/-- A completion with its SQ_HEAD is written, or held back while its ring is full (R410). -/
def State.putComplAt (s : State) (n head cid status result cyc : Nat) : State :=
  let q := s.cqOf n
  let e := complEntry cid n status head result cyc
  if s.cqRoom n then s.ringWrite q e else s.updHring q (fun h => { h with held := h.held ++ [e] })

/-- The completion of the descriptor that the hub has read last. -/
def State.putCompl (s : State) (n cid status result cyc : Nat) : State :=
  s.putComplAt n (s.rd (F.HQ_RING_STAT_HUB_IDX n)) cid status result cyc

/-- Held completions leave while the ring has room. -/
def State.drainCompl (fuel : Nat) (s : State) (q : Nat) : State :=
  match fuel with
  | 0 => s
  | f + 1 =>
    match (s.hring q).held with
    | [] => s
    | e :: r =>
      if s.ringOn q && !s.ringFull q then
        State.drainCompl f ((s.updHring q (fun h => { h with held := r })).ringWrite q e) q
      else s

/-- A host-written ring has no command in progress any more; a pending EN = 0 takes effect (R424). -/
def State.ringIdle (s : State) (n : Nat) : State :=
  let s := ((s.updHring n (fun h => { h with wait := .idle })).wrB (F.HQ_RING_STAT_ACTIVE n) false).wrB
    (F.HQ_RING_STAT_STALL n) false
  if (s.hring n).closing && (s.hring n).flight.isEmpty then
    (s.updHring n (fun h => { h with closing := false })).wrB (F.HQ_RING_CFG_EN n) false
  else s

/-- The command in progress on a ring completes. -/
def State.finish (s : State) (n cid status result cyc : Nat) : State :=
  (s.putCompl n cid status result cyc).ringIdle n

end Sys2Proof.Machine
end

