-- ==== Sys2Proof/Machine/Prb.lean ====
section
/-!
DEFINITION. Machine/Prb.lean: the persistent register bank: the write port, its queue, the commit engine and the write
conditions of PW fields (R36, R43, R49, R103, R321, R498 to R501, R506, R507, R539, R540).
-/

namespace Sys2Proof.Machine

def PwWord.req (w : PwWord) : WaitReq := { who := w.who, off := w.off, val := w.val, tag := w.tag }
def WaitReq.word (r : WaitReq) : PwWord := ⟨r.who, r.off, r.val, r.tag⟩

/-- The PRB word that backs a register (R498): user words from 2,048, safety words 1,536 to 2,047, every other one as
the fixed assignment of the part has it (log entry 4). -/
def prbWordOf (off : Nat) : Nat :=
  if R.PRB_USER 0 ≤ off ∧ off < R.PRB_USER 2048 then 2048 + (off - R.PRB_USER 0) / 4
  else if R.SAF_ID ≤ off ∧ off < R.SAF_ID + 0x1000 then 1536 + Config.prbWord off % 512
  else Config.prbWord off % 1536

/-- Words that hold a position of the queue (`PRB_STAT.LEVEL`); a commit frees its position when it completes (R499). -/
def State.prbLevel (s : State) : Nat := s.prb.queue.length + b2n s.prb.busy.isSome

def prbBlockOf (off : Nat) : Nat := prbWordOf off / 64

def State.wearOf (s : State) (b : Nat) : Nat := Store.get s.prb.wear 0 b
/-- RDONLY of a block (R507). -/
def State.readOnly (s : State) (b : Nat) : Bool := decide (100000000 ≤ s.wearOf b)

/-- Any block has WARN or RDONLY (R507). -/
def State.wearWarn (s : State) : Bool := s.prb.wear.any (fun p => decide (90000000 ≤ p.2))

/-- A commit of a word of block `b` is counted (R506, R507). -/
def State.countWear (s : State) (b : Nat) : State :=
  let s := { s with prb := { s.prb with wear := Store.put s.prb.wear 0 b (min (s.wearOf b + 1) (2 ^ 27 - 1)) } }
  if s.wearWarn then s.live 0x0C5 true else s

/-- A discarded PW word (R500, R507). -/
def State.discardPw (s : State) : State := (s.incSat F.PRB_DISC_COUNT).count 0x007

/-- The access that carries a word of a command ring is released (R415, R499, R500). -/
def State.releasePw (s : State) (w : PwWord) : State :=
  if w.tag = 0 then s
  else
    match (s.hring (w.tag - 1)).wait with
    | .pw cid _ prev => s.finish (w.tag - 1) cid 0 prev.toNat s.cyc
    | _ => s

/-- A topology register of R43. -/
def isTopology (off : Nat) : Bool :=
  off == R.GEN_TOPO || (R.GEN_ARM_CFG 0 ≤ off && off < R.GEN_ARM_CFG 6) || (R.GEN_RING_ARM 0 ≤ off && off < R.GEN_RING_ARM 4)

/-- `MI_CTRL`, or `MI_CFGc` with its channel (R103). -/
def miConfig (off : Nat) : Option (Option Nat) :=
  if off = R.MI_CTRL then some none
  else ((List.range 16).find? (fun c => off == R.MI_CFG c)).map some

/-- The fault source of a `FLT_SEVs` register. -/
def sevSource (off : Nat) : Option Nat :=
  if R.FLT_SEV 0 ≤ off ∧ off < R.FLT_SEV 0x220 ∧ off % 4 = 0 then some ((off - R.FLT_SEV 0) / 4) else none

/-- The conditions under which a block accepts a PW word, judged when its commit starts (R540): the value to be
committed, or none with the effect of an ignored write. -/
def State.judgePw (s : State) (w : PwWord) : State × Option Word :=
  if isTopology w.off then
    if s.anyDeblocked then (s.raise 0x002, none)
    else
      let s := if w.off = R.GEN_TOPO then s else s.aceTopology
      (s, some w.val)
  else if w.off = R.GEN_CYC_LEN then
    let v := bits w.val.toNat 0 11
    if s.anyDeblocked || v < 100 || 2000 < v then (s.raise 0x003, none) else (s, some w.val)
  else if (miConfig w.off).isSome then
    if s.anyDeblocked || !miInRange w.off w.val then (s.raise 0x006, none) else (s, some w.val)
  else
    match sevSource w.off with
    | some src =>
      let v := min 4 (bits w.val.toNat 0 3)
      let floor := s.rd (F.FLT_SEV_FLOOR src)
      if v < floor then (s.wrB F.FLT_ERR_FLOOR true, some (BitVec.ofNat 32 floor)) else (s, some (BitVec.ofNat 32 v))
    | none => (s, some w.val)

/-- The commit engine starts the words at the head of the queue, while power allows, until one commit runs (R499, R500). -/
def State.prbStart (fuel : Nat) (s : State) : State :=
  match fuel with
  | 0 => s
  | f + 1 =>
    if s.prb.busy.isSome || s.pwr.pfailLow || s.pwr.railBad != 0 then s
    else
      match s.prb.queue with
      | [] => s
      | w :: r =>
        let s := { s with prb := { s.prb with queue := r } }
        if s.readOnly (prbBlockOf w.off) then State.prbStart f ((s.discardPw).releasePw w)
        else
          let j := s.judgePw w
          match j.2 with
          | none => State.prbStart f (j.1.releasePw w)
          | some v => { j.1 with prb := { j.1.prb with busy := some { w with val := v } } }

/-- The words of requesters that wait behind an earlier word of theirs and may be presented in the next slot: the first of
each requester of which no word waits at the port (R499). -/
def State.prbNext (s : State) : List PwWord :=
  s.prb.backlog.foldl (fun (l : List PwWord) w =>
    if (s.waiting 0).any (fun r => r.who == w.who) || l.any (fun x => x.who == w.who) then l else l ++ [w]) []

/-- One slot of the write port with the words newly presented in it: at most one word enters the queue, and each new
word that does not is counted; a later word of one requester waits behind it, and it is presented in the slot after that
word has entered the queue (R36, R37, R39, R499). -/
def State.prbSlot (s : State) (news : List PwWord) : State :=
  if s.pwr.pfailLow then news.foldl (fun s w => (s.discardPw).releasePw w) s
  else
    let next := s.prbNext
    let kept : List PwWord := next.foldl (fun l w => l.erase w) s.prb.backlog
    let held (w : PwWord) : Bool := (s.waiting 0).any (fun r => r.who == w.who) || s.prb.backlog.any (fun b => b.who == w.who)
    let x := news.foldl (fun (x : List PwWord × List PwWord) w =>
      if held w || x.1.any (fun f => f.who == w.who) then (x.1, x.2 ++ [w]) else (x.1 ++ [w], x.2)) ([], [])
    let fresh := next ++ x.1
    let s : State := { s with prb := { s.prb with backlog := kept ++ x.2 } }
    let l := place WaitReq.isSafety WaitReq.lt (s.waiting 0) (fresh.map PwWord.req)
    let room := decide (s.prbLevel < 64)
    let granted := if room then l.take 1 else []
    let s := s.setWaiting 0 (if room then l.drop 1 else l)
    let s := { s with prb := { s.prb with queue := s.prb.queue ++ granted.map WaitReq.word } }
    let late := (fresh.map PwWord.req).filter (fun r => !granted.any (fun g => g == r))
    (s.defer 0 late.length).prbStart 65

/-- The write port takes waiting words, one per slot, while the queue has room. -/
def State.prbGrant (fuel : Nat) (s : State) : State :=
  match fuel with
  | 0 => s
  | f + 1 =>
    let s := s.prbStart 65
    if ((s.waiting 0).isEmpty && s.prb.backlog.isEmpty) || !decide (s.prbLevel < 64) then s
    else State.prbGrant f (s.prbSlot [])

/-- A PW word is presented alone in its slot. -/
def State.presentPw (s : State) (who : Requester) (off : Nat) (val : Word) (tag : Nat := 0) : State :=
  s.prbSlot [⟨who, off, val, tag⟩]

/-- The commit in progress completes: the value governs (the hub's and the safety island's own words write read-only
fields, R539), the block's wear counts, the access is acknowledged, and the
next commit starts (R499, R506, R540). -/
def pwCommit (s : State) : State :=
  match s.prb.busy with
  | none => s
  | some w =>
    let s := { s with prb := { s.prb with busy := none } }
    let old := s.reg w.off
    let mask : Word := match regRow w.off with
      | some r => BitVec.ofNat 32 (if w.who = .hubHw ∨ w.who = .safety then r.rd else r.pw)
      | none => 0
    let s := s.setReg w.off ((old &&& ~~~mask) ||| (w.val &&& mask))
    let s := (s.countWear (prbBlockOf w.off)).count 0x006
    let s := match miConfig w.off with
      | some c => s.miCommitted c (bitOf old.toNat 0)
      | none => s
    ((s.releasePw w).prbStart 65).prbGrant 70

/-- PFAIL_N falls: every word that has not started is discarded (R500). -/
def State.prbPfail (s : State) : State :=
  let dead := s.prb.queue ++ (s.waiting 0).map WaitReq.word ++ s.prb.backlog
  let s := ({ s with prb := { s.prb with queue := [], backlog := [] } }).setWaiting 0 []
  dead.foldl (fun s w => (s.discardPw).releasePw w) s

/-- A write that is not committed is pending (`PRB_STAT.PEND`). -/
def State.prbPend (s : State) : Bool := s.prbLevel != 0 || !(s.waiting 0).isEmpty || !s.prb.backlog.isEmpty

end Sys2Proof.Machine
end

