-- ==== Sys2Proof/Machine/Time.lean ====
section
/-!
DEFINITION. Machine/Time.lean: hall time and clock synthesis (spec/07): the hub servo, holdover and steps, reading, PPS,
the transmit time-stamp queues, the PLLs.
-/

namespace Sys2Proof.Machine

/-- One second and one millisecond. -/
def second : Time := ns 1000000000
def millisecond : Time := ns 1000000

/-! The servo (R231 to R236). -/

/-- STEP_TH in time units. -/
def State.stepTh (s : State) : Nat := ns (100 * clampN 1 4095 (s.rd F.HT_CTRL_STEP_TH))
/-- SLEW in 2^-40. -/
def State.slew (s : State) : Int := clampN 1 100 (s.rd F.HT_CTRL_SLEW) * 2 ^ 40 / 1000000

/-- 200 ppm in 2^-40. -/
def ppm200 : Int := 200 * 2 ^ 40 / 1000000

/-- R231 on one offset: rho_P and rho_I after it. -/
def servo (theta : Int) (dt kp ki : Nat) (slew rhoI : Int) : Int × Int :=
  let d : Int := max 1 dt
  (-(clampI (-slew) slew (theta * 2 ^ 40 / (2 ^ kp * d))),
   clampI (-ppm200) ppm200 (rhoI - theta * 2 ^ 40 / (2 ^ ki * d)))

/-- The registers that show the servo. -/
def State.showServo (s : State) : State :=
  let s := (s.wrI F.HT_FADJ_RHO_I s.clk.rhoI).wr F.HT_LAST_THETA (satField 32 (s.clk.theta / 4096))
  s.wrB F.HT_STAT_LOCK (decide (16 ≤ s.clk.goodOffs))

/-- Holdover: rho_P is 0, rho_I frozen (R232). -/
def State.holdover (s : State) : State :=
  ({ s with clk := { s.clk with rhoP := 0 } }).wrB F.HT_STAT_HOLD true

/-- What the hub remembers by instants of hall time keeps its distance from now when hall time steps: the latest cycle
starts and frames, the gallery's record, the balustrade's windows (DEDUCED, log entry 76). -/
def State.moveRecord (s : State) (move : Time → Time) : State :=
  let cell (c : GalCell) : GalCell :=
    { c with edges := c.edges.map (fun e => (move e.1, e.2)), data := c.data.map (fun d => { d with s := move d.s }),
             prev := c.prev.map (fun d => { d with s := move d.s }), refr := c.refr.map move, exclAt := c.exclAt.map move,
             blkAt := c.blkAt.map move, away := c.away.map (fun x => (move x.1, move x.2)), winAt := move c.winAt }
  { s with clk := { s.clk with starts := s.clk.starts.map (fun x => (x.1, x.2.1, move x.2.2)) },
           ports := s.ports.map (fun x => (x.1, { x.2 with sent := x.2.sent.map (fun f => { f with tk := move f.tk }) })),
           gal := { s.gal with cells := s.gal.cells.map (fun x => (x.1, cell x.2)),
                               arms := s.gal.arms.map (fun x => (x.1, { x.2 with measAt := x.2.measAt.map move })) },
           saf := { s.saf with chans := s.saf.chans.map (fun x => (x.1, { x.2 with start := move x.2.start })) } }

/-- Hall time steps by -theta now (R235). -/
def State.stepHall (s : State) (theta : Int) : State :=
  let move (h : Time) : Time := ((h : Int) - theta).toNat
  let s := s.moveRecord move
  let s := { s with clk := { s.clk with hall := move s.clk.hall, tkHall := move s.clk.tkHall, stepAt := none } }
  let s := (s.incWrap F.HT_STEP_CNT_COUNT).wr F.HT_STEP_SIZE_SIZE (satField 32 ((-theta) / 65536))
  let s := (s.wr F.HT_STEP_CYC_CYC s.cyc).count 0x002
  let s := (s.wrB F.HT_STAT_STEP_PEND false).wrB F.HT_STAT_HOLD false
  let s := s.wrB F.HT_STAT_ALIGNING true
  ((s.raise 0x00C).moveChans move).realignAll

/-- Every arm of the hall is blocked, as far as this hub can tell: its own arms are, and it is alone or a hall block is
in force (log entry 46). -/
def State.hallBlocked (s : State) : Bool :=
  let others := setBits (s.rd F.STK_HUBS_PRESENT) (s.rd F.GEN_TOPO_HUB_ID) 1 0
  !s.anyDeblocked && (others == 0 || s.rdB F.FLT_STAT_HALL_BLK)

/-- An offset theta arrives from source `src` (1 PTP, 2 PPS, 3 Titajor); `alone`: the hub may step alone (R236). -/
def State.offset (s : State) (theta : Int) (src : Nat) (alone : Bool) : State :=
  let now := s.clk.now
  let dt := match s.clk.lastOffs with | some t => some (now - t) | none => none
  let s := { s with clk := { s.clk with theta := theta, lastOffs := some now,
                                        goodOffs := if theta.natAbs < ns 50 then min 16 (s.clk.goodOffs + 1) else 0 } }
  let s := s.wr F.HT_STAT_SRC_USED src
  let large := decide (s.stepTh ≤ theta.natAbs)
  if large && !s.rdB F.HT_CTRL_LARGE_SLEW then
    if alone && !s.anyDeblocked then (s.stepHall theta).showServo
    else ((s.wrB F.HT_STAT_STEP_PEND true).holdover).showServo
  else
    let s := (s.wrB F.HT_STAT_HOLD false)
    let s := if large then s else s.wrB F.HT_STAT_STEP_PEND false
    match dt with
    | none => ({ s with clk := { s.clk with rhoP := 0 } }).showServo
    | some d =>
      let r := servo theta d (s.rd F.HT_SERVO_KP_SH) (s.rd F.HT_SERVO_KI_SH) s.slew s.clk.rhoI
      ({ s with clk := { s.clk with rhoP := r.1, rhoI := r.2 } }).showServo

def State.isNewel (s : State) : Bool := s.rdB F.STK_STAT_IS_NEWEL

/-- The write of `HT_OFFS_S` commits (Table 1, R247); an NS above its range acts as 999,999,999 (R255). -/
def offsetCommit (t : Time) (secs : Word) (s : State) : State :=
  let s := s.advance t
  let src := s.rd F.HT_CTRL_SRC
  if !s.isNewel then s
  else if src = 1 then
    let n : Int := sext 32 secs.toNat * 1000000000 + min 999999999 (s.rd F.HT_OFFS_NS_NS)
    s.offset (n * 65536 + s.rd F.HT_OFFS_FR_FR) 1 false
  else if src = 2 then { s with clk := { s.clk with ppsSecs := some (sext 32 secs.toNat) } }
  else s

/-- A rising edge of PPS_IN (R247). -/
def ppsInEdge (t : Time) (s : State) : State :=
  let s := s.advance t
  if !s.rdB F.HT_PPS_CFG_IN_EN then s
  else
    let st := (s.clk.hall / 4096 * 4096) - s.rd F.HT_PPS_IDLY_DLY * 256
    let f := st % second
    let offs : Int := if 2 * f ≤ second then f else (f : Int) - second
    let s := s.wr F.HT_PPS_STAMP_OFFS (satField 32 (offs / 16384))
    if s.isNewel && s.rd F.HT_CTRL_SRC == 2 then
      let whole : Int := (s.clk.ppsSecs.getD 0) * 1000000000 * 65536
      ({ s with clk := { s.clk with ppsSecs := none } }).offset (offs + whole) 2 false
    else s

/-- The source of the hub's role has given nothing for its time of Table 1 (R230): since its latest offset, or since the
release when there has been none. -/
def State.sourceGone (s : State) : Bool :=
  let quiet := s.clk.now - s.clk.lastOffs.getD 0
  let src := s.rd F.HT_CTRL_SRC
  if !s.isNewel then decide (64 * s.cycT ≤ quiet)
  else if src = 1 then decide (s.rd F.HT_SERVO_HOLD_TO * millisecond ≤ quiet)
  else if src = 2 then decide (1200 * millisecond ≤ quiet)
  else false

/-- The source is lost (Table 1, R232). -/
def sourceLoss (s : State) : State := if s.sourceGone then (s.holdover).wr F.HT_STAT_SRC_USED 0 else s

/-- A pending step that R234 lets this hub make: the newel's while every arm of the hall is blocked, another hub's while its
own arms are (R236). -/
def State.mayStep (s : State) : Bool :=
  s.rdB F.HT_STAT_STEP_PEND && !s.rdB F.HT_CTRL_LARGE_SLEW && (if s.isNewel then s.hallBlocked else !s.anyDeblocked)

/-- Other hubs of the hall are present. -/
def State.hasOthers (s : State) : Bool := setBits (s.rd F.STK_HUBS_PRESENT) (s.rd F.GEN_TOPO_HUB_ID) 1 0 != 0

/-- The newel names the cycle start of its pending step, once every arm of the hall is blocked: the fourth from now, by which
every TIME message has arrived (R390, R391; DESIGN CHOICE, log entry 76); a named start that has gone by without the step
names nothing. -/
def State.nameStep (s : State) : State :=
  match s.clk.stepAt with
  | some (c, _) =>
    if serialLt c s.cyc || !s.mayStep then { s with clk := { s.clk with stepAt := none } }
    else { s with clk := { s.clk with stepAt := some (c, -s.clk.theta) } }
  | none =>
    if s.mayStep && s.hasOthers then
      { s with clk := { s.clk with stepAt := some ((s.cyc + 4) % 2 ^ 32, -s.clk.theta) } }
    else s

/-- `HT_CMD.STEP` (R234, R235, R236): the newel names the next cycle start, with other hubs one that they can know of;
another hub steps alone, at once. -/
def htStep (s : State) : State :=
  if !s.mayStep then s
  else if s.isNewel then
    if s.hasOthers then s.nameStep
    else { s with clk := { s.clk with stepAt := some ((s.cyc + 1) % 2 ^ 32, -s.clk.theta) } }
  else (s.stepHall s.clk.theta).showServo

/-- The step at the present cycle start (R234 to R236): named for it, by -theta of the newel's latest offset; or pending at
a hub that names nothing to others, with the arms blocked that R234 and R236 ask for. -/
def hallStep (s : State) : State :=
  if s.anyDeblocked then s
  else
    match s.clk.stepAt with
    | some (c, d) =>
      if c != s.cyc then s
      else if !s.isNewel then (s.stepHall (-d)).showServo
      else if s.mayStep then (s.stepHall s.clk.theta).showServo else s
    | none => if s.mayStep && !(s.isNewel && s.hasOthers) then (s.stepHall s.clk.theta).showServo else s

/-! Reading (R229). -/

def timeRead (t : Time) (s : State) : State :=
  let s := s.advance t
  let h := s.clk.hall
  let s := (s.wr F.HT_TIME_FR_FR (hallFr h)).wr F.HT_TIME_NS_NS (hallNs h)
  let s := (s.wr F.HT_TIME_SL_S (hallS h)).wr F.HT_TIME_SH_S (hallS h / 2 ^ 32)
  { s with rdata := BitVec.ofNat 32 (hallFr h) }

/-! Transmit time-stamps (R246). -/

def State.txq (s : State) (n : Nat) : List TxStamp := if n = 0 then s.clk.txq0 else s.clk.txq1
def State.setTxq (s : State) (n : Nat) (l : List TxStamp) : State :=
  let s := s.wr (F.HT_ETH_TXQ_STAT_LEVEL n) l.length
  if n = 0 then { s with clk := { s.clk with txq0 := l } } else { s with clk := { s.clk with txq1 := l } }

/-- The stamp of a frame whose start-of-frame delimiter left at hall time `h` enters the queue of port `n` (R245). -/
def State.txqPush (s : State) (n id : Nat) (h : Time) : State :=
  let st : TxStamp := ⟨id % 65536, h + s.rd (F.HT_ETH_TXLAT_LAT n) * 256⟩
  let l := s.txq n
  if 16 ≤ l.length then
    ((s.setTxq n (l.drop 1 ++ [st])).wrB (F.HT_ETH_TXQ_STAT_OVF n) true).incSat (F.HT_ETH_TXQ_STAT_LOST n)
  else s.setTxq n (l ++ [st])

/-- A read of `HT_ETHn_TXQ_ID`. -/
def txqRead (n : Nat) (s : State) : State :=
  match s.txq n with
  | [] => { s with rdata := 0 }
  | st :: r =>
    let s := s.setTxq n r
    let s := (s.wr (F.HT_ETH_TXQ_FR_FR n) (hallFr st.hall)).wr (F.HT_ETH_TXQ_NS_NS n) (hallNs st.hall)
    let s := (s.wr (F.HT_ETH_TXQ_SL_S n) (hallS st.hall)).wr (F.HT_ETH_TXQ_SH_S n) (hallS st.hall / 2 ^ 32)
    { s with rdata := BitVec.ofNat 32 (st.id + 2 ^ 16) }

/-- PPS_OUT rises `HT_PPS_ODLY` before the next whole second (R248). -/
def ppsOutPulse (s : State) : State :=
  if !s.rdB F.HT_PPS_CFG_OUT_EN then s
  else
    let d := s.rd F.HT_PPS_ODLY_DLY * 256
    let k := (s.clk.hall + d) / second + 1
    let s := s.advanceHall (k * second - d)
    let w := clampN 1 999 (s.rd F.HT_PPS_CFG_WIDTH) * millisecond
    { s with clk := { s.clk with ppsOut := some (s.clk.now + w) } }

/-! PLLs (R250 to R254). -/

/-- Lock bit, sticky error and source of PLL 0 core, 1 SerDes, 2 DPLL. -/
def pllLockF (p : Nat) : Fld := ⟨R.CLK_STAT, p, 1⟩
def pllErrF (p : Nat) : Fld := ⟨R.CLK_ERR, p, 1⟩

/-- WIN and CNT of R250; a value outside its range acts as the nearest limit (R255). -/
def State.lockWin (s : State) (p : Nat) : Time := ns (clampN 1 64 (s.rd (F.CLK_LOCK_WIN p)))
def State.lockCnt (s : State) (p : Nat) : Nat := clampN 16 4096 (s.rd (F.CLK_LOCK_CNT p))

/-- `n` consecutive reference cycles with a phase error of at most `err`: lock (R250). -/
def pllLock (p n : Nat) (err : Time) (s : State) : State :=
  if s.lockCnt p ≤ n ∧ err < s.lockWin p then (s.wrB (pllLockF p) true).live (0x0B0 + p) false else s

/-- `n` consecutive reference cycles with a phase error of at least `err`: the lock is lost (R250). -/
def pllLockLoss (p n : Nat) (err : Time) (s : State) : State :=
  if n < 4 ∨ err < s.lockWin p ∨ !s.rdB (pllLockF p) then s
  else
    let s := ((s.wrB (pllLockF p) false).wrB (pllErrF p) true).live (0x0B0 + p) true
    if p = 0 then s.wrB F.CLK_STAT_SAFE true else s

/-- Every `CLK_DIV` field in its range (Table 8). -/
def State.divInRange (s : State) : Bool :=
  let ok (v lo hi : Nat) : Bool := lo ≤ v && v ≤ hi
  ok (s.rd F.CLK_DIV_CORE) 8 32 && ok (s.rd F.CLK_DIV_ACE) 10 40 && ok (s.rd F.CLK_DIV_GAL) 12 48 &&
    ok (s.rd F.CLK_DIV_REC) 15 60

/-- Every `CLK_DIV` field at its nominal divider. -/
def State.divNominal (s : State) : Bool :=
  s.rd F.CLK_DIV_CORE == 8 && s.rd F.CLK_DIV_ACE == 10 && s.rd F.CLK_DIV_GAL == 12 && s.rd F.CLK_DIV_REC == 15

/-- `CLK_CMD.APPLY` (R252, Table 4). -/
def clkApply (s : State) : State :=
  if s.anyDeblocked || !s.divInRange then s.raise 0x00A
  else
    let s := (s.wrB F.CLK_STAT_APPLY_PEND true).wrB F.CLK_STAT_SAFE true
    { s with clk := { s.clk with refmUsed := s.rd F.CLK_CFG_CORE_REFM, divUsed := s.reg R.CLK_DIV } }

/-- The core PLL has locked and the trees switch to its outputs. -/
def applyComplete (s : State) : State :=
  if s.rdB F.CLK_STAT_APPLY_PEND && s.rdB (pllLockF 0) then
    (s.wrB F.CLK_STAT_APPLY_PEND false).wrB F.CLK_STAT_SAFE false
  else s

/-- 1 ms without lock: the trees stay on the safe clock. -/
def applyTimeout (s : State) : State :=
  if s.rdB F.CLK_STAT_APPLY_PEND then
    ((s.wrB F.CLK_STAT_APPLY_PEND false).wrB F.CLK_ERR_TIMEOUT true).live 0x0B0 true
  else s

/-- REF25_IN is lost (R253). -/
def refLoss (s : State) : State :=
  let s := { s with clk := { s.clk with refOk := false } }
  let s := (s.wrB F.CLK_ERR_REF_LOSS true).live 0x0B3 true
  if s.rdB F.CLK_CFG_DPLL_FB_EN then s.wrB F.CLK_STAT_DPLL_FB true else s

/-- `CLK_CMD.SYNC_ARM` (R254). -/
def syncArm (s : State) : State := if s.anyDeblocked then s else s.wrB F.CLK_STAT_SYNC_ARMED true

/-- The first rising edge of CLK_SYNC after arming (R254). -/
def clkSyncEdge (t : Time) (s : State) : State :=
  let s := s.advance t
  if s.rdB F.CLK_STAT_SYNC_ARMED then
    (s.wr ⟨R.CLK_SYNC_NS, 0, 30⟩ (hallNs s.clk.hall)).wrB F.CLK_STAT_SYNC_ARMED false
  else s

end Sys2Proof.Machine
end

