-- ==== Sys2Proof/Machine/Tread.lean ====
section
/-!
DEFINITION. Machine/Tread.lean: a Tread's registers, its time, its fault codes, its persistent words and its gate
outputs: dead time, interlock, trips and refresh timers (R257 to R268, R275, R307, R310 to R313, R319).
-/

namespace Sys2Proof.Machine

/-! Registers. -/

def Tread.reg (d : Tread) (off : Nat) : Word := Store.get d.regs (treadReset off) off
def Tread.setReg (d : Tread) (off : Nat) (v : Word) : Tread := { d with regs := Store.put d.regs (treadReset off) off v }
/-- A register as it stood before the present instant (R9). -/
def Tread.old (d : Tread) (off : Nat) : Word := Store.get d.before (treadReset off) off
def Tread.rd (d : Tread) (f : Fld) : Nat := bits (d.reg f.reg).toNat f.lo f.w
def Tread.rdB (d : Tread) (f : Fld) : Bool := d.rd f != 0
def Tread.rdI (d : Tread) (f : Fld) : Int := sext f.w (d.rd f)
def Tread.wr (d : Tread) (f : Fld) (v : Nat) : Tread :=
  d.setReg f.reg (BitVec.ofNat 32 (setBits (d.reg f.reg).toNat f.lo f.w v))
def Tread.wrB (d : Tread) (f : Fld) (b : Bool) : Tread := d.wr f (b2n b)
def Tread.incSat (d : Tread) (f : Fld) (n : Nat := 1) : Tread := d.wr f (min (d.rd f + n) (2 ^ f.w - 1))
def Tread.incWrap (d : Tread) (f : Fld) (n : Nat := 1) : Tread := d.wr f (d.rd f + n)
def Tread.setBit (d : Tread) (f : Fld) (i : Nat) (b : Bool) : Tread := d.wr ⟨f.reg, f.lo + i, 1⟩ (b2n b)

def State.tread (s : State) (i : Nat) : Tread := Store.get s.treads {} i
def State.setTread (s : State) (i : Nat) (d : Tread) : State := { s with treads := Store.put s.treads {} i d }
def State.updTread (s : State) (i : Nat) (f : Tread → Tread) : State := s.setTread i (f (s.tread i))

/-- BTYPE full-bridge. -/
def Tread.full (d : Tread) : Bool := d.rd F.T_ID_INFO_BTYPE == 1
def Tread.blocked (d : Tread) : Bool := d.rdB F.T_SW_STAT_BLOCKED
def Tread.bypassed (d : Tread) : Bool := d.rdB F.T_BYP_STAT_BYPASSED

/-- The Tread's position in frames and carts: stored when admitted, else its hop position (R199, R215). -/
def Tread.pos (d : Tread) : Nat := if d.rdB F.T_ID_INFO_ADM then d.rd F.T_ID_INFO_POS else d.rd F.T_ID_INFO_HPOS

/-- Either lane port has lock; otherwise the edge island holds the outputs off (R34, R184). -/
def Tread.locked (d : Tread) : Bool := d.rdB F.T_LN_STAT_NLOCK || d.rdB F.T_LN_STAT_FLOCK

/-- The control block that a lane port sends between frames (Table 1 of spec/06, R185, R204). -/
def idleBlock : Dword := 0x1E
def linkFaultBlock (pos : Nat) : Dword := BitVec.ofNat 64 (0x4B + pos % 256 * 2 ^ 8)

/-- Each lane port sends LINK_FAULT while its receive lane has no lock, else IDLE between frames (R185, R541). -/
def Tread.showIdle (d : Tread) : Tread :=
  let blk (lock : Bool) : Option Dword := if lock then some idleBlock else some (linkFaultBlock d.pos)
  { d with idleN := blk (d.rdB F.T_LN_STAT_NLOCK), idleF := blk (d.rdB F.T_LN_STAT_FLOCK) }

/-- T by `T_SW_TCYC`. -/
def Tread.cycT (d : Tread) : Time := ns (10 * clampN 100 2000 (d.rd F.T_SW_TCYC_LEN))

/-! Time. -/

/-- Hall time that local duration `n` adds, in 2^-40 units (R231, R239). -/
def Tread.gain (d : Tread) (n : Nat) : Int := (n : Int) * (2 ^ 40 + d.rhoI + d.rhoP) + d.resid

/-- Hall time at local instant `t`, not before the present. -/
def Tread.hallAt (d : Tread) (t : Time) : Time := if t ≤ d.now then d.hall else ((d.hall : Int) + d.gain (t - d.now) / 2 ^ 40).toNat

/-- Time passes to local instant `t`. -/
def Tread.advance (d : Tread) (t : Time) : Tread :=
  if t ≤ d.now then d
  else { d with now := t, hall := d.hallAt t, resid := (d.gain (t - d.now) % 2 ^ 40).toNat, before := d.regs }

/-- Time passes until the Tread's hall time is `h`. -/
def Tread.toHall (d : Tread) (h : Time) : Tread :=
  if h ≤ d.hall then d else { d with now := d.now + (h - d.hall), hall := h, resid := 0, before := d.regs }

/-! Event counters (R313). -/

def Tread.ev (d : Tread) (src : Nat) (n : Nat := 1) : Tread :=
  (List.range 8).foldl (fun d i => if d.rd (F.T_EVC_SEL_SRC i) = src then d.incWrap (F.T_EVC_CNT_COUNT i) n else d) d

/-! Fault codes (R307, R319). -/

/-- The row of Table 6 of spec/09 that forwards a code, in that order; other codes come after them. -/
def codeRow (code : Nat) : Nat :=
  if code < 0x008 then 1 else if code = 0x010 then 2 else if code < 0x00C then 3 else if code = 0x028 then 4
  else if code = 0x029 then 5 else if code = 0x030 then 6 else if code = 0x031 then 7 else if code = 0x038 then 8
  else if code = 0x020 then 9 else if code = 0x032 then 10 else if code = 0x040 then 11 else 12

/-- A detector's condition starts: its code is logged, and queued or dropped. -/
def Tread.logCode (d : Tread) (code : Nat) : Tread :=
  let cyc := match d.k0 with | some (k, _) => k | none => 0
  let d := (List.range 15).foldr (fun n d => d.setReg (R.T_FLT_LOG (15 - n)) (d.reg (R.T_FLT_LOG (14 - n)))) d
  let d := d.setReg (R.T_FLT_LOG 0) (BitVec.ofNat 32 (code % 1024 + d.fqSeq % 4 * 2 ^ 10 + cyc % 65536 * 2 ^ 16))
  let d := (d.wr F.T_FLT_STAT_LAST_CODE code).wr F.T_FLT_STAT_LAST_SEQ d.fqSeq
  if 16 ≤ d.fq.length then (d.incSat F.T_STAT_FQ_LOST).ev 10
  else
    let d := { d with fq := d.fq ++ [code % 1024 + d.fqSeq % 4 * 2 ^ 10], fqSeq := (d.fqSeq + 1) % 4,
                      fqNowN := d.fqNowN + 1 }
    d.wr F.T_STAT_FQ_LEVEL d.fq.length

/-- The codes of one clock take the order of the rows of Table 6 of spec/09, in the queue and in the log. -/
def Tread.orderCodes (d : Tread) : Tread :=
  let l := d.fqNow
  let keep := d.fq.length - d.fqNowN
  let put (j w : Nat) : Nat := if j < keep then w else w / 1024 * 1024 + nth l (j - keep) 0 % 1024
  let d := { d with fq := d.fq.mapIdx put }
  let d := (List.range (min 16 l.length)).foldl (fun (d : Tread) n =>
    d.wr ⟨R.T_FLT_LOG n, 0, 10⟩ (nth l (l.length - 1 - n) 0)) d
  d.wr F.T_FLT_STAT_LAST_CODE (l.getLast?.getD 0)

/-- A detector's condition starts. -/
def Tread.fault (d : Tread) (code : Nat) : Tread :=
  let old := if d.fqAt = d.now then d.fqNow else []
  let n := if d.fqAt = d.now then d.fqNowN else 0
  let l := old.filter (fun c => codeRow c ≤ codeRow code) ++ [code] ++ old.filter (fun c => codeRow code < codeRow c)
  (({ d with fqAt := d.now, fqNow := l, fqNowN := n }).logCode code).orderCodes

/-! Persistent words (R310 to R312). -/

/-- Offsets of the PW registers, rising. -/
def treadPwRegs : List Nat :=
  [R.T_ADC_VPC] ++ (List.range 8).map R.T_NTC_TBL ++ [R.T_OVG_CFG, R.T_PROT_TEMP, R.T_PROT_SUP, R.T_PROT_VCAP,
    R.T_HT_ASYM_N, R.T_HT_ASYM_F, R.T_SW_DT, R.T_SW_DTB, R.T_GFB_CFG, R.T_REFR_CFG, R.T_BYP_CFG]

/-- The wear block of a persistent word or PW register. -/
def treadBlock (off : Nat) : Nat := if 0x800 ≤ off ∧ off < 0xC00 then (off - 0x800) / 256 else 4

def Tread.readOnly (d : Tread) (b : Nat) : Bool := d.rdB (F.T_PW_WEAR_RDONLY b)

/-- A committed write of a persistent word: the word, its wear, the digest to be renewed. -/
def Tread.commitPw (d : Tread) (off : Nat) (v : Word) : Tread :=
  let b := treadBlock off
  let d := (d.setReg off v).incSat (F.T_PW_WEAR_WRITES b)
  let d := d.ev 15
  if d.rd (F.T_PW_WEAR_WRITES b) = 100000000 then (d.wrB (F.T_PW_WEAR_RDONLY b) true).fault 0x078 else d

/-- CRC-32 of FCRC over 32-bit words. -/
def crcWords (l : List Word) : Nat :=
  2 ^ 32 - 1 - revBits 32 (crcMsb 32 0x04C11DB7 0xFFFFFFFF (l.flatMap (fun w => bitsLsb 32 w.toNat)))

/-- `T_DIGEST` is renewed (R312). -/
def Tread.digest (d : Tread) : Tread :=
  let ws := treadPwRegs.map d.reg ++ (List.range 128).map (fun w => d.reg (R.T_PW w))
  d.setReg R.T_DIGEST (BitVec.ofNat 32 (crcWords ws))

/-! Gate outputs. -/

def Tread.out (d : Tread) (n : Nat) : TOut := nth d.outs n {}
def Tread.setOut (d : Tread) (n : Nat) (o : TOut) : Tread := { d with outs := d.outs.set n o }
def Tread.turnOn (d : Tread) (leg : Nat) : Option TTurnOn := if leg = 0 then d.turnOnA else d.turnOnB
def Tread.setTurnOn (d : Tread) (leg : Nat) (x : Option TTurnOn) : Tread :=
  if leg = 0 then { d with turnOnA := x } else { d with turnOnB := x }

/-- Both outputs of leg `n / 2` other than `n`. -/
def otherOut (n : Nat) : Nat := if n % 2 = 0 then n + 1 else n - 1

def Tread.gfbEn (d : Tread) : Bool := d.rdB F.T_SW_CFG_GFB_EN

/-- `T_GFB_STAT.LIVE` and `T_DT_A`, `T_DT_B` as the outputs stand. -/
def Tread.showOuts (d : Tread) : Tread :=
  let d := (List.range 4).foldl (fun d n => d.setBit F.T_GFB_STAT_LIVE n ((d.out n).on != (d.out n).fb)) d
  let d := (d.wr F.T_DT_A_TF_HI (min 32767 (d.out 0).tFilt)).wr F.T_DT_A_TF_LO (min 32767 (d.out 1).tFilt)
  (d.wr F.T_DT_B_TF_HI (min 32767 (d.out 2).tFilt)).wr F.T_DT_B_TF_LO (min 32767 (d.out 3).tFilt)

/-- Dead time of device `n` at a turn-off (R265). -/
def Tread.deadTime (d : Tread) (n : Nat) : Time :=
  let nom := clampN 10 2000 (d.rd F.T_SW_DT_DT_NOM)
  if !d.rdB F.T_SW_CFG_DT_ADAPT || !d.gfbEn then ns (nom * 10)
  else
    let x := ceilDiv ((d.out n).tFilt + 10 * d.rd F.T_SW_DT_DT_MARGIN) 10 * 10
    let lo := 10 * clampN 10 2000 (d.rd F.T_SW_DTB_DT_MIN)
    let hi := 10 * clampN 10 2000 (d.rd F.T_SW_DTB_DT_MAX)
    ns (max lo (min x hi))

/-- NOTCH and INTERVAL of R275. -/
def Tread.notch (d : Tread) : Time := ns (1000 * clampN 2 20 (d.rd F.T_REFR_CFG_NOTCH))
def Tread.interval (d : Tread) : Time := millisecond * clampN 1 100 (d.rd F.T_REFR_CFG_INTERVAL)

/-- Output `n` turns off; `sample`: its feedback gives a sample of R265. -/
def Tread.outOff (d : Tread) (n : Nat) (sample : Bool) : Tread :=
  let o := d.out n
  if !o.on then d
  else
    (d.setOut n { o with on := false, chg := d.hall, lastOff := some d.hall, dt := d.deadTime n,
                         sample := if sample then some d.hall else none, hsAcc := o.hsAcc + (d.hall - o.hsOn) }).ev 6

/-- Output `n` turns on, unless the edge island holds the outputs off (R34). Its feedback is taken to report on from
then (log entry 50). -/
def Tread.outOn (d : Tread) (n : Nat) : Tread :=
  let o := d.out n
  if o.on || !d.locked then d
  else
    let fresh := match o.lastOff with | some t => decide (t + d.notch ≤ d.hall) | none => true
    (d.setOut n { o with on := true, fb := true, chg := d.hall, fbChg := d.hall, sample := none, hsOn := d.hall,
                         hsAcc := if fresh then 0 else o.hsAcc }).ev 6

/-- The output that a leg state turns on: 0 none, 1 HI, 2 LO. -/
def legOut (leg want : Nat) : Option Nat := if want = 1 then some (2 * leg) else if want = 2 then some (2 * leg + 1) else none

/-- A leg goes to state `want` (0 both off, 1 H, 2 L) at the present instant (R258, R263, R264). -/
def Tread.setLeg (d : Tread) (leg want : Nat) : Tread :=
  let tgt := legOut leg want
  let same : Bool := match d.turnOn leg with
    | some p => some p.out == tgt
    | none => match tgt with
      | some n => (d.out n).on
      | none => !(d.out (2 * leg)).on && !(d.out (2 * leg + 1)).on
  if same then d
  else
    let d := d.setTurnOn leg none
    let d := if tgt = some (2 * leg) then d else d.outOff (2 * leg) true
    let d := if tgt = some (2 * leg + 1) then d else d.outOff (2 * leg + 1) true
    match tgt with
    | none => d
    | some n =>
      let o := d.out (otherOut n)
      let due := match o.lastOff with | some t => max d.hall (t + o.dt) | none => d.hall
      if due ≤ d.hall && !(d.gfbEn && o.fb) then d.outOn n else d.setTurnOn leg (some ⟨n, due⟩)

/-- The leg states of Table 1: 0 blocked or bypassed, 1 level 0, 2 level +1, 3 level -1, 4 bypass before confirmation,
5 refresh notch. -/
def Tread.legs (d : Tread) (st : Nat) : Nat × Nat :=
  if !d.full then ((if st = 2 then 1 else if st = 0 then 0 else 2), 0)
  else
    let inv := d.rdB F.T_CAR_AOPT_INVERT
    if st = 0 then (0, 0)
    else if st = 4 ∨ st = 5 then (2, 2)
    else if st = 1 then (if d.rdB F.T_CAR_AOPT_LEGSWAP then (1, 1) else (2, 2))
    else if (st == 2) != inv then (1, 2)
    else (2, 1)

def Tread.applyLegs (d : Tread) (st : Nat) : Tread :=
  let l := d.legs st
  ((d.setLeg 0 l.1).setLeg 1 l.2).showOuts

/-- MODE of `T_SW_STAT`. -/
def Tread.showMode (d : Tread) : Tread :=
  d.wr F.T_SW_STAT_MODE (if d.notchTo.isSome then 3 else if d.carrier then 2 else if d.edge2.isSome then 1 else 0)

/-- Leaving the blocked state loads every t_filt (R265). -/
def Tread.leave (d : Tread) : Tread :=
  if d.blocked then
    let t := 10 * (clampN 10 2000 (d.rd F.T_SW_DT_DT_NOM) - d.rd F.T_SW_DT_DT_MARGIN)
    { d with outs := d.outs.map (fun o => { o with tFilt := t }) }
  else d

/-- The cell enters a level (R259). -/
def Tread.enter (d : Tread) (st : Nat) : Tread :=
  let d := d.leave
  (((d.wr F.T_SW_STAT_STATE st).wrB F.T_SW_STAT_BLOCKED (st == 0)).applyLegs st).showMode

/-- One leg trips: both outputs off, its pending turn-on discarded, no sample (R266). -/
def Tread.tripLeg (d : Tread) (leg : Nat) : Tread :=
  let d := (d.setTurnOn leg none)
  let d := (d.outOff (2 * leg) false).outOff (2 * leg + 1) false
  let clear (d : Tread) (n : Nat) : Tread := d.setOut n { d.out n with sample := none }
  (clear (clear d (2 * leg)) (2 * leg + 1)).showOuts

/-- What a new command does: a pending turn-on of an earlier one that it discards counts (R261). -/
def Tread.counting (d : Tread) (f : Tread → Tread) : Tread :=
  let e := f d
  let gone (leg : Nat) : Bool := (d.turnOn leg).isSome && e.turnOn leg != d.turnOn leg
  e.incSat F.T_SW_CNT_OVERRIDE (b2n (gone 0) + b2n (gone 1))

/-- A trip of all four outputs (R266): every later edge is discarded, and the cell is blocked. -/
def Tread.trip (d : Tread) : Tread :=
  let d := (d.tripLeg 0).tripLeg 1
  let d := { d with edge2 := none, defer := none, notchTo := none, carrier := false }
  let d := d.wrB F.T_REFR_STAT_NOTCH false
  if d.byp.isSome then d.showMode
  else ((d.wr F.T_SW_STAT_STATE 0).wrB F.T_SW_STAT_BLOCKED true).showMode

/-- A latched cause of R267, or an active blocking detector of Table 6 of spec/09 (rows 4 to 7 and 10); the supply monitor
holds the outputs low (R523). -/
def Tread.mustBlock (d : Tread) : Bool :=
  d.lowAt.isSome || d.rdB F.T_GFB_STAT_LATCH || d.rdB F.T_PROT_STAT_DESAT || d.rdB F.T_PROT_STAT_OV_TRIP ||
    (d.rd F.T_PROT_STAT_LIVE &&& 0b0101111) != 0

/-- A pending turn-on reaches its dead time (R263): it waits on while the other output's feedback reports on. -/
def Tread.deadTimeOver (d : Tread) (leg : Nat) : Tread :=
  match d.turnOn leg with
  | none => d
  | some p =>
    let d := d.toHall p.due
    if d.gfbEn && (d.out (otherOut p.out)).fb then d
    else ((d.setTurnOn leg none).outOn p.out).showOuts

/-- WIN and FILT of R268. -/
def Tread.gfbWin (d : Tread) : Time := ns (10 * clampN 5 500 (d.rd F.T_GFB_CFG_WIN))
def Tread.gfbFilt (d : Tread) : Time := ns (10 * clampN 1 15 (d.rd F.T_GFB_CFG_FILT))

/-- The instant of a mismatch on output `n` that is under way (R268): a feedback that has not agreed by the end of its
window, one that has disagreed outside a window for longer than FILT; an agreeing feedback has begun to disagree FILT
ago, outside a window. -/
def Tread.mismatchAt (d : Tread) (n : Nat) : Time :=
  let o := d.out n
  let e := o.chg + d.gfbWin
  if o.on = o.fb then e + d.gfbFilt
  else if o.fbChg ≤ e then e
  else o.fbChg + d.gfbFilt

/-- The reaction to a gate-feedback mismatch on output `n` (R268). -/
def Tread.mismatch (d : Tread) (n : Nat) : Tread :=
  let o := d.out n
  let d := d.setOut n { o with fb := !o.on, mis := some (d.hall, none) }
  let d := (d.setBit F.T_GFB_STAT_LATCH n true).incSat F.T_GFB_STAT_EVENTS
  let d := ({ d.fault (0x008 + n) with byCmd := false }).trip
  let o := d.out n
  (if o.fb then d else d.setOut n { o with mis := o.mis.map (fun p => (p.1, some d.hall)) }).showOuts

/-- A gate-feedback mismatch on output `n` comes to its instant (R268). -/
def Tread.gfbMismatch (d : Tread) (n : Nat) : Tread :=
  if !d.gfbEn then d
  else if (d.out n).on != (d.out n).fb && (d.out n).mis.any (fun p => p.2.isNone) then d
  else (d.toHall (d.mismatchAt n)).mismatch n

/-- The feedback of output `n` reports off at the Tread's present time (R263, R265, R268). One that comes after its
window has been a mismatch at the window's end. -/
def Tread.feedbackOff (d : Tread) (n : Nat) : Tread :=
  let tardy := d.gfbEn && !(d.out n).on && (d.out n).fb && decide ((d.out n).chg + d.gfbWin < d.hall) &&
    !(d.out n).mis.any (fun p => p.2.isNone)
  let d := if tardy then d.mismatch n else d
  let o := d.out n
  let win := d.gfbWin
  let tf := match o.sample with
    | some t =>
      if d.hall ≤ t + win then
        let toff : Int := ((d.hall - t) / 131072 * 2 : Nat)
        ((o.tFilt : Int) + (toff - o.tFilt) / 2 ^ clampN 1 7 (d.rd F.T_SW_CFG_DT_ASH)).toNat
      else o.tFilt
    | none => o.tFilt
  let mis := match o.mis with | some (a, none) => if o.on then o.mis else some (a, some d.hall) | x => x
  let d := d.setOut n { o with fb := false, fbChg := d.hall, sample := none, tFilt := tf, mis := mis }
  let leg := n / 2
  let d := match d.turnOn leg with
    | some p =>
      if otherOut p.out = n ∧ p.due ≤ d.hall then
        let late := decide (p.due < d.hall)
        let d := (d.setTurnOn leg none).outOn p.out
        if late then d.incSat F.T_SW_CNT_INTERLOCK else d
      else d
    | none => d
  d.showOuts

/-- GFB of the uplink: bit n is 1 when output n showed no mismatch between two hall times (R269). -/
def Tread.gfbBits (d : Tread) (a b : Time) : Nat :=
  if !d.gfbEn then 15
  else ofBits ((List.range 4).filter (fun n => match (d.out n).mis with
    | none => true
    | some (s, e) => decide (b < s) || (match e with | some e => decide (e < a) | none => false)))

end Sys2Proof.Machine
end

