-- ==== Sys2Proof/Machine/TreadGate.lean ====
section
/-!
DEFINITION. Machine/TreadGate.lean: what a Tread does with its commands: action instants, carrier mode and commits,
refresh notches, the bypass sequence, landing programs, watchdogs and the local reactions that act on its outputs
(R259 to R262, R270 to R286, R291 to R293, R296, R306, R329, R330, R333).
-/

namespace Sys2Proof.Machine

/-! Carrier (R270). -/

/-- The active PER, in 20 ns units. -/
def Tread.per (d : Tread) : Nat := clampN 100 524287 (d.rd F.T_CAR_APER_PER)

/-- State of the carrier at hall time `h`: the active on-level, or level 0. -/
def Tread.carrierAt (d : Tread) (h : Time) : Nat :=
  let per := ns (20 * d.per)
  let x := (h + per - ns (20 * d.rd F.T_CAR_APH_PH) % per) % per
  let on := quarterNs * 40 * d.rd F.T_CAR_ADUTY_D
  if x < on ∨ per ≤ x + on then (if d.rd F.T_CAR_ADUTY_ON = 3 then 3 else 2) else 1

/-- The carrier state comes into force, outside a notch. -/
def Tread.carrierNow (d : Tread) : Tread :=
  if d.carrier && d.notchTo.isNone && d.byp.isNone then
    let st := d.carrierAt d.hall
    if d.rd F.T_SW_STAT_STATE = st ∧ !d.blocked then d.applyLegs st else d.enter st
  else d

/-- What a commit frame that has come now will commit (R272): a later write is not in it. -/
def Tread.shadow (d : Tread) : TShadow := ⟨[R.T_CAR_PER, R.T_CAR_PH, R.T_CAR_OPT, R.T_CAR_DUTY].map d.reg, d.shW⟩

/-- A shadow is written (R271): 0 PER, 1 PH, 2 OPT, 3 DUTY. -/
def Tread.shWrite (d : Tread) (n : Nat) : Tread :=
  let f := nth [F.T_SW_STAT_PER_W, F.T_SW_STAT_PH_W, F.T_SW_STAT_OPT_W, F.T_SW_STAT_DUTY_W] n F.T_SW_STAT_PER_W
  { d.wrB f true with shW := d.shW.set n (nth d.shW n 0 + 1) }

/-- A commit at the present instant (R272, R273): each shadow written since it was committed last is copied as `x` holds
it, and its flag clears unless it has been written again. -/
def Tread.commit (d : Tread) (x : TShadow) (cyc : Nat) : Tread :=
  let has (n : Nat) : Bool := decide (nth d.shC n 0 < nth x.seqs n 0)
  let val (n : Nat) : Word := nth x.vals n 0
  let d := if has 0 then d.setReg R.T_CAR_APER (val 0) else d
  let d := if has 1 then d.wr F.T_CAR_APH_PH (bits (val 1).toNat F.T_CAR_PH_PH.lo F.T_CAR_PH_PH.w % d.per) else d
  let d := if has 2 then d.setReg R.T_CAR_AOPT (val 2) else d
  let d := if has 3 then d.setReg R.T_CAR_ADUTY (val 3)
    else if has 0 then d.wr F.T_CAR_ADUTY_D (min (d.rd F.T_CAR_ADUTY_D) d.per) else d
  let partlyDone := has 0 && !has 3
  let d := { d with shC := (List.range 4).map (fun n => max (nth d.shC n 0) (nth x.seqs n 0)) }
  let left (n : Nat) : Bool := decide (nth d.shC n 0 < nth d.shW n 0)
  let d := ((d.wrB F.T_SW_STAT_PER_W (left 0)).wrB F.T_SW_STAT_PH_W (left 1)).wrB F.T_SW_STAT_OPT_W (left 2)
  let d := d.wrB F.T_SW_STAT_DUTY_W (left 3)
  ((d.wrB F.T_SW_STAT_PARTIAL partlyDone).wr F.T_SW_STAT_CMT_CYC cyc).carrierNow

/-! Bypass (R279 to R281, R292). -/

def Tread.showByp (d : Tread) (b : Bool) : Tread := (d.wrB F.T_BYP_STAT_BYPASSED b).wrB F.T_SW_STAT_BYPASSED b

/-- BYP_CONF is high: the confirmation of a running sequence (Table 6). -/
def Tread.confirm (d : Tread) : Tread :=
  match d.byp with
  | some b => if b.conf.isNone then ({ d with byp := some { b with conf := some d.hall } }).showByp true else d
  | none => d

/-- The bypass sequence starts now (Table 6). What the guard's sequence moves is a trip (R292). -/
def Tread.startBypass (d : Tread) (guard : Bool) : Tread :=
  if d.byp.isSome || d.lowAt.isSome then d
  else
    let level0 := d.rdB F.T_BYP_CFG_LEVEL0 && !d.blocked
    let d := { d with edge2 := none, defer := none, notchTo := none, carrier := false,
                      byp := some { start := d.hall, guard := guard } }
    let d := (d.wrB F.T_REFR_STAT_NOTCH false).wrB F.T_BYP_STAT_BYP true
    let d := (d.wr F.T_SW_STAT_STATE 4).wrB F.T_SW_STAT_BLOCKED false
    let stays (leg want : Nat) : Bool := match legOut leg want, d.turnOn leg with
      | some n, none => (d.out n).on
      | _, _ => false
    let l := d.legs 4
    let off (d : Tread) (leg want : Nat) : Tread := if guard && !stays leg want then d.tripLeg leg else d
    let d := (if level0 then (off (off d 0 l.1) 1 l.2).applyLegs 4 else (d.tripLeg 0).tripLeg 1).showMode
    if d.rdB F.T_BYP_STAT_CONF then d.confirm else d

/-- Table 6: 2 µs after confirmation, or 10 µs after firing: all gate outputs off. -/
def Tread.bypassGatesOff (d : Tread) : Tread :=
  match d.byp with
  | some b =>
    match b.fired, b.conf with
    | some f, _ => (((d.toHall (f + ns 10000)).tripLeg 0).tripLeg 1)
    | none, some c => (((d.toHall (c + ns 2000)).tripLeg 0).tripLeg 1)
    | none, none => d
  | none => d

/-- CONF_TO of the sequence in progress (Table 6, R292). -/
def Tread.confTo (d : Tread) (guard : Bool) : Time :=
  let c := clampN 5 100 (d.rd F.T_BYP_CFG_CONF_TO)
  ns (1000 * (if guard then min c 20 else c))

/-- CONF_TO has passed without BYP_CONF: the thyristor fires. -/
def Tread.bypassTimeout (d : Tread) : Tread :=
  match d.byp with
  | some b =>
    if b.conf.isSome || b.fired.isSome then d
    else
      let d := d.toHall (b.start + d.confTo b.guard)
      let d := { d with byp := some { b with fired := some d.hall }, thyAt := some d.hall }
      ((d.wrB F.T_BYP_STAT_THY true).showByp true).fault 0x048
  | none => d

/-- A further THY_FIRE pulse, 100 µs after the one before it, until 1 ms after confirmation (Table 6). -/
def Tread.thyPulse (d : Tread) : Tread :=
  match d.byp, d.thyAt with
  | some b, some t =>
    let d := d.toHall (t + ns 100000)
    let stop := match b.conf with | some c => decide (c + millisecond ≤ d.hall) | none => false
    if b.fired.isSome && !stop then { d with thyAt := some d.hall } else { d with thyAt := none }
  | _, _ => d

/-- The sequence of Table 6 runs. -/
def Tread.inSequence (d : Tread) : Bool :=
  match d.byp with
  | none => false
  | some b =>
    match b.conf, b.fired with
    | none, _ => true
    | some c, none => decide (d.hall < c + ns 2000)
    | some c, some _ => decide (d.hall < c + millisecond)

/-- TEST_PER of R280. -/
def Tread.testPer (d : Tread) : Time := 10 * millisecond * clampN 1 255 (d.rd F.T_BYP_CFG_TEST_PER)

/-- A test of BYP (R280): a pulse of 1 us on the ball, and the delays in ns after which BYP_RB has followed its two edges,
none for an edge that it has not followed. -/
def Tread.bypassTest (d : Tread) (rb1 rb2 : Option Nat) : Tread :=
  let due := match d.testAt with | some t => decide (t + d.testPer ≤ d.now) | none => true
  if !d.rdB F.T_BYP_CFG_TEST_EN || d.inSequence || !due then d
  else
    let ok (x : Option Nat) : Bool := match x with | some n => decide (n ≤ 500) | none => false
    let d := { d with testAt := some d.now, bypPulse := some (d.now + ns 1000) }
    if ok rb1 && ok rb2 then (d.wrB F.T_BYP_STAT_TEST_FAIL false).incWrap F.T_BYP_STAT_TESTS
    else (d.wrB F.T_BYP_STAT_TEST_FAIL true).fault 0x040

/-- A release with its key (R281, R293): the flag tells that it was accepted. -/
def Tread.release (d : Tread) : Tread × Bool :=
  if !d.byCmd || d.rdB F.T_OVG_STAT_LIVE then (d, false)
  else
    let d := { d with byp := none, thyAt := none }
    let d := ((d.wrB F.T_BYP_STAT_BYP false).wrB F.T_BYP_STAT_THY false).showByp false
    (d.trip, true)

/-! Commands (R259, R261, R262, R267, R276). -/

/-- The later edge of the latest command and a held command are discarded (R261). -/
def Tread.override (d : Tread) : Tread :=
  let d := if d.edge2.isSome then ({ d with edge2 := none }).incSat F.T_SW_CNT_OVERRIDE else d
  if d.defer.isSome then ({ d with defer := none }).incSat F.T_SW_CNT_OVERRIDE else d

/-- Table 2: the permitted combinations of MODE and STATE, for a half-bridge without those of R259. -/
def permitted (full : Bool) (mode state : Nat) : Bool :=
  if mode = 0 then state ≤ 4 && (full || state != 3)
  else if mode = 1 then state == 2 || (full && state == 1)
  else if mode = 2 then state == 2 || (full && state == 3)
  else mode == 3 && state == 1

/-- The level one below a STATE. -/
def belowState (state : Nat) : Nat := if state = 2 then 1 else 3

/-- A refresh notch begins now (R276, R277). -/
def Tread.startNotch (d : Tread) (upTo : Time) : Tread :=
  let d := { d with notchTo := some upTo }
  let d := (((d.wrB F.T_REFR_STAT_NOTCH true).incWrap F.T_REFR_STAT_NOTCHES).ev 7)
  (d.applyLegs 5).showMode

/-- A refresh grant at its action instant: the cell is at level 0, in the notch until A + NOTCH when a request is set and
that instant is to come (R276). -/
def Tread.grant (d : Tread) (a : Time) : Tread :=
  if d.rdB F.T_REFR_STAT_REQ && decide (d.hall < a + d.notch) then
    let d := d.leave
    ((d.wr F.T_SW_STAT_STATE 1).wrB F.T_SW_STAT_BLOCKED false).startNotch (a + d.notch)
  else d.enter 1

/-- The cell is at level 0 during a notch: the outputs stay as the notch has them. -/
def Tread.inNotch (d : Tread) : Tread := (d.wr F.T_SW_STAT_STATE 1).showMode

/-- The Tread's core runs no firmware that acts on carriages (R299), or a cause of R267 is set. -/
def Tread.onlyBlock (d : Tread) : Bool := !d.rdB F.T_STAT_BOOTED || d.mustBlock

/-- A command of a running cell outside the bypass, in the order of Table 2. -/
def Tread.execute (d : Tread) (c : TCmd) : Tread :=
    let blk := d.onlyBlock
    let state := if blk then 0 else c.state
    let mode := if blk then 0 else c.mode
    if !permitted d.full mode state then
      ({ (d.incSat F.T_SW_CNT_BADCMD).fault 0x050 with byCmd := false }).trip
    else if mode = 0 ∧ state = 0 then ({ d with byCmd := true }).trip
    else if mode = 0 ∧ state = 4 then ({ d with byCmd := false }).startBypass false
    else if d.notchTo.isSome && !(d.carrier && mode == 2) then
      -- a notch lasts: what would leave level 0 waits for its end (R276)
      let d := { d with byCmd := false, carrier := false }
      if (state == 1 && (mode == 0 || mode == 3)) || (mode == 1 && c.duty == 0 && state == 2) then d.inNotch
      else (({ d with defer := some { c with commit := none } }).incSat F.T_SW_CNT_OVERRIDE).inNotch
    else
      let d := { d with byCmd := false, carrier := mode == 2 }
      if mode = 2 then (if d.notchTo.isSome then d else d.enter (d.carrierAt d.hall)).showMode
      else if mode = 3 then (d.grant c.a).showMode
      else if mode = 1 then
        let t2 := c.a + c.duty * quarterNs
        if c.duty = 0 ∨ t2 ≤ d.hall then d.enter (belowState state)
        else (({ d with edge2 := some (t2, belowState state) }).enter state).showMode
      else d.enter state

/-- A command is executed now. -/
def Tread.command (d : Tread) (c : TCmd) : Tread :=
  let d := match c.commit with | some x => d.commit x c.cyc | none => d
  if !c.run then d
  else if d.byp.isSome then (if c.state = 0 then { d with byCmd := true } else d)
  else d.override.counting (fun d => d.execute c)

/-- The action instant of the oldest waiting command (R259). -/
def Tread.actionInstant (d : Tread) : Tread :=
  match d.cmds with
  | [] => d
  | c :: r => (({ d with cmds := r }).toHall c.a).command c

/-- The later edge of a dither pulse or of a landing entry. -/
def Tread.secondEdge (d : Tread) : Tread :=
  match d.edge2 with
  | none => d
  | some (t, lv) =>
    let d := ({ d with edge2 := none }).toHall t
    d.enter lv

/-- A carrier edge (R270). -/
def Tread.carrierEdge (d : Tread) (h : Time) : Tread := (d.toHall h).carrierNow

/-! Refresh (R275 to R277). -/

/-- A high-side timer reaches INTERVAL: on-time of GA_HI (leg 0) or GB_HI (leg 1). -/
def Tread.refreshRequest (d : Tread) (leg : Nat) : Tread :=
  let o := d.out (2 * leg)
  if o.on then
    let d := d.toHall (o.hsOn + (d.interval - o.hsAcc))
    ({ d with reqAt := d.reqAt.orElse (fun _ => some d.hall) }).wrB F.T_REFR_STAT_REQ true
  else d

/-- The end of a notch (R276, R277): the held command follows. -/
def Tread.notchEnd (d : Tread) : Tread :=
  match d.notchTo with
  | none => d
  | some t =>
    let d := d.toHall t
    let d := ({ d with notchTo := none, refrEnd := some t, reqAt := none }).wrB F.T_REFR_STAT_NOTCH false
    match d.defer with
    | some c => ({ d with defer := none }).command c
    | none => if d.carrier then d.carrierNow.showMode else (d.applyLegs (d.rd F.T_SW_STAT_STATE)).showMode

/-- The first period start of the carrier at hall time `h` or later (R270). -/
def Tread.periodStart (d : Tread) (h : Time) : Time :=
  let per := ns (20 * d.per)
  let ph := ns (20 * d.rd F.T_CAR_APH_PH) % per
  ceilDiv (h - ph) per * per + ph

/-- Carrier mode makes its own notch around the first period start that lies at least NOTCH / 2 after the timer expired
(R277). -/
def Tread.carrierNotch (d : Tread) : Tread :=
  match d.reqAt with
  | none => d
  | some t =>
    if d.carrier && d.rdB F.T_REFR_STAT_REQ && d.notchTo.isNone && d.byp.isNone then
      let p := d.periodStart (max t (d.hall - d.notch) + d.notch / 2)
      (d.toHall (p - d.notch / 2)).startNotch (p + d.notch / 2)
    else d

/-! Landing (R282 to R287). -/

/-- The entry held for cycle `c`. -/
def Tread.landEntry (d : Tread) (c : Nat) : Option Word :=
  match Store.get d.land none (c % 64) with
  | some (k, w) => if k = c then some w else none
  | none => none

/-- `T_LAND_VAL` and HELD: LDEPTH of R287 from cycle `k` + 1. -/
def Tread.heldFrom (fuel : Nat) (d : Tread) (c : Nat) : Nat :=
  match fuel with
  | 0 => 0
  | f + 1 => if (d.landEntry c).isSome then 1 + Tread.heldFrom f d ((c + 1) % 2 ^ 32) else 0

def Tread.depth (d : Tread) : Nat := min 64 (d.rd F.T_LAND_CFG_DEPTH)

/-- LDEPTH of the uplink of frame `k` (R287). -/
def Tread.heldAfter (d : Tread) (k : Nat) : Nat := min d.depth (d.heldFrom 64 ((k + 1) % 2 ^ 32))

def Tread.showLand (d : Tread) (k : Nat) : Tread :=
  let has (n : Nat) : Bool := (Store.get d.land none n).isSome
  let d := d.setReg R.T_LAND_VAL0 (BitVec.ofNat 32 (ofBits ((List.range 32).filter has)))
  let d := d.setReg R.T_LAND_VAL1 (BitVec.ofNat 32 (ofBits ((List.range 32).filter (fun n => has (32 + n)))))
  d.wr F.T_LAND_STAT_HELD (d.heldAfter k)

/-- The cycle that contains the Tread's present hall time, from its last valid frame (R283). -/
def Tread.nowCyc (d : Tread) : Option Nat :=
  match d.k0 with
  | none => none
  | some (k, t) => some ((k + (d.hall - t) / max 1 d.cycT) % 2 ^ 32)

/-- Entries of cycles before `k` are discarded (R283). -/
def Tread.dropLand (d : Tread) (k : Nat) : Tread :=
  let old (p : Nat × Option (Nat × Word)) : Bool := match p.2 with | some (c, _) => serialLt c k | none => true
  let d := (d.land.filter old).foldl (fun d p => d.setReg (R.T_LAND_TBL p.1) 0) d
  ({ d with land := d.land.filter (fun p => !old p) }).showLand k

/-- Entries whose cycle has ended by now are discarded (R283). -/
def Tread.ageLand (d : Tread) : Tread := match d.nowCyc with | some k => d.dropLand k | none => d

/-- The chunk of valid frame `k` (R282, R283). -/
def Tread.landStore (d : Tread) (k : Nat) (chunk : Word) (lidx : Nat) : Tread :=
  let low := bits chunk.toNat 26 6 * 64 + lidx % 64
  let base := k + 2 ^ 32 - 2047
  let c := (base + (low + 4096 - base % 4096) % 4096) % 2 ^ 32
  let dist := (c + 2 ^ 32 - k) % 2 ^ 32
  if lidx / 64 = 0 ∧ 1 ≤ dist ∧ dist ≤ 64 then
    (({ d with land := Store.put d.land none (c % 64) (some (c, chunk)) }).setReg (R.T_LAND_TBL (c % 64)) chunk).showLand k
  else d.incSat F.T_LAND_STAT_IGNORED

/-- The landing action base of cycle `c` (R283). -/
def Tread.landBase (d : Tread) (c : Nat) : Option Time :=
  match d.k0 with
  | none => none
  | some (k0, t0) => some (t0 + (c + 2 ^ 32 - k0) % 2 ^ 32 * d.cycT + ns (230 + 250 * min 6 (d.rd F.T_LAND_CFG_LEAD_J)))

/-- STATE of a landing level: 0b10 and level -1 of a half-bridge are a block. -/
def Tread.landState (d : Tread) (l : Nat) : Nat :=
  if l = 0 then 1 else if l = 1 then 2 else if l = 3 ∧ d.full then 3 else 0

/-- A block at the end of landing (R285). -/
def Tread.landBlock (d : Tread) : Tread :=
  if d.blocked || d.byp.isSome then d else ({ d.fault 0x060 with byCmd := false }).trip

/-- The servo holds while no valid frame comes (R241). -/
def Tread.holdServo (d : Tread) : Tread := ({ d with rhoP := 0 }).wrB F.T_HT_STAT_HOLD true

/-- The landing action base of cycle `c` arrives (R274, R283 to R285). -/
def Tread.landingBase (d : Tread) (c : Nat) : Tread :=
  match d.k0, d.landBase c with
  | some (k0, _), some b =>
    let n := (c + 2 ^ 32 - k0) % 2 ^ 32
    if n = 0 ∨ 2 ^ 31 ≤ n then d
    else
      let d := (d.toHall b).holdServo
      if !d.rdB F.T_LAND_STAT_ARMED then d.dropLand c
      else
        let e := d.landEntry c
        let d := d.dropLand c
        if d.depth < n then d.landBlock
        else if d.carrier || d.byp.isSome || d.blocked then d
        else
          match e with
          | none => d.landBlock
          | some w =>
            let l0 := d.landState (bits w.toNat 0 2)
            let l1 := d.landState (bits w.toNat 2 2)
            if l0 = 0 ∨ l1 = 0 ∨ d.onlyBlock then d.landBlock
            else
              let d := if d.rdB F.T_LAND_STAT_PLAYING then d else d.wr F.T_LAND_STAT_PLAYED 0
              let d := ((d.wrB F.T_LAND_STAT_PLAYING true).wrB F.T_SW_STAT_LANDING true).ev 12
              let d := d.incSat F.T_LAND_STAT_PLAYED
              let q := b + bits w.toNat 4 12 * 40 * clampN 100 2000 (d.rd F.T_SW_TCYC_LEN) / 4096 * quarterNs
              d.override.counting (fun d => (if l0 = l1 then d else { d with edge2 := some (q, l1) }).enter l0)
  | _, _ => d

/-- Landing ends at the first valid frame (R286). -/
def Tread.endLanding (d : Tread) : Tread := (d.wrB F.T_LAND_STAT_PLAYING false).wrB F.T_SW_STAT_LANDING false

/-! Watchdogs (R329, R330). -/

def Tread.frameLoss (d : Tread) : Tread :=
  match d.k0 with
  | none => d
  | some (k0, _) =>
    if d.lost then d
    else
      let d := match d.landBase ((k0 + 3) % 2 ^ 32) with | some b => d.toHall b | none => d
      let d := ({ d with lost := true }).fault 0x058
      if d.rdB F.T_LAND_STAT_ARMED || d.byp.isSome then d else ({ d with byCmd := false }).trip

/-- The guard island's watchdog fires when its time has run out at local instant `t`. -/
def Tread.guardWatchdog (d : Tread) (t : Time) : Tread :=
  let n := if d.rdB F.T_LAND_STAT_ARMED then d.depth + 1 else 3
  let lim := ns (11 * n * clampN 100 2000 (d.rd F.T_SW_TCYC_LEN) + 5000)
  let d := d.advance t
  if d.validAt + lim ≤ d.now then ({ d with byCmd := false }).trip else d

/-! Guard, desat, supply (R291 to R296, R306). -/

/-- `T_OVG_STAT` as the threshold stands (R291). -/
def Tread.showOvg (d : Tread) : Tread :=
  let v := d.vOv / 1000
  let lim := d.rd F.T_OVG_CFG_LIM
  (d.wr F.T_OVG_STAT_STRAP v).wr F.T_OVG_STAT_THR (if lim = 0 then v else min v (clampN 1000 2480 lim))

/-- A measurement of OV_SET in µV: the first arms the guard (R291). One outside the range counts as 2.250 V; a later one
that departs from the arming value holds V_OV at the lower of the two. Each start of a fault forwards its code (R307). -/
def Tread.ovSet (d : Tread) (uv : Nat) : Tread :=
  let bad := decide (uv < 1000000) || decide (2480000 < uv)
  let v := if bad then 2250000 else uv
  let first := d.ovArm == 0
  let diff := if uv < d.ovArm then d.ovArm - uv else uv - d.ovArm
  let away := !first && decide (d.ovArm < 50 * diff)
  let d := if first then { d with vOv := v, ovArm := v }
    else if d.ovHeld then d
    else if away then { d with vOv := min v d.ovArm, ovHeld := true }
    else if bad then { d with vOv := v }
    else { d with vOv := d.ovArm }
  let was := d.ovBad
  let d := { d with ovBad := bad || away }
  let d := if d.ovBad then d.wrB F.T_OVG_STAT_STRAP_FAULT true else d
  (if d.ovBad && !was then d.fault 0x018 else d).showOvg

/-- The guard trips (R292, R293): each start of its condition forwards the code (R307). -/
def Tread.guardTrip (d : Tread) : Tread :=
  if !d.rdB F.T_OVG_STAT_ARMED then d
  else
    let was := d.ovOn
    let d := ({ d with ovOn := true }).wrB F.T_PROT_STAT_OV_TRIP true
    let d := if was then d else (d.fault 0x010).ev 8
    (d.wrB F.T_OVG_STAT_LIVE true).startBypass true

/-- The cell is blocked by a trip of one leg: nothing of an earlier command acts any more, and the other leg stays as it is
until a command (R266, R267). -/
def Tread.blockedByLeg (d : Tread) : Tread :=
  let d := ({ d with edge2 := none, defer := none, notchTo := none, carrier := false, byCmd := false }).wrB F.T_REFR_STAT_NOTCH false
  if d.byp.isSome then d.showMode else ((d.wr F.T_SW_STAT_STATE 0).wrB F.T_SW_STAT_BLOCKED true).showMode

/-- A desat or gate fault on input `n` (Table 6 row 1): its leg alone trips, and its latch blocks the cell (R267). -/
def Tread.desat (d : Tread) (n : Nat) : Tread :=
  let was := bitOf d.fltOn n
  let d := { d with fltOn := d.fltOn ||| 2 ^ n, fltIn := d.fltIn ||| 2 ^ n }
  let d := if was then d else (d.fault (0x001 + n)).ev 9
  ((d.setBit F.T_PROT_STAT_DESAT n true).tripLeg (n / 2)).blockedByLeg

/-- SUPOK has stayed low for 1 ms (R296). -/
def Tread.supokLoss (d : Tread) : Tread :=
  let d := ({ d with supSince := none }).wrB F.T_STAT_SUPOK false
  if d.rdB F.T_STAT_LOWP || bitOf (d.rd F.T_PROT_STAT_LIVE) 5 then d
  else ({ (d.setBit F.T_PROT_STAT_LIVE 5 true).fault 0x032 with byCmd := false }).trip

/-- A write of `T_FLT_CLR` (R333): the flag tells that every requested bit cleared. -/
def Tread.fltClr (d : Tread) (v : Nat) : Tread × Bool :=
  if bits v 16 8 ≠ 0x3C then (d, false)
  else
    let g := bitList (d.rd F.T_GFB_STAT_LATCH &&& bits v 0 4) 4
    let x := bitList (d.rd F.T_PROT_STAT_DESAT &&& bits v 4 4) 4
    let gBad := g.filter (bitOf (d.rd F.T_GFB_STAT_LIVE))
    let xBad := x.filter (bitOf d.fltIn)
    let o := bitOf v 8 && d.rdB F.T_PROT_STAT_OV_TRIP
    let oBad := o && d.rdB F.T_OVG_STAT_LIVE
    let d := (g.filter (fun n => !bitOf (d.rd F.T_GFB_STAT_LIVE) n)).foldl (fun d n => d.setBit F.T_GFB_STAT_LATCH n false) d
    let d := (x.filter (fun n => !bitOf d.fltIn n)).foldl (fun d n => d.setBit F.T_PROT_STAT_DESAT n false) d
    let d := if o && !oBad then d.wrB F.T_PROT_STAT_OV_TRIP false else d
    let refused := gBad.length + xBad.length + b2n oBad
    (d.incSat F.T_FLT_STAT_REFUSED refused, refused == 0)

end Sys2Proof.Machine
end

