-- ==== Sys2Proof/Machine/TreadAdc.lean ====
section
/-!
DEFINITION. Machine/TreadAdc.lean: a Tread's conversions and their detectors, its start-up, firmware slots and
scheduler (R290, R294, R295, R297 to R306, R308, R309, R313, R523).
-/

namespace Sys2Proof.Machine

/-! Conversions (R301 to R303). -/

/-- Round a ratio to the nearest, a tie to even. -/
def roundRatio (num : Int) (den : Nat) : Int := roundEven num den

/-- Code and flags of a trimmed value `num / den` (R302). -/
def adcCode (num : Int) (den : Nat) (ovf : Bool) : Nat × Bool × Bool :=
  let e : Int := (den : Nat)
  if ovf || decide (32767 * e < 2 * num) then (0x3FFF, true, false)
  else if 2 * num < -e then (0, false, true)
  else ((min 0x3FFF (roundRatio num den)).toNat, false, false)

/-- The result of input `n` is kept (`T_ADC_RESn`). -/
def Tread.putRes (d : Tread) (n : Nat) (r : Nat × Bool × Bool) : Tread :=
  let d := ((d.wr (F.T_ADC_RES_CODE n) r.1).wrB (F.T_ADC_RES_OVR n) r.2.1).wrB (F.T_ADC_RES_UNDER n) r.2.2
  let d := d.incWrap (F.T_ADC_RES_COUNT n)
  if r.2.1 then d.ev 14 else d

def Tread.res (d : Tread) (n : Nat) : Nat := d.rd (F.T_ADC_RES_CODE n)

/-- Conversions in the average (R303). -/
def Tread.vavg (d : Tread) : Nat := let v := d.rd F.T_ADC_CFG_VAVG; if v = 0 then 1 else if v = 1 then 2 else 4

/-- The average of the N latest conversions at or before hall time `h` (R303); with fewer than N its value is open (log
entry 51), and before the first it is the reset value of `T_ADC_VCAP`. -/
def Tread.vcapAvg (d : Tread) (h : Time) : Nat × Bool :=
  let l := ((d.vcaps.filter (fun x => x.1 ≤ h)).take d.vavg).map Prod.snd
  if l.isEmpty then (0, false)
  else if l.any Prod.snd then (0x3FFF, true)
  else if l.length < d.vavg then (Config.vcapShort (l.map Prod.fst) % 2 ^ 14, false)
  else ((roundRatio ((l.map Prod.fst).sum : Nat) l.length).toNat, false)

/-! Detectors (Table 6 of spec/09). -/

/-- Detector `b` (bit of `T_PROT_STAT.LIVE`) sees a bad or a good conversion: it starts after `nBad` bad ones in a row
with its code, and ends after `nGood` good ones; `blk`: its reaction blocks the cell. -/
def Tread.detector (d : Tread) (b code nBad nGood : Nat) (bad good blk : Bool) : Tread :=
  let nb := if bad then min nBad (Store.get d.cntBad 0 b + 1) else 0
  let ng := if good then min nGood (Store.get d.cntGood 0 b + 1) else 0
  let d := { d with cntBad := Store.put d.cntBad 0 b nb, cntGood := Store.put d.cntGood 0 b ng }
  let live := bitOf (d.rd F.T_PROT_STAT_LIVE) b
  if !live && nBad ≤ nb then
    let d := (d.setBit F.T_PROT_STAT_LIVE b true).fault code
    if blk then ({ d with byCmd := false }).trip else d
  else if live && nGood ≤ ng then d.setBit F.T_PROT_STAT_LIVE b false
  else d

/-- NTC points in table order: code and temperature. -/
def Tread.ntc (d : Tread) : List (Nat × Int) :=
  (List.range 8).map (fun n => (d.rd (F.T_NTC_TBL_CODE n), d.rdI (F.T_NTC_TBL_TEMP n)))

def risingCodes (l : List (Nat × Int)) : Bool :=
  match l with
  | a :: b :: r => decide (a.1 < b.1) && risingCodes (b :: r)
  | _ => true

/-- Linear interpolation in rising points, rounded half up. -/
def interpolate (l : List (Nat × Int)) (x : Nat) : Int :=
  match l with
  | [] => 127
  | [a] => a.2
  | a :: b :: r =>
    if x ≤ a.1 then a.2
    else if x ≤ b.1 then
      let n : Int := a.2 * (b.1 - a.1 : Nat) + (b.2 - a.2) * (x - a.1 : Nat)
      (2 * n + (b.1 - a.1 : Nat)) / (2 * (b.1 - a.1 : Nat))
    else interpolate (b :: r) x

/-- TEMP (R305). -/
def Tread.temp (d : Tread) : Int :=
  let l := d.ntc
  if risingCodes l then clampI (-128) 127 (interpolate l (d.res 1))
  else if risingCodes l.reverse then clampI (-128) 127 (interpolate l.reverse (d.res 1))
  else 127

/-- A supply below its minimum in 100 mV units; 25.0 V is full scale. -/
def supplyLow (code lim : Nat) : Bool := decide (code * 250 < lim * 16384)

/-- The detectors of a converted input (Table 6 rows 4 to 8). -/
def Tread.detect (d : Tread) (n : Nat) : Tread :=
  let hys : Int := d.rd F.T_PROT_TEMP_HYS
  if n = 1 then
    let t := d.temp
    let hi : Int := d.rd F.T_PROT_TEMP_HS_HI
    d.detector 0 0x028 4 1 (decide (hi < t)) (decide (t ≤ hi - hys)) true
  else if n = 2 then
    let t : Int := (d.res 2 : Nat) - 4000
    let hi : Int := d.rd F.T_PROT_TEMP_DIE_HI
    d.detector 1 0x029 4 1 (decide (80 * hi < t)) (decide (t ≤ 80 * (hi - hys))) true
  else if n = 3 then let b := supplyLow (d.res 3) (d.rd F.T_PROT_SUP_VGD_MIN); d.detector 2 0x030 2 2 b (!b) true
  else if n = 4 then let b := supplyLow (d.res 4) (d.rd F.T_PROT_SUP_VHS_MIN); d.detector 3 0x031 2 2 b (!b) true
  else if n = 5 then let b := supplyLow (d.res 5) (d.rd F.T_PROT_SUP_VAUX_MIN); d.detector 4 0x038 2 2 b (!b) false
  else d

/-- The slot of the sequencer: its input when it is enabled and does not name input 0 (R301). -/
def Tread.seqSlot (d : Tread) (i : Nat) : Option Nat :=
  let w := if i < 8 then bits (d.reg R.T_ADC_SEQ0).toNat (4 * i) 4 else bits (d.reg R.T_ADC_SEQ1).toNat (4 * (i - 8)) 4
  if w ≥ 8 ∧ w % 8 ≠ 0 then some (w % 8) else none

/-- The next slot to convert, from `p` on. -/
def Tread.nextSlot (fuel : Nat) (d : Tread) (p : Nat) : Option (Nat × Nat) :=
  match fuel with
  | 0 => none
  | f + 1 => match d.seqSlot (p % 16) with
    | some n => some (p % 16, n)
    | none => Tread.nextSlot f d (p + 1)

/-- The pins as they stand (log entry 52): SUPOK that returns ends row 10; the others are kept for R281, R293, R333. -/
def Tread.pins (d : Tread) (p : TPins) : Tread :=
  let d := { d with fltIn := p.flt.toNat, fltOn := d.fltOn &&& p.flt.toNat, ovOn := d.ovOn && p.ov, supSince := if p.supok then (d.supSince.orElse fun _ => some d.now) else none }
  let d := (d.wrB F.T_STAT_SUPOK p.supok).wrB F.T_OVG_STAT_LIVE p.ov
  let d := if p.supok then d.setBit F.T_PROT_STAT_LIVE 5 false else d
  d.wrB F.T_BYP_STAT_CONF p.conf

/-- The first sampling instant at hall time `h` or later, whether it converts a sequencer slot, and whether a VCAP window
ends at it (R301, R303). At full rate the instants lie 500 ns apart before s of a grid point of T, in low-power mode at
the multiples of 10 us. -/
def Tread.sampling (d : Tread) (h : Time) : Time × Bool × Bool :=
  if d.rdB F.T_STAT_LOWP then
    let j := ceilDiv h (ns 10000)
    (j * ns 10000, j % 2 == 1, j % 2 == 0)
  else
    let s := ceilDiv (h + ns 200) d.cycT * d.cycT - ns 200
    let m := min ((s - h) / ns 500) (d.cycT / ns 500 - 1)
    (s - m * ns 500, m % 2 == 1, m == 0)

/-- The frame whose s is the first at hall time `h` or later, from the Tread's last valid frame. -/
def Tread.frameOf (d : Tread) (h : Time) : Nat :=
  match d.k0 with
  | none => ceilDiv (h + ns 200) d.cycT
  | some (k, t) =>
    let j0 := (t + d.cycT / 2) / d.cycT
    k + ceilDiv (h + ns 200) d.cycT + 2 ^ 32 - j0

/-- The average of frame `k`, whose window ends at hall time `h`, and its detector, row 9 of Table 6 of spec/09. -/
def Tread.showVcap (d : Tread) (k : Nat) (h : Time) : Tread :=
  let v := d.vcapAvg h
  let d := ((d.wr F.T_ADC_VCAP_CODE v.1).wrB F.T_ADC_VCAP_OVR v.2).wr F.T_ADC_VCAP_CYC k
  let hi := d.rd F.T_PROT_VCAP_HI
  let high := hi != 0 && decide (hi < v.1)
  d.detector 6 0x020 2 1 high (!high) false

/-- A conversion (R301 to R306) of a trimmed value `num / den`, at the next sampling instant of the Tread. -/
def Tread.convert (d : Tread) (num : Int) (den : Nat) (ovf : Bool) (p : TPins) : Tread :=
  let x := d.sampling d.hall
  let d := (d.toHall x.1).pins p
  let r := adcCode num den ovf
  if x.2.1 then
    if !d.rdB F.T_ADC_CFG_SEQ_EN then d
    else
      match d.nextSlot 16 d.seqPos with
      | none => d
      | some (i, n) => (({ d with seqPos := (i + 1) % 16 }).putRes n r).detect n
  else
    let d := { d.putRes 0 r with vcaps := ((x.1, r.1, r.2.1) :: d.vcaps).take 16 }
    if x.2.2 then d.showVcap (d.frameOf x.1) x.1 else d

/-! Readiness for full rate (R295). -/

def Tread.ready (d : Tread) : Bool :=
  let held := match d.supSince with
    | some t => decide (t + millisecond * clampN 1 255 (d.rd F.T_PROT_SUP_SUPOK_HOLD) ≤ d.now)
    | none => false
  let ok (n lim : Nat) : Bool := !supplyLow (d.res n) lim
  let clk := if d.rdB F.T_LN_STAT_CLKPORT then d.rdB F.T_LN_STAT_FLOCK else d.rdB F.T_LN_STAT_NLOCK
  d.rdB F.T_STAT_BOOTED && held && ok 3 (d.rd F.T_PROT_SUP_VGD_MIN) && ok 4 (d.rd F.T_PROT_SUP_VHS_MIN) &&
    ok 5 (d.rd F.T_PROT_SUP_VAUX_MIN) && d.rd F.T_PROT_STAT_LIVE == 0 && d.rd F.T_PROT_STAT_DESAT == 0 &&
    !d.rdB F.T_PROT_STAT_OV_TRIP && !d.rdB F.T_GFB_STAT_LATCH && !d.rdB F.T_BYP_STAT_TEST_FAIL && !d.lost && clk

/-! Firmware slots (R297 to R300, R515). -/

/-- First MRAM address of a slot: A 0, B 1. -/
def slotBase (b : Nat) : Nat := b * 0x28000

/-- The check of a slot under R297, in the order of RESULT (log entry 53): 0 valid, 1 header, 2 key hash, 3 signature,
4 security version; and its version. -/
def Tread.checkSlot (d : Tread) (b : Nat) : Nat × Nat :=
  let at_ (o n : Nat) : Nat := readBytes d.mram (slotBase b + o) n
  let part (o n : Nat) : List Byte := byteList d.mram (slotBase b + o) n
  let ver := at_ 8 2
  let len := at_ 4 4
  let r := if at_ 0 4 ≠ 0x32545841 ∨ len % 8 ≠ 0 ∨ 163328 < len ∨ ver = 0 then 1
    else
      let key := part 0x10 97
      if sha384 key ≠ d.fuseKey then 2
      else if !sec1Verify key (part 0x80 96) (sha384 (part 0 0x80 ++ part 0x200 len)) then 3
      else if at_ 10 1 < d.rd F.T_FW_STAT_FUSE_SVN then 4 else 0
  (r, ver)

/-- The boot record takes a check of slot `b`. -/
def Tread.record (d : Tread) (b : Nat) (r : Nat × Nat) : Tread :=
  let v := if r.1 = 0 then r.2 else 0
  if b = 0 then (d.wrB F.T_FW_STAT_VA (r.1 == 0)).wr F.T_FW_VER_VER_A v
  else (d.wrB F.T_FW_STAT_VB (r.1 == 0)).wr F.T_FW_VER_VER_B v

/-- The boot decision (R298). -/
def Tread.bootDecision (d : Tread) : Tread :=
  if !d.powered then d
  else
    let ra := d.checkSlot 0
    let rb := d.checkSlot 1
    let d := (d.record 0 ra).record 1 rb
    let act := d.rd F.T_FW_STAT_ACT
    let ok (b : Nat) : Bool := if b = 0 then ra.1 == 0 else rb.1 == 0
    if ok act then (d.wrB F.T_STAT_BOOTED true).wrB F.T_STAT_SELFKEEP false
    else if ok (1 - act) then
      (((d.wr F.T_FW_STAT_ACT (1 - act)).wrB F.T_STAT_BOOTED true).wrB F.T_STAT_SELFKEEP false).fault 0x070
    else (d.wrB F.T_STAT_BOOTED false).wrB F.T_STAT_SELFKEEP true

/-- A FWBLK write: the flag tells that the Tread could act (R300). -/
def Tread.fwblk (d : Tread) (blk data : Nat) : Tread × Bool :=
  let d := d.wrB F.T_FW_STAT_VRES false
  if 20480 ≤ blk then (d, false)
  else ({ d with mram := writeBytes d.mram (slotBase (1 - d.rd F.T_FW_STAT_ACT) + 8 * blk) 8 data }, true)

def Tread.verify (d : Tread) : Tread := d.wrB F.T_FW_STAT_BUSY true

def Tread.verifyDone (d : Tread) : Tread :=
  if !d.rdB F.T_FW_STAT_BUSY then d
  else
    let b := 1 - d.rd F.T_FW_STAT_ACT
    let r := d.checkSlot b
    let d := (d.record b r).wrB F.T_FW_STAT_BUSY false
    (d.wrB F.T_FW_STAT_VRES true).wr F.T_FW_STAT_RESULT r.1

/-- A SWITCH with its key (R300, R515): the flag tells that it was accepted. -/
def Tread.fwSwitch (d : Tread) : Tread × Bool :=
  if (d.blocked || d.bypassed) && d.rdB F.T_FW_STAT_VRES && d.rd F.T_FW_STAT_RESULT == 0 then
    let d := (d.wr F.T_FW_STAT_ACT (1 - d.rd F.T_FW_STAT_ACT)).wrB F.T_FW_CTRL_UPD_EN false
    let d := (d.wrB F.T_STAT_BOOTED true).wrB F.T_STAT_SELFKEEP false
    let d := { d with threads := [], running := none }
    ((d.setReg R.T_SCH_STAT (treadReset R.T_SCH_STAT)).setReg R.T_SCH_ARG 0, true)
  else (d, false)

/-! Supply (R290, R523). -/

/-- Registers of the Tread that its reset does not touch: fuses, straps, PW registers and words, wear, boot record. -/
def treadKept (off : Nat) : Bool :=
  off == R.T_ID_UIDL || off == R.T_ID_UIDH || off == R.T_DIGEST || treadPwRegs.contains off ||
    (0x800 ≤ off && off < 0xC14) || off == R.T_FW_VER

/-- A Tread in reset: what it keeps is what MRAM and fuses hold. -/
def Tread.cleared (d : Tread) : Tread :=
  let e : Tread := { regs := d.regs.filter (fun p => treadKept p.1), mram := d.mram, fuseKey := d.fuseKey, now := d.now, bootAt := d.now,
                     freeCtr := d.freeCtr }
  let e := (e.wr F.T_ID_INFO_BTYPE (d.rd F.T_ID_INFO_BTYPE)).wr F.T_FW_STAT_ACT (d.rd F.T_FW_STAT_ACT)
  let e := (e.wr F.T_FW_STAT_VA (d.rd F.T_FW_STAT_VA)).wr F.T_FW_STAT_VB (d.rd F.T_FW_STAT_VB)
  e.wr F.T_FW_STAT_FUSE_SVN (d.rd F.T_FW_STAT_FUSE_SVN)

/-- Supply good: self-keep, with the guard armed at the measured threshold and the bridge type of the strap (R290, R291);
the lane ports, which have no lock, are on (R185). -/
def Tread.supplyGood (d : Tread) (full : Bool) (uv : Nat) : Tread :=
  let d := ({ d.cleared with powered := true, testAt := none }).wr F.T_ID_INFO_BTYPE (b2n full)
  (((d.wrB F.T_OVG_STAT_ARMED true).ovSet uv)).showIdle

/-- VDD33 falls below the falling threshold, or to V_MIN: the gate outputs, BYP and THY_FIRE go low; at V_MIN the Tread is
reset (R523). -/
def Tread.supplyFall (vmin : Bool) (d : Tread) : Tread :=
  if vmin then d.cleared
  else if d.lowAt.isSome then d
  else
    let d := ({ d with byp := none, testAt := none, lowAt := some d.now }).trip
    (d.wrB F.T_BYP_STAT_BYP false).wrB F.T_BYP_STAT_THY false

/-- An event reaches a Tread: 10 µs after the falling threshold its supply monitor has reset it (R523). -/
def Tread.supplied (d : Tread) (f : Tread → Tread) : Tread :=
  match d.lowAt with
  | some t => if t + ns 10000 ≤ d.now then d.cleared else f d
  | none => f d

/-! Scheduler (R308, R309, Table 7). -/

/-- `T_SCH_TICK`: microseconds since reset. -/
def Tread.tickNow (d : Tread) : Nat := (d.now - d.bootAt) / ns 1000 % 2 ^ 32

def Tread.thr (d : Tread) (t : Nat) : TThread := Store.get d.threads {} t
def Tread.setThr (d : Tread) (t : Nat) (x : TThread) : Tread := { d with threads := Store.put d.threads {} t x }

/-- The ready thread of highest priority, lower number first. -/
def Tread.bestThread (d : Tread) : Option Nat :=
  (List.range 16).foldl (fun b t =>
    if (d.thr t).st ≠ 1 then b
    else match b with
      | none => some t
      | some u => if (d.thr u).prio < (d.thr t).prio then some t else b) none

/-- The core runs the best ready thread; one of the running thread's own priority takes over by number. -/
def Tread.dispatch (d : Tread) : Tread :=
  let d := { d with running := d.bestThread }
  let d := d.wr F.T_SCH_STAT_READY (ofBits ((List.range 16).filter (fun t => (d.thr t).st == 1)))
  match d.running with
  | none => d.wrB F.T_SCH_STAT_IDLE true
  | some t => ((d.wr F.T_SCH_STAT_RUN t).wrB F.T_SCH_STAT_IDLE false).wrB F.T_SCH_STAT_TIMEOUT (d.thr t).tout

def Tread.schReady (d : Tread) (t : Nat) : Tread :=
  let x := d.thr t
  if x.st = 1 ∧ x.tout ∧ x.toutAt = d.tickNow then (d.setThr t { x with tout := false }).dispatch
  else if x.st = 2 then (d.setThr t { x with st := 1, wake := none, tout := false }).dispatch
  else if x.st = 0 then (d.setThr t { x with st := 1, wake := none }).dispatch
  else d

def Tread.schWait (d : Tread) : Tread :=
  match d.running with
  | none => d
  | some t =>
    let a := d.rd F.T_SCH_ARG_TICKS
    (d.setThr t { d.thr t with st := 2, wake := if a = 0 then none else some ((d.tickNow + a) % 2 ^ 32) }).dispatch

def Tread.schSleep (d : Tread) : Tread :=
  match d.running with
  | none => d
  | some t =>
    let a := clampN 1 (2 ^ 31 - 1) (d.rd F.T_SCH_ARG_TICKS)
    (d.setThr t { d.thr t with st := 3, wake := some ((d.tickNow + a) % 2 ^ 32) }).dispatch

def Tread.schPrio (d : Tread) (t p : Nat) : Tread := (d.setThr t { d.thr t with prio := p % 8 }).dispatch
def Tread.schSuspend (d : Tread) (t : Nat) : Tread := (d.setThr t { d.thr t with st := 0, wake := none }).dispatch

/-- The tick reaches local instant `t`: every thread whose wake tick has come becomes ready (R309). -/
def Tread.schWake (d : Tread) (t : Time) : Tread :=
  let d := d.advance t
  let due (x : TThread) : Bool := match x.wake with | some w => !serialLt d.tickNow w | none => false
  ((List.range 16).foldl (fun d n =>
    let x := d.thr n
    if due x then d.setThr n { x with st := 1, wake := none, tout := x.st == 2 || x.tout,
                                      toutAt := if x.st = 2 then d.tickNow else x.toutAt } else d) d).dispatch

/-- The Tread's firmware writes `T_SCH_CMD` (Table 7). -/
def Tread.schCmd (d : Tread) (v : Nat) : Tread :=
  let op := bits v 0 3
  let t := bits v 4 4
  if op = 1 then d.schReady t else if op = 2 then d.schWait else if op = 3 then d.schSleep
  else if op = 4 then d.schPrio t (bits v 8 3) else if op = 5 then d.schSuspend t else d

/-- A write of `T_EVC_SELn` clears its counter (R313). -/
def Tread.evcSelect (d : Tread) (n src : Nat) : Tread := (d.wr (F.T_EVC_SEL_SRC n) src).setReg (R.T_EVC_CNT n) 0

end Sys2Proof.Machine
end

