-- ==== Sys2Proof/Machine/TreadRing.lean ====
section
/-!
DEFINITION. Machine/TreadRing.lean: a Tread on its ring: register access by carts and firmware, cart operations, the
outbound and inbound passes, enumeration answers, loop-back roles and lane events (R182 to R217, R237 to R242, R282,
R289, R299, R300, R309 to R314, R376, R377, R502, R503).
-/

namespace Sys2Proof.Machine

/-! Register access (R7, R289, R309 to R314). -/

/-- The setting of an adapting equaliser: free values (R183). -/
def Tread.adaptEq (d : Tread) (far : Bool) : Tread :=
  let adapt := if far then F.T_LN_EQF_ADAPT else F.T_LN_EQN_ADAPT
  if !d.rdB adapt then d
  else
    let v := Config.treadFree (d.reg R.T_ID_UIDL).toNat d.freeCtr
    let w := (BitVec.ofNat 32 v &&& 0x3F3F3F1F) ||| 0x80000000
    { d.setReg (if far then R.T_LN_EQF else R.T_LN_EQN) w with freeCtr := d.freeCtr + 1 }

/-- A read of a Tread register, with its clear-on-read fields. -/
def Tread.readReg (d : Tread) (off : Nat) : Tread × Word :=
  match treadRow off with
  | none => (d, 0)
  | some r =>
    let d := if off = R.T_LN_EQN then d.adaptEq false else if off = R.T_LN_EQF then d.adaptEq true else d.ageLand
    let v := if off = R.T_SCH_TICK then BitVec.ofNat 32 d.tickNow
      else if off = R.T_STAT then (d.wrB F.T_STAT_READY d.ready).reg off else d.reg off
    if r.rc = 0 then (d, v &&& BitVec.ofNat 32 r.rd)
    else
      let x := rcSplit v (d.old off) (BitVec.ofNat 32 r.rc)
      let d := d.setReg off x.2
      ({ d with before := Store.put d.before (treadReset off) off x.2 }, x.1 &&& BitVec.ofNat 32 r.rd)

/-- PW registers and `T_SW_CFG`, which a cart writes only with the cell blocked (R289, R314). -/
def needsBlock (off : Nat) : Bool :=
  off == R.T_SW_CFG || (treadPwRegs.contains off && off != R.T_HT_ASYM_N && off != R.T_HT_ASYM_F) ||
    (0x800 ≤ off && off < 0xC00)

/-- A write of a Tread register, by a cart or by the Tread's firmware; the flag tells that it was not refused. An offset
that the map does not list ignores it (R8). -/
def Tread.writeReg (d : Tread) (off : Nat) (v : Word) (cart : Bool) : Tread × Bool :=
  match treadRow off with
  | none => (d, true)
  | some r =>
    let n := v.toNat
    if off = R.T_FLT_CLR then d.fltClr n
    else if off = R.T_BYP_CMD then (if bitOf n 0 ∧ bits n 8 8 = 0x5A then d.release else (d, false))
    else if off = R.T_FW_CMD then
      let d := if bitOf n 0 then d.verify else d
      if bitOf n 1 then (if bits n 8 8 = 0xA5 then d.fwSwitch else (d, false)) else (d, true)
    else if off = R.T_SCH_CMD then (if cart then (d, false) else (d.schCmd n, true))
    else if off = R.T_SCH_ARG ∧ cart then (d, false)
    else if cart && needsBlock off && !d.blocked then (d, false)
    else if cart && decide (0xA00 ≤ off) && decide (off < 0xC00) then (d, false)
    else if r.pw ≠ 0 then
      let b := treadBlock off
      if d.lowAt.isSome then (d, false)
      else if d.readOnly b then (d, !cart)
      else
        let m := BitVec.ofNat 32 r.pw
        let d := d.commitPw off ((d.reg off &&& ~~~m) ||| (v &&& m))
        (if off = R.T_OVG_CFG then d.showOvg else d, true)
    else if R.T_EVC_SEL 0 ≤ off ∧ off < R.T_EVC_SEL 8 then (d.evcSelect ((off - R.T_EVC_SEL 0) / 4) (n % 16), true)
    else
      let m := BitVec.ofNat 32 r.rw
      let w := (d.reg off &&& ~~~m) ||| (v &&& m)
      let w := if off = R.T_CAR_OPT ∧ !d.full then 0 else w
      let d := d.setReg off w
      let d := if off = R.T_CAR_PER then d.shWrite 0
        else if off = R.T_CAR_PH then d.shWrite 1
        else if off = R.T_CAR_OPT then d.shWrite 2
        else if off = R.T_HT_RTT then d.wrB F.T_HT_RTT_VALID true
        else if off = R.T_SW_CFG then (d.deadTimeOver 0).deadTimeOver 1
        else d
      (d, true)

/-- A granted register write of a Tread acts: the guard island's own write sets the fields that the register has. -/
def Tread.granted (d : Tread) (a : TAsk) : Tread :=
  match a.who with
  | .guard =>
    match treadRow a.off with
    | some r => d.setReg a.off ((d.reg a.off &&& ~~~(BitVec.ofNat 32 r.rd)) ||| (a.val &&& BitVec.ofNat 32 r.rd))
    | none => d
  | .cart => (d.writeReg a.off a.val true).1
  | .firmware => (d.writeReg a.off a.val false).1

def treqRank : TReq → Nat
  | .guard => 0
  | .cart => 1
  | .firmware => 2

/-- One grant slot of a Tread's registers: of the writes that wait for one register one is granted, those of an earlier
slot first, then in the order of Table 6 of spec/01; each new one that is not is counted (R36, R37, R39). -/
def Tread.grantSlot (d : Tread) (news : List TAsk) : Tread :=
  let x := firstEach (fun a => a.2.off) (slotOrder (fun _ => false) (fun a b => treqRank a.who < treqRank b.who) d.asks news)
  let d : Tread := { d with asks := x.2.map (fun a => a.2) }
  x.1.foldl (fun d a => d.granted a.2) (d.ev 11 (lateNews x.2))

/-! Enumeration answers (Tables 12 and 13 of spec/06). -/

def Tread.uid (d : Tread) : Nat := (d.reg R.T_ID_UIDL).toNat + 2 ^ 32 * (d.reg R.T_ID_UIDH).toNat

def Tread.enum0 (d : Tread) : Slot :=
  BitVec.ofNat 128 (d.uid + d.rd F.T_FW_VER_VER_A * 2 ^ 64 + d.rd F.T_FW_VER_VER_B * 2 ^ 80 + d.rd F.T_ID_INFO_HPOS * 2 ^ 96
    + d.rd F.T_ID_INFO_BTYPE * 2 ^ 102 + d.rd F.T_ID_INFO_STEP * 2 ^ 104 + d.rd F.T_FW_STAT_ACT * 2 ^ 108
    + d.rd F.T_FW_STAT_VA * 2 ^ 109 + d.rd F.T_FW_STAT_VB * 2 ^ 110 + d.rd F.T_ID_INFO_NEWC * 2 ^ 111 + 2 ^ 127)

def Tread.enum1 (d : Tread) : Slot :=
  BitVec.ofNat 128 ((d.reg R.T_DIGEST).toNat + (d.reg R.T_ADC_VPC).toNat * 2 ^ 32 + d.rd F.T_ID_INFO_HPOS * 2 ^ 64
    + d.rd F.T_STAT_LOWP * 2 ^ 70 + d.rd F.T_STAT_SELFKEEP * 2 ^ 71 + 2 ^ 127)

/-! Cart operations (R205, R206, Table 11). -/

/-- The reply of a unicast request: its OP, TAG, POS and ARG with RPL, RSTAT and data. -/
def replyTo (req : Slot) (rstat data : Nat) : Slot :=
  mkCart (cOp req) (cTag req) (cPos req) true (cArg req % 4096 + rstat * 4096) data

/-- The template of the loop-back Tread (R206). -/
def templateOf (req : Slot) : Slot := replyTo req (if opUnicast (cOp req) then 1 else 0) 0

/-- One or two words written (WR, BWR): each word alone, and whether none was refused (log entry 54). An R-bar of
another DIR is ignored with its cycle number (R238). -/
def Tread.writeWords (d : Tread) (arg data : Nat) : Tread × Bool :=
  let off := 4 * bits arg 0 10
  if off == R.T_HT_RTT && (match d.frames with | f :: _ => f.dir != bits data 24 1 | [] => false) then (d, true)
  else
    let a := d.writeReg off (BitVec.ofNat 32 data) true
    if bitOf arg 10 then
      let b := a.1.writeReg (off + 4) (BitVec.ofNat 32 (data / 2 ^ 32)) true
      (b.1, a.2 && b.2)
    else a

/-- A WR or BWR request whose commit cannot start, VDD33 being below its falling threshold, gets no reply (R502, R503). -/
def Tread.noCommit (d : Tread) (arg : Nat) : Bool :=
  let pw (off : Nat) : Bool := match treadRow off with
    | some r => r.pw != 0
    | none => false
  d.lowAt.isSome && (pw (4 * bits arg 0 10) || (bitOf arg 10 && pw (4 * bits arg 0 10 + 4)))

/-- A Tread acts on a request it has read; what it will reply is kept with the request. -/
def Tread.cart (d : Tread) (c : Nat) (req : Slot) : Tread × TRep :=
  let op := cOp req
  let arg := cArg req
  let data := cData req
  let adm := d.rdB F.T_ID_INFO_ADM
  let no : TRep := { c := c, req := req }
  let say (d : Tread) (rstat v : Nat) : Tread × TRep := (d, { no with ans := some (replyTo req rstat v) })
  if opUnicast op then
    if cPos req ≠ d.pos then (d, no)
    else if op = opIdent then
      let q := bits arg 0 2
      say d 0 (bits (if q < 2 then d.enum0 else d.enum1).toNat (64 * (q % 2)) 64)
    else if op = opAdmit then
      if adm then (d, no)
      else if data ≠ d.uid then say d 4 0
      else
        let d := (d.wr F.T_ID_INFO_POS (d.rd F.T_ID_INFO_HPOS)).wrB F.T_ID_INFO_ADM true
        say (d.wrB F.T_ID_INFO_NEWC false).showIdle 0 0
    else if !adm then say d 5 0
    else if op = opLink then say { d with cmdRole := bitOf arg 0 } 0 0
    else if op = opRd then
      let off := 4 * bits arg 0 10
      let a := d.readReg off
      if bitOf arg 10 then
        let b := a.1.readReg (off + 4)
        say b.1 0 (a.2.toNat + 2 ^ 32 * b.2.toNat)
      else say a.1 0 a.2.toNat
    else if d.noCommit arg then (d, no)
    else
      let w := d.writeWords arg data
      say w.1 (if w.2 then 0 else 3) 0
  else if !adm then (d, no)
  else if op = opBwr then
    if d.noCommit arg then (d, no)
    else
      let w := d.writeWords arg data
      (w.1, { no with mask := some w.2 })
  else if op = opFwblk then
    if !d.rdB F.T_FW_CTRL_UPD_EN then (d, no)
    else
      let w := d.fwblk arg data
      (w.1, { no with mask := some w.2 })
  else if op = opRate then
    let low := bitOf arg 0
    let ok := low || d.ready
    if !bitOf arg 1 then (d, { no with mask := some ok })
    else if ok then ({ d with rateAt := some (data % 2 ^ 32, low) }, { no with mask := some true })
    else (d, { no with mask := some false })
  else (d, no)

/-- A cart request acted on alone, as read in the latest frame at position `c` (R205). -/
def Tread.cartNow (d : Tread) (c : Nat) (req : Slot) : Tread :=
  let a := d.cart c req
  match a.1.frames with
  | [] => a.1
  | f :: r => { a.1 with frames := { f with reps := f.reps ++ [a.2] } :: r }

/-- The reply carts of the frame after the one in which the requests were read (R206). `lb`: the loop-back Tread. -/
def Tread.putReplies (pos : Nat) (reps : List TRep) (lb : Bool) (f : Frame) : Frame :=
  reps.foldl (fun f r =>
    let f := if lb && (opUnicast (cOp r.req) || opMask (cOp r.req)) then putCart f r.c (templateOf r.req) else f
    match r.ans, r.mask with
    | some a, _ => putCart f r.c a
    | none, some ok =>
      let v := cartOf f r.c
      if cRpl v && cOp v == cOp r.req && cTag v == cTag r.req && cartOk f r.c then
        let b := 2 ^ (pos + if ok then 0 else 32)
        let m := cData v
        putCart f r.c (mkCart (cOp v) (cTag v) (cPos v) true (cArg v) (if bitOf m (pos + if ok then 0 else 32) then m else m + b))
      else f
    | none, none => f) f

/-! Roles (R201, R202). -/

def Tread.lane (d : Tread) (far : Bool) : TLane := if far then d.far else d.near
def Tread.setLane (d : Tread) (far : Bool) (l : TLane) : Tread := if far then { d with far := l } else { d with near := l }
def Tread.laneLock (d : Tread) (far : Bool) : Bool := if far then d.rdB F.T_LN_STAT_FLOCK else d.rdB F.T_LN_STAT_NLOCK
def Tread.laneLos (d : Tread) (far : Bool) : Bool := if far then d.rdB F.T_LN_STAT_FLOS else d.rdB F.T_LN_STAT_NLOS

/-- The fault role of a lane port as its conditions stand: a role taken stays (R202). -/
def Tread.takeRole (d : Tread) (far : Bool) : Tread :=
  let l := d.lane far
  let now := if !l.ever then 0 else if d.laneLos far then 1 else if !d.laneLock far || l.lf then 2 else 0
  if now = 0 ∨ (l.fault ≠ 0 ∧ l.fault ≤ now) then d else d.setLane far { l with fault := now }

/-- CAUSE of the loop-back role toward the port `far`, and whether a far-end copy goes out there (Table 9). -/
def Tread.role (d : Tread) (far : Bool) : Option (Nat × Bool) :=
  let l := d.lane far
  if !l.ever then some (0, false)
  else if l.fault ≠ 0 then some (l.fault, false)
  else if l.role0 then some (0, false)
  else if d.cmdRole then some (3, false)
  else if l.fe then some (0, true)
  else none

/-- An accepted ENUM header ends the roles whose conditions have ended (Table 9). -/
def Tread.endRoles (d : Tread) (far : Bool) : Tread :=
  let l := d.lane far
  let bad := d.laneLos far || !d.laneLock far || l.lf
  let d := { d with cmdRole := false }
  d.setLane far { l with role0 := if d.laneLock far then false else l.role0, fault := if bad then l.fault else 0 }

/-! Uplinks. -/

/-- The uplink carriage of a CONTROL frame (Table 6 of spec/06); `inAt`: the inbound hall time (R197). -/
def Tread.uplink (d : Tread) (f : TFrame) (inAt : Time) (lb : Bool) : Slot :=
  let ts (t : Time) : Nat := satNat 20 ((t - f.tHat) / 4096)
  let status := b2n d.lateAct + 2 * d.rd F.T_ID_INFO_NEWC + 4 * d.rd F.T_LAND_STAT_PLAYING + 8 * b2n lb + 16 * b2n f.dlerr
    + 32 * d.rd F.T_SW_STAT_BLOCKED + 64 * d.rd F.T_SW_STAT_BYPASSED + 128 * d.rd F.T_STAT_LOWP
  let poserr := d.rdB F.T_ID_INFO_ADM && f.hop != d.rd F.T_ID_INFO_POS
  -- the average of the window that ends at s_k (R71, R303); t-hat may lie 31.25 ps beside t_k
  let v := d.vcapAvg (f.tHat - ns 200 + 4096)
  BitVec.ofNat 128 (v.1 + b2n v.2 * 2 ^ 14 + toField 8 d.temp * 2 ^ 16 + status * 2 ^ 24
    + nth d.fq 0 0 * 2 ^ 32 + min 15 (d.fq.length - 1) * 2 ^ 44 + d.rd F.T_REFR_STAT_REQ * 2 ^ 48
    + d.gfbBits (f.tHat - d.cycT) f.tHat * 2 ^ 49 + d.heldAfter f.cyc * 2 ^ 53 + d.rd F.T_EPOCH_EPOCH * 2 ^ 64
    + ts f.outAt * 2 ^ 80 + ts inAt * 2 ^ 100 + b2n poserr * 2 ^ 120 + 2 ^ 127)

/-- What the Tread forgets once an uplink is written: LATE_ACT, a code carried twice, a request whose notch is over
(R61, R276, R319). The refresh request is judged before the uplink is formed. -/
def Tread.beforeUplink (d : Tread) (f : TFrame) : Tread :=
  match d.refrEnd with
  | some e => if e < f.tHat - ns 200 then ({ d with refrEnd := none, reqAt := none }).wrB F.T_REFR_STAT_REQ false else d
  | none => d

def Tread.afterUplink (d : Tread) (f : TFrame) : Tread :=
  let d := { d with lateAct := false }
  let d := if f.dlerr then d.ev 2 else d
  match d.fq with
  | [] => d
  | _ :: r =>
    if 1 ≤ d.fqSent then ({ d with fq := r, fqSent := 0 }).wr F.T_STAT_FQ_LEVEL r.length
    else { d with fqSent := d.fqSent + 1 }

/-- The slot in which the Tread answers frame `f` (R194, R209, R215). -/
def Tread.slotIn (d : Tread) (f : TFrame) : Option Nat :=
  let p := if f.ftype = ftControl then d.pos else f.hop
  if p < 32 then posSlot f.dir f.pfar p else none

/-- The inbound pass: the Tread's own slot, its replies and the FCRC (R189, R196, R200). `prev`: the replies due. -/
def Tread.inboundPass (d : Tread) (f : TFrame) (prev : List TRep) (fr : Frame) (bad : Bool) (inAt : Time) (lb : Bool) :
    Tread × Frame :=
  let d := d.beforeUplink f
  let up := if f.ftype = ftEnum0 then d.enum0 else if f.ftype = ftEnum1 then d.enum1 else d.uplink f inAt lb
  let slot := d.slotIn f
  let fr := match slot with | some s => putSlot fr s up | none => fr
  let fr := if f.acc then Tread.putReplies d.pos prev lb fr else fr
  let d := if slot.isSome && f.ftype != ftEnum0 && f.ftype != ftEnum1 then d.afterUplink f else d
  (d, if bad then sealBad fr else sealFrame fr)

/-! Hall time (R237 to R241). -/

/-- 100 ppm in 2^-40, rounded down. -/
def ppm100 : Int := 109951162

/-- D-bar, the mean of b - a over the latest 256 valid frames. -/
def Tread.meanD (d : Tread) : Nat := d.dHist.sum / max 1 d.dHist.length

/-- theta-hat of R237; `far`: the frame came in on the far port; `lb`: loop-back. -/
def Tread.thetaHat (d : Tread) (e aHat : Time) (far lb : Bool) : Int :=
  let rbar : Int := d.rd F.T_HT_RTT_RTT * 256
  let kappa : Int := if lb then 0 else 1638400
  let eps : Int := (if far then d.rdI F.T_HT_ASYM_F_ASYM else d.rdI F.T_HT_ASYM_N_ASYM) * 256
  let delta : Int := if d.rdB F.T_HT_RTT_VALID then (rbar - d.meanD - kappa + eps) / 2 else 0
  (aHat : Int) - e - delta

/-- LOCK of the Tread's servo (R239). -/
def Tread.servoLock (d : Tread) (theta : Int) : Tread :=
  let inside := decide (theta.natAbs < d.rd F.T_HT_CFG_LOCKWIN * 4096)
  let d := { d with goodTh := if inside then min 64 (d.goodTh + 1) else 0, badTh := if inside then 0 else min 4 (d.badTh + 1) }
  if !d.rdB F.T_HT_RTT_VALID then d.wrB F.T_HT_STAT_LOCK false
  else if 64 ≤ d.goodTh then d.wrB F.T_HT_STAT_LOCK true
  else if 4 ≤ d.badTh then d.wrB F.T_HT_STAT_LOCK false
  else d

/-- The Tread slews (R239): a large offset that cannot be stepped forwards its code (R240). -/
def Tread.slewBy (d : Tread) (theta : Int) (last : Option Time) (big : Bool) : Tread :=
  let d := if big && !d.timeOff then d.fault 0x068 else d
  let d := { d with timeOff := big }
  match last with
  | none => d
  | some t =>
    let r := servo theta (d.now - t) (d.rd F.T_HT_CFG_KP_SH) (d.rd F.T_HT_CFG_KI_SH) ppm100 d.rhoI
    { d with rhoP := r.1, rhoI := r.2 }

/-- The Tread steps (R240). -/
def Tread.stepBy (d : Tread) (theta : Int) : Tread :=
  (({ d with hall := ((d.hall : Int) - theta).toNat, timeOff := false }).incSat F.T_HT_STEPS_COUNT).ev 13

/-- The time servo on a valid frame (R237 to R240). -/
def Tread.servoFrame (d : Tread) (h : Header) (aHat : Time) (far lb : Bool) : Tread :=
  let theta := d.thetaHat h.e aHat far lb
  let d := (d.wrB F.T_HT_STAT_NORTT (!d.rdB F.T_HT_RTT_VALID)).wrB F.T_HT_STAT_HOLD false
  let d := d.wr F.T_HT_STAT_THETA (satField 16 (theta / 256))
  let last := d.lastOffs
  let d := { d with lastOffs := some d.now }
  let big := decide (ns (d.rd F.T_HT_CFG_STEPWIN) ≤ theta.natAbs)
  (if big && d.blocked then d.stepBy theta else d.slewBy theta last big).servoLock theta

/-! The clock port. -/

def Tread.bitLock (far : Bool) : Fld := if far then F.T_LN_STAT_FLOCK else F.T_LN_STAT_NLOCK
def Tread.bitLos (far : Bool) : Fld := if far then F.T_LN_STAT_FLOS else F.T_LN_STAT_NLOS
def Tread.bitAdapt (far : Bool) : Fld := if far then F.T_LN_EQF_ADAPT else F.T_LN_EQN_ADAPT

/-- The clock port: the upstream port of the latest frame while it has lock, else the other that has (R184). -/
def Tread.clockPort (d : Tread) : Tread :=
  let up := match d.frames with | f :: _ => f.dir == 1 | [] => false
  let d := if d.laneLock up then d.wrB F.T_LN_STAT_CLKPORT up
    else if d.laneLock (!up) then d.wrB F.T_LN_STAT_CLKPORT (!up) else d
  if d.locked then d else if d.blocked then d else d.trip

/-! Outbound pass. -/

/-- The epoch rule of R376 for a CONTROL header: accepted, and the Tread after it. -/
def Tread.epochRule (d : Tread) (e : Nat) : Tread × Bool :=
  let et := d.rd F.T_EPOCH_EPOCH
  let newer := (e + 2 ^ 16 - et) % 2 ^ 16
  if !d.rdB F.T_EPOCH_VALID then ((d.wr F.T_EPOCH_EPOCH e).wrB F.T_EPOCH_VALID true, true)
  else if newer = 0 then (d, true)
  else if newer < 2 ^ 15 then (d.wr F.T_EPOCH_EPOCH e, true)
  else (d, false)

/-- What a valid CONTROL frame does besides its command (R239, R241, R283, R284, R286, R329). -/
def Tread.validFrame (d : Tread) (h : Header) (car : Slot) (aHat : Time) (far lb : Bool) : Tread :=
  let d := ({ d with k0 := some (h.cycle, h.tHat), lost := false, validAt := d.now }).ev 1
  let d := d.endLanding.dropLand h.cycle
  let d := if sbits car 104 1 = 1 then d.landStore h.cycle (BitVec.ofNat 32 (sbits car 64 32)) (sbits car 96 8) else d
  let d := if !h.block && sbits car 3 3 == 2 && sbits car 51 1 == 1 then
      ((d.wr F.T_CAR_DUTY_D (sbits car 32 19)).wr F.T_CAR_DUTY_ON (if sbits car 0 3 = 3 then 3 else 1)).shWrite 3
    else d
  d.servoFrame h aHat far lb

/-- The carriage's command: executed at its instant, or at once when that has passed at decode (R259, R262). -/
def Tread.takeCommand (d : Tread) (h : Header) (car : Slot) : Tread :=
  let a := h.tHat + ns (230 + 250 * h.baseJ) + sbits car 6 24 * quarterNs
  let c : TCmd := { a := a, state := sbits car 0 3, mode := sbits car 3 3, duty := sbits car 32 20, run := !h.block,
                    commit := if h.commit then some d.shadow else none, cyc := h.cycle }
  if a < d.hall then
    let d := if c.run then ({ d with lateAct := true }).incSat F.T_SW_CNT_LATE |>.ev 5 else d
    d.command c
  else { d with cmds := d.cmds ++ [c] }

/-- The carts of an accepted frame, which is the latest one. -/
def Tread.readCarts (d : Tread) (fr : Frame) : Tread :=
  (List.range 8).foldl (fun d c =>
    let v := cartOf fr c
    if cOp v = 0 ∨ cRpl v ∨ !cartOk fr c then d else d.cartNow c v) d

/-- The replies that frame `f` takes (R206): those to the requests of the frame before it, which is the one of the cycle
before at full rate, and the latest one at the low-power rate, at which frames lie several cycles apart (R54). -/
def Tread.repliesFor (d : Tread) (f : TFrame) (l : List TFrame) : List TRep :=
  match l with
  | [] => []
  | g :: _ => if d.rdB F.T_LN_STAT_LOWRATE || f.cyc == (g.cyc + 1) % 2 ^ 32 then g.reps else []

/-- Frame `k` and those before it have come back. -/
def markBack (k : Nat) (l : List TFrame) : List TFrame :=
  l.map (fun g => if serialLt k g.cyc then g else { g with back := true })

/-- The frame that an inbound frame is, with those before it: the one that its header names when the header passes its HCRC,
else the oldest that has not come back, for frames return in their order. -/
def Tread.inboundOf (d : Tread) (fr : Frame) : List TFrame :=
  let k := (headerOf fr).cycle
  if hcrcOk fr then d.frames.dropWhile (fun f => f.cyc != k)
  else
    let n := (d.frames.takeWhile (fun f => !f.back)).length
    if n = 0 then [] else d.frames.drop (n - 1)

/-- The frame as it leaves downstream: HOP and FCRC (R189, R199). -/
def outFrame (fr : Frame) (dir hop : Nat) (bad : Bool) : Frame :=
  let w := retOf fr
  let h := if dir = 0 then min 63 (hop + 1) else hop - 1
  let f := fput fr 5824 32 (w - retHop w + h)
  if bad then sealBad f else sealFrame f

/-- An outbound frame on the near or far port (R192, R200, R203, R376, R377): `ta` is the arrival of its first bit and
`tc` the end of the Tread's own slot, in the Tread's local time. -/
def Tread.outbound (d : Tread) (far : Bool) (fr : Frame) (ta tc : Time) : Tread :=
  if !d.powered || !frameStart fr then d
  else
    let aHat := d.hallAt ta
    let d := d.advance ta
    let d := if d.staleEnd ≤ d.now then d.wrB F.T_EPOCH_STALE false else d
    let h := headerOf fr
    let bad := !fcrcOk fr
    let hop := retHop (retOf fr)
    let pfar := retPfar (retOf fr)
    let known := hcrcOk fr && decide (1 ≤ h.ftype) && decide (h.ftype ≤ 3)
    let isCtl := h.ftype == ftControl
    let ep := if known && isCtl then d.epochRule h.epoch else (d, true)
    let older := known && isCtl && !ep.2
    let acc := known && ep.2
    let d := ep.1
    let sport := if far then 1 else 0
    let d := if older then
        let d := (d.wrB F.T_EPOCH_STALE true).wr F.T_EPOCH_SPORT sport
        { d with staleEnd := ta + 4 * d.cycT }
      else d
    let staleHere := d.rdB F.T_EPOCH_STALE && d.rd F.T_EPOCH_SPORT == sport
    let staleOther := d.rdB F.T_EPOCH_STALE && d.rd F.T_EPOCH_SPORT != sport
    let d := d.wr F.T_ID_INFO_HPOS hop
    let role := if older && staleHere then some (0, false)
      else if staleOther && acc && isCtl then some (0, false) else d.role (!far)
    let d := if acc && !isCtl then d.endRoles (!far) else d
    -- BLOCK acts as soon as the header is accepted (R192, R260)
    let left := (d.cmds.filter (fun c => c.commit.isSome)).map (fun c => { c with run := false })
    let d := if acc && h.block then ({ d with byCmd := true, cmds := left }).trip else d
    let d := if acc && isCtl then d.wrB F.T_LAND_STAT_ARMED h.land else d
    let p := if isCtl then d.pos else hop
    let slot := if p < 32 then posSlot h.dir pfar p else none
    let outAt := d.hallAt tc
    let d := d.advance tc
    let carOk := match slot with | some s => slotOk fr s | none => false
    let valid := acc && isCtl && carOk
    let car := match slot with | some s => slotOf fr s | none => 0
    let d := if valid then (d.validFrame h car aHat far role.isSome).takeCommand h car
      else if isCtl then d.holdServo else d
    let f : TFrame := { cyc := h.cycle, ftype := if isCtl then ftControl else h.ftype, dir := h.dir, pfar := pfar,
                        hop := hop, acc := acc, valid := valid, dlerr := !acc || (isCtl && !carOk), tHat := h.tHat,
                        aHat := aHat, outAt := outAt }
    let prev := d.repliesFor f d.frames
    let d := { d with frames := (f :: d.frames).take 8 }
    let d := (if acc then d.readCarts fr else d).clockPort
    let out := outFrame fr h.dir hop bad
    -- a lane port without lock sends LINK_FAULT in place of frames (R185)
    let down (d : Tread) : Tread := if d.laneLock (!far) then { d with txDown := out } else d
    match role with
    | none => down d
    | some (cause, copy) =>
      let d := if copy then down d else d
      let d := if older then d.incWrap F.T_EPOCH_TURNS else d
      let turn := if d.rdB F.T_LN_STAT_LOWRATE then ns 200 else ns 75
      let lbpos := if d.rdB F.T_ID_INFO_ADM then d.rd F.T_ID_INFO_POS else hop
      let w := setBits (setBits (retOf out) 12 6 lbpos) 18 2 cause
      let turned := fput out 5824 32 (setBits w 20 1 1)
      let r := d.inboundPass f prev turned bad (aHat + turn) true
      let d := if valid then { r.1 with dHist := (turn :: r.1.dHist).take 256 } else r.1
      { d with txUp := r.2, frames := markBack f.cyc d.frames }

/-- An inbound frame on the downstream port (R196, R200): `tb` is the arrival of its first bit in local time. -/
def Tread.inbound (d : Tread) (fr : Frame) (tb : Time) : Tread :=
  if !d.powered || !frameStart fr then d
  else
    let bHat := d.hallAt tb
    let d := d.advance tb
    let bad := !fcrcOk fr
    match d.inboundOf fr with
    | [] => { d with txUp := if bad then sealBad fr else sealFrame fr }
    | f :: older =>
      -- a lane port without lock sends LINK_FAULT in place of frames (R185)
      if !d.laneLock (f.dir == 1) then d
      else
        let r := d.inboundPass f (d.repliesFor f older) fr bad bHat false
        let d := if f.valid then { r.1 with dHist := ((bHat - f.aHat) :: r.1.dHist).take 256 } else r.1
        { d with txUp := r.2, frames := markBack f.cyc d.frames }

/-! Lane events (R182 to R185, R201, R541). -/

def Tread.blockLock (d : Tread) (far : Bool) : Tread :=
  if !d.powered || d.laneLos far then d
  else
    let d := ((d.wrB (Tread.bitLock far) true).wrB (Tread.bitAdapt far) true).adaptEq far
    (d.setLane far { d.lane far with ever := true }).showIdle.clockPort

def Tread.lossOfLock (d : Tread) (far : Bool) : Tread :=
  if !d.laneLock far then d
  else
    let d := (((d.adaptEq far).wrB (Tread.bitLock far) false).wrB (Tread.bitAdapt far) false).showIdle
    let d := (d.incSat (if far then F.T_LN_CNT_FLOL else F.T_LN_CNT_NLOL)).ev (if far then 4 else 3)
    let d := d.setLane far { d.lane far with fe := false, lf := false }
    (d.takeRole far).clockPort

def Tread.lossOfSignal (d : Tread) (far : Bool) : Tread :=
  if !d.powered then d
  else
    let d := (d.wrB (Tread.bitLos far) true).incSat (if far then F.T_LN_CNT_FLOS else F.T_LN_CNT_NLOS)
    (d.lossOfLock far).takeRole far

def Tread.signalReturn (d : Tread) (far : Bool) : Tread := d.wrB (Tread.bitLos far) false

def Tread.linkFault (d : Tread) (far on : Bool) : Tread :=
  if !d.laneLock far then d
  else
    let d := d.setLane far { d.lane far with lf := on, fe := if on then false else (d.lane far).fe }
    d.takeRole far

def Tread.farEnd (d : Tread) (far on : Bool) : Tread :=
  if !d.laneLock far then d else d.setLane far { d.lane far with fe := on }

/-- The start of the cycle that a RATE go named has come (R217, R294). -/
def Tread.rateSwitch (d : Tread) : Tread :=
  match d.rateAt with
  | none => d
  | some (c, low) =>
    let d := match d.k0 with
      | some (k, t) =>
        let n := (c + 2 ^ 32 - k) % 2 ^ 32
        if n < 2 ^ 31 then d.toHall (t + n * d.cycT) else d
      | none => d
    (({ d with rateAt := none }).wrB F.T_LN_STAT_LOWRATE low).wrB F.T_STAT_LOWP low

end Sys2Proof.Machine
end

