-- ==== Sys2Proof/Machine/Ring.lean ====
section
/-!
DEFINITION. Machine/Ring.lean: a ring port of the hub: roles and port states (R210, R211, R541, Table 14 of spec/06),
the measured delivery and lead (R56 to R60), the cart queue (R205 to R208, R221) and the emission of a frame (R52 to R55,
R190 to R195, R324, R325, R342, R383, R385, R420, R513).
-/

namespace Sys2Proof.Machine

/-! Roles (R210, R211, R22). -/

/-- The hub has the emitting role of a whole-unit pair. -/
def State.unitEmits (s : State) : Bool :=
  let st := s.rd F.STK_RED_STAT_STATE
  st == 1 || (st == 3 && s.stk.emitting)

/-- 0 primary, 1 far end in path-only mode, 2 far end in whole-unit mode. -/
def State.roleOf (s : State) (q : Nat) : Nat :=
  if s.dupMode = 1 then q % 2 else if s.dupMode = 2 && !s.unitEmits then 2 else 0

/-- The ring that port `q` serves: in path-only mode an odd port serves the ring of the even port below it. -/
def State.ringOfPort (s : State) (q : Nat) : Nat := if s.dupMode = 1 then q - q % 2 else q

/-- DIR of the frames of a port with the primary role. -/
def State.dirOf (s : State) : Nat := if s.dupMode = 2 && s.rdB F.GEN_TOPO_UNIT then 1 else 0

def State.setPst (s : State) (q st : Nat) : State := s.wr (F.RP_STAT_STATE q) st

/-- A receive lane without block lock, or with LINK_FAULT as its latest blocks (R541). -/
def State.linkDown (s : State) (q : Nat) : Bool := !s.rdB (F.RP_STAT_LOCK q) || (s.port q).linkFault

def State.split (s : State) (r : Nat) : Bool := s.rdB (F.RP_STAT_SPLIT r)

/-- The far segment of a split ring: the odd port in path-only mode, key 32 + r for a segment that the partner's port
emits as a relay in whole-unit mode (R220, R222). -/
def State.farSeg (s : State) (r : Nat) : Option Nat :=
  if !s.split r then none
  else if s.dupMode = 1 then (if r % 2 = 0 then some (r + 1) else none)
  else if s.unitEmits then some (32 + r)
  else none

/-- The loop-back point of a segment of a split ring, none before a return word with LBV = 1 (R220, R221). -/
def State.segLb (s : State) (q : Nat) : Option Nat := (s.port q).rlb

/-- Positions with a cell-table entry of state 1, 2 or 3; the highest of them. -/
def State.populated (s : State) (r : Nat) : List Nat := (List.range 32).filter (fun p => s.rd (F.RP_CELL_INFO_STATE r p) != 0)
def State.topPos (s : State) (r : Nat) : Nat := (s.populated r).foldl max 0
def State.admitted (s : State) (r p : Nat) : Bool := let st := s.rd (F.RP_CELL_INFO_STATE r p); st == 1 || st == 3

/-- `RP_POP`, `RP_ADM`, `RP_NEWC`, `RP_SILENT` and NPOP as the cell table stands. -/
def State.showTable (s : State) (r : Nat) : State :=
  let st (p : Nat) : Nat := s.rd (F.RP_CELL_INFO_STATE r p)
  let m (f : Nat → Bool) : Nat := ofBits ((List.range 32).filter (fun p => f (st p)))
  let s := (s.wr (F.RP_POP_MASK r) (m (fun x => x != 0))).wr (F.RP_ADM_MASK r) (m (fun x => x == 1 || x == 3))
  let s := (s.wr (F.RP_NEWC_MASK r) (m (fun x => x == 2))).wr (F.RP_SILENT_MASK r) (m (fun x => x == 3))
  s.wr (F.RP_STAT_NPOP r) (s.populated r).length

/-- PFAR with which a port starts to emit CONTROL frames (R194, R211). -/
def State.startPfar (s : State) (r : Nat) : Nat := if s.dirOf = 1 then 0 else s.topPos r

/-- The loop-back point of the primary port's frames is the last position: the far segment is empty (R221). -/
def State.farEmpty (s : State) (r : Nat) : Bool :=
  match s.segLb r with
  | some x => x == (if s.dirOf = 1 then (s.populated r).head?.getD 0 else s.topPos r)
  | none => false

/-! What the transmitter sends between frames (Table 1, R185, R204, Table 14). -/

/-- FAREND of a hub port. -/
def farEndBlock (hub ring : Nat) : Dword := BitVec.ofNat 64 (0x2D + hub % 256 * 2 ^ 8 + ring % 256 * 2 ^ 16)

/-- A far-end port emits frames of its own: of a split in path-only mode, relayed ones in whole-unit mode. -/
def State.farEmits (s : State) (q : Nat) : Bool :=
  s.pst q == 4 && (match s.roleOf q with
    | 1 => s.split (s.ringOfPort q)
    | 2 => (match (s.port q).relayed with
        | some (k, _) => decide ((s.cyc + 2 ^ 32 - k % 2 ^ 32) % 2 ^ 32 ≤ 1)
        | none => false)
    | _ => false)

def State.idleOf (s : State) (q : Nat) : Option Dword :=
  if s.pst q = 0 then none
  else if !s.rdB (F.RP_STAT_LOCK q) then some (linkFaultBlock 0xFF)
  else if s.roleOf q != 0 && !s.farEmits q then some (farEndBlock (s.rd F.GEN_TOPO_HUB_ID) q)
  else some idleBlock

def State.showIdle (s : State) (q : Nat) : State :=
  let b := s.idleOf q
  s.updPort q (fun p => { p with txIdle := b })

/-! The receive equaliser (R183). -/

/-- The setting of an adapting equaliser: free values. -/
def State.adaptEq (s : State) (q : Nat) : State :=
  if !s.rdB (F.RP_EQ_ADAPT q) then s
  else s.tick.setReg (R.RP_EQ q) ((BitVec.ofNat 32 s.free &&& 0x3F3F3F1F) ||| 0x80000000)

/-! Port states (Table 14). -/

/-- The port begins to enumerate. -/
def State.startEnum (s : State) (q : Nat) : State :=
  let s := s.updPort q (fun p => { p with enumCnt := 0, enumHist := [] })
  (s.setPst q 2).wr (F.RP_STAT_PFAR q) (if s.dirOf = 1 then 0 else 31)

/-- A trigger of R219 in a mode that can split: kept with its instant until the ring splits. -/
def State.splitTrigger (s : State) (r : Nat) : State :=
  if s.dupMode = 0 || s.split r then s
  else s.updPort r (fun p => { p with splitTrig := p.splitTrig.orElse (fun _ => some s.clk.now) })

/-- The port leaves LINK. -/
def State.leaveLink (s : State) (q : Nat) : State :=
  let role := s.roleOf q
  let s := s.wr (F.RP_STAT_ROLE q) role
  if role ≠ 0 then s.setPst q 4
  else if (s.port q).table then
    ((s.setPst q 3).wr (F.RP_STAT_PFAR q) (s.startPfar q)).live (0x100 + 8 * q) false
  else s.startEnum q

/-- An enabled port leaves OFF; the first time after a reset it starts at the low-power rate (R224, Table 4 of spec/17). -/
def State.portOn (s : State) (q : Nat) : State :=
  if (s.port q).began then s.setPst q 1
  else
    let s := s.updPort q (fun p => { p with began := true, lowFrom := s.cyc })
    (s.wrB (F.RP_STAT_LOWRATE q) true).setPst q 1

/-- Port `q` follows Table 14 as its conditions stand: `EN`, lock and LINK_FAULT. -/
def State.portMove (s : State) (q : Nat) : State :=
  let st := s.pst q
  if !s.rdB (F.RP_CFG_EN q) then (if st = 0 then s else (s.setPst q 0).live (0x100 + 8 * q) false)
  else
    let s := if st = 0 then s.portOn q else s
    let st := s.pst q
    if st = 1 then (if s.linkDown q then s else s.leaveLink q)
    else if s.linkDown q then
      if st = 3 then ((s.setPst q 1).live (0x100 + 8 * q) true).splitTrigger (s.ringOfPort q)
      else if st = 2 ∨ st = 4 then s.setPst q 1
      else s
    else s

/-- Table 14, with what the transmitter sends between frames. -/
def State.portStep (s : State) (q : Nat) : State := (s.portMove q).showIdle q

/-- A port whose role has changed passes through LINK with its cell table held (R210). -/
def State.roleChange (s : State) (q : Nat) : State :=
  if s.rd (F.RP_STAT_ROLE q) = s.roleOf q ∨ s.pst q = 0 then s.wr (F.RP_STAT_ROLE q) (s.roleOf q)
  else ((s.wr (F.RP_STAT_ROLE q) (s.roleOf q)).setPst q 1).portStep q

/-! Lane events at a ring port (R182, R183, R185, R541). -/

def State.portLock (s : State) (q : Nat) : State :=
  if s.rdB (F.RP_STAT_LOS q) then s
  else
    let s := ((s.wrB (F.RP_STAT_LOCK q) true).wrB (F.RP_EQ_ADAPT q) (!s.rdB (F.RP_CFG_EQ_FREEZE q))).adaptEq q
    (s.updPort q (fun p => { p with linkFault := false })).portStep q

def State.portLol (s : State) (q : Nat) : State :=
  if !s.rdB (F.RP_STAT_LOCK q) then s
  else
    let s := ((s.adaptEq q).wrB (F.RP_STAT_LOCK q) false).wrB (F.RP_EQ_ADAPT q) false
    let s := ((s.wrB (F.RP_ERR_LOL q) true).incSat (F.RP_CNT_LINK_LOL q)).count (0x080 + q)
    (s.updPort q (fun p => { p with linkFault := false })).portStep q

def State.portLos (s : State) (q : Nat) : State :=
  let s := ((s.wrB (F.RP_STAT_LOS q) true).wrB (F.RP_ERR_LOS q) true).incSat (F.RP_CNT_LINK_LOS q)
  s.portLol q

def State.portSignal (s : State) (q : Nat) : State := s.wrB (F.RP_STAT_LOS q) false

def State.portFault (s : State) (q : Nat) (on : Bool) : State :=
  if !s.rdB (F.RP_STAT_LOCK q) then s else (s.updPort q (fun p => { p with linkFault := on })).portStep q

/-! Delivery, action base and lead (R56 to R60, R369). -/

/-- Ports whose action base enters an arm's lead: its rings, and the far segments of its split rings. -/
def State.basePorts (s : State) (a : Nat) : List Nat :=
  (s.ringsOf a).flatMap (fun r => match s.farSeg r with | some q => if q < 32 then [r, q] else [r] | none => [r])

/-- `GEN_ARM_LEADa` (R59). -/
def State.updLead (s : State) (a : Nat) : State :=
  match s.basePorts a with
  | [] => (s.wr (F.GEN_ARM_LEAD_LEAD a) 0).wr (F.GEN_ARM_LEAD_SLOW_RING a) 0
  | l =>
    let m := l.foldl (fun m q => max m (s.actBase q)) 0
    let slow := (l.find? (fun q => s.actBase q == m)).getD 0
    (s.wr (F.GEN_ARM_LEAD_LEAD a) m).wr (F.GEN_ARM_LEAD_SLOW_RING a) slow

def State.updLeads (s : State) : State := (List.range 6).foldl State.updLead s

/-- j of R57 for a largest D_r of `d` ns. -/
def baseFor (d : Nat) : Nat := min 6 (ceilDiv (d - 230) 250)

/-- A measured D_r of port `q`, in ns (R56 to R58, R60). -/
def State.delivery (s : State) (q d : Nat) : State :=
  let p := s.port q
  let m := if p.dFresh then d else max d (s.rd (F.GEN_RING_DLV_DLV q))
  let blocked := !s.ringDeblocked (s.ringOfPort q)
  let j0 := s.rd (F.GEN_RING_DLV_BASE_J q)
  let j := if s.dupMode = 2 then 6 else if blocked then baseFor m else max j0 (baseFor m)
  let isOver := decide (1730 < m)
  let s := s.setPort q { p with dFresh := false }
  let s := (s.wr (F.GEN_RING_DLV_DLV q) (min 4095 m)).wr (F.GEN_RING_DLV_DLV_LAST q) (min 4095 d)
  let s := (s.wr (F.GEN_RING_DLV_BASE_J q) j).wrB (F.GEN_RING_DLV_OVER q) isOver
  (s.live (0x101 + 8 * q) isOver).updLeads

/-- The maximum of R57 starts again: the ring has been enumerated or its arm blocked. -/
def State.freshDelivery (s : State) (q : Nat) : State := s.updPort q (fun p => { p with dFresh := true })

/-! Carts at the port (R205 to R208, R221). -/

def CartReq.lt (a b : CartReq) : Bool :=
  if a.own || b.own then !a.own && b.own else Requester.rank a.who < Requester.rank b.who
def CartReq.isSafety (a : CartReq) : Bool := !a.own && a.who == .safety
/-- The broadcast of R238; `pos` 1: of the far segment. -/
def CartReq.isRtt (a : CartReq) : Bool := a.own && a.op == opBwr

/-- LINK and RATE are accepted only with the arm blocked (R208). -/
def State.cartRefused (s : State) (r op : Nat) : Bool := (op == opLink || op == opRate) && s.ringDeblocked r

/-- Requests newly presented at ring port `r`. -/
def State.presentCarts (s : State) (r : Nat) (news : List CartReq) : State :=
  s.updPort r (fun p => { p with carts := p.carts ++ news })

/-- The side of a split ring a unicast cart goes to, true the far one: none while it goes to both (R221). -/
def State.farSide (s : State) (r : Nat) (pos : Nat) : Option Bool :=
  match s.segLb r, (s.farSeg r).bind s.segLb with
  | some lb, some _ => some (if s.dirOf = 1 then decide (pos < lb) else decide (lb < pos))
  | _, _ => none

/-- What the placement of one cycle has decided: the requests of the near and the far frame, those still waiting, and
the number of fresh requests that did not get the first position. -/
structure Placed where
  near : List CartReq := []
  far  : List CartReq := []
  wait : List CartReq := []
  late : Nat := 0
  tag  : Nat := 0
  deriving DecidableEq, Repr

/-- One request finds its positions (R208, R221); `sides`: whether it is for the near and for the far frame. -/
def Placed.one (x : Placed) (c : CartReq) (sides : Bool × Bool) (cyc : Nat) : Placed :=
  let full := (sides.1 && decide (8 ≤ x.near.length)) || (sides.2 && decide (8 ≤ x.far.length))
  let fresh := !c.shown && !c.own && c.tries == 0
  if full then
    { x with wait := x.wait ++ [{ c with shown := true }], late := x.late + b2n fresh }
  else
    let first := (!sides.1 || x.near.isEmpty) && (!sides.2 || x.far.isEmpty)
    let data := if c.own && c.op == opRate && c.arg ≥ 2 && c.tries == 0 then (cyc + 16) % 2 ^ 32 else c.data
    let c := { c with shown := true, tries := c.tries + 1, both := sides.1 && sides.2, tag := x.tag, data := data }
    { x with near := if sides.1 then x.near ++ [c] else x.near, far := if sides.2 then x.far ++ [c] else x.far,
             tag := (x.tag + 1) % 64, late := x.late + b2n (fresh && !first) }

/-- The waiting requests in the order of R208: those that an earlier frame had no place for keep their places; those first
presented in this frame follow in the order of Table 6 of spec/01 (R36, R37). -/
def cartOrder (l : List CartReq) : List CartReq :=
  place CartReq.isSafety CartReq.lt (l.filter (fun c => c.shown)) (l.filter (fun c => !c.shown))

/-- The carts of this cycle's frames of ring `r`; `far`: a far frame is emitted too. -/
def State.placeCarts (s : State) (r : Nat) (near far : Bool) : State × Placed :=
  let p := s.port r
  let sides (c : CartReq) : Bool × Bool :=
    if !far then (true, false)
    else if !near then (false, true)
    else if opUnicast c.op then
      match s.farSide r c.pos with
      | some f => (!f, f)
      | none => (true, true)
    else (true, true)
  let reqs := cartOrder (p.carts.filter (fun c => !c.isRtt))
  let x := reqs.foldl (fun x c => x.one c (sides c) s.cyc) { tag := p.tag }
  let rtt := p.carts.filter CartReq.isRtt
  let x := rtt.foldl (fun x c =>
    let sd := if c.pos = 1 then (false, far) else (near, false)
    if !sd.1 && !sd.2 then x
    else if (!sd.1 || decide (x.near.length < 8)) && (!sd.2 || decide (x.far.length < 8)) then x.one c sd s.cyc
    else { x with wait := x.wait ++ [c] }) x
  let s := s.setPort r { p with carts := x.wait, tag := x.tag }
  -- the go cart names the cycle of the switch
  let go := (x.near ++ x.far).find? (fun c => c.own && c.op == opRate && 2 ≤ c.arg && c.tries == 1)
  let s := match go with
    | some c =>
      let set (s : State) (q : Nat) : State := s.updPort q (fun p => { p with rateAt := some (c.data, c.arg % 2 == 1) })
      if s.dupMode = 1 then set (set s r) (r + 1) else set s r
    | none => s
  (s.defer 3 x.late, x)

/-- A request as it lies in a frame. -/
def CartReq.slot (c : CartReq) : Slot :=
  mkCart c.op c.tag (if opUnicast c.op then c.pos else 0) false c.arg c.data

/-! Blocking (R325, R326, R342). -/

/-- The token path blocks the frames of port `q` at cycle start `t` (R342). -/
def State.tokenBlock (s : State) (q : Nat) (t : Time) : Bool :=
  match (s.port q).token with
  | some a => decide (a + ns 500 ≤ t)
  | none => true

/-- A hall-wide or stack-wide block acts on frames whose cycle starts at `t` (R326, R398). -/
def State.stackBlock (s : State) (t : Time) : Bool := s.flt.stackBlk.any (fun b => decide (b.t + margin ≤ t))

/-- BLOCK = 1 in the frames of port `q`, of ring `r`, at the present cycle start. -/
def State.blockFrame (s : State) (q r : Nat) : Bool :=
  let t := s.clk.tk
  s.tokenBlock q t || s.pst q == 5 ||
    match s.armOf r with
    | some a => !s.deblocked a
    | none => s.stackBlock t || (s.acting t).any (fun x => bitOf x.rings r)

/-! Carriages. -/

/-- The resume carriage of a cell (R383): STATE, and the instant in 250 ps units from the action base. -/
def State.resume (s : State) (i : Nat) : Nat × Nat :=
  match Store.get s.stk.known (0, 0) (64 * i + s.cyc % 64) with
  | (c, w) =>
    if c = s.cyc ∧ s.stk.known.any (fun x => x.1 == 64 * i + s.cyc % 64) then
      let l0 := bits w.toNat 0 2
      let l1 := bits w.toNat 2 2
      let st (l : Nat) : Nat := if l = 0 then 1 else if l = 1 then 2 else if l = 3 then 3 else 0
      if l1 ≠ l0 then (st l1, bits w.toNat 4 12 * s.tu / 4096) else (st l0, 0)
    else (0, 0)

/-- Frames k_n and k_n + 1 of a takeover carry resume carriages. -/
def State.resuming (s : State) : Bool :=
  match s.stk.resumeAt with
  | some k => s.cyc == k || s.cyc == (k + 1) % 2 ^ 32
  | none => false

/-- The downlink carriage of position `p` of ring `r` in a frame of port `q`. -/
def State.carriage (s : State) (q r p : Nat) : Slot :=
  let i := 32 * r + p
  if !s.admitted r p then 0
  else
    let arm := if s.pst q = 5 then none else s.armOf r
    let live := match arm with | some a => s.deblocked a | none => false
    let a := arm.getD 0
    let e0 := match arm with | some a => 4 * (s.lead a - s.actBase q) | none => 0
    let hold := if s.rdB (F.GAL_CELL_CTRL_SVC i) then s.rd (F.EVC_SVC_HOLD_HOLD (i / 16) (i % 16)) else 0
    let s1 := s.flt.bypass.any (fun b => b.1 == i && decide (b.2 + margin ≤ s.clk.tk))
    let land := live && s.rdB (F.STK_LAND_CFG_EN a) && !s.resuming
    let c := (s.cyc + min 64 (s.rd (F.STK_LAND_CFG_DEPTH a))) % 2 ^ 32
    let chunk := if land then Store.get s.gal.land 0 i + c / 64 % 64 * 2 ^ 26 else 0
    let mk (st mode e d : Nat) : Slot := mkDownlink st mode e d chunk (if land then c % 64 else 0) land
    if s1 then mk 4 0 e0 0
    else if !live && (arm.isNone || !(s.galArm a).ready) then mk (if hold = 0 ∨ hold = 1 then 0 else 4) 0 e0 0
    else if s.resuming then
      let x := s.resume i
      mk x.1 0 (e0 + x.2) 0
    else if s.carrierMode a then
      if hold ≠ 0 then mk (if hold = 1 then 0 else 4) 0 e0 0
      else
        match s.host.duty.find? (fun x => x.1 == i) with
        | some x => mk (if x.2.2 = 3 then 3 else 2) 2 e0 (x.2.1 + 2 ^ 19)
        | none => mk 1 0 e0 0
    else if !(s.galArm a).ready then mk (if hold = 0 then 1 else if hold = 1 then 0 else 4) 0 e0 0
    else
      let x := Store.get s.gal.sel {} i
      mk x.state x.mode (e0 + x.s) x.duty

/-! Emission. -/

/-- COMMIT = 1 in frame `k` of ring `r` (R420). -/
def State.commitFrame (s : State) (r : Nat) : Bool :=
  s.host.commits.any (fun c => bitOf c.1 r && (match c.2.1 with | some k => k == s.cyc | none => false))

/-- LAND = 1 in the frames of ring `r` (R385, R342). -/
def State.landFrame (s : State) (q r : Nat) : Bool :=
  match s.armOf r with
  | some a => s.deblocked a && s.rdB (F.STK_LAND_CFG_EN a) && !s.tokenBlock q s.clk.tk
  | none => false

/-- Port `q` emits frame `k` of ring `r` at hall time `e` (R52, R190 to R198); none when E - t_k is above what LAG can
hold (R191). -/
def State.emit (s : State) (q r : Nat) (e : Time) (enum : Bool) (dir pfar hop : Nat) (carts : List CartReq) : State :=
  let d := e - s.clk.tkHall
  if 16383 * 4096 < d then s
  else
    let p := s.port q
    let block := enum || s.blockFrame q r
    let ftype := if enum then (if p.enumCnt % 2 = 0 then ftEnum0 else ftEnum1) else ftControl
    let h : Header :=
      { ftype := ftype, dir := dir, block := block, commit := !enum && s.commitFrame r, land := !enum && s.landFrame q r,
        baseJ := if enum then 0 else s.rd (F.GEN_RING_DLV_BASE_J q), lag := (d + 2047) / 4096, cycle := s.cyc,
        epoch := s.rd F.STK_EPOCH_EPOCH, e := e }
    let slots := (List.range 32).map (fun x =>
      match slotPos dir pfar x with
      | some pos => if enum then 0 else s.carriage q r pos
      | none => 0)
    let f := mkFrame h slots (carts.map CartReq.slot) hop pfar
    let sent : SentFrame := { cyc := s.cyc, tk := s.clk.tkHall, e := e, ftype := ftype, dir := dir, pfar := pfar,
                              low := s.rdB (F.RP_STAT_LOWRATE q), num := p.emitted, carts := carts.map some }
    let s := s.setPort q { p with txFrame := f, emitted := p.emitted + 1, enumCnt := if enum then p.enumCnt + 1 else p.enumCnt,
                                  sent := (sent :: p.sent).take 24 }
    let s := s.wr (F.RP_STAT_PFAR q) pfar
    if enum then s
    else (List.range 32).foldl (fun s x =>
      match slotPos dir pfar x with
      | some pos => { s with downlinks := Store.put s.downlinks 0 (32 * r + pos) (nth slots x 0) }
      | none => s) s

/-- A port at the low-power rate emits at every m-th cycle start (R54). -/
def State.rateTurn (s : State) (q : Nat) : Bool :=
  if s.rdB (F.RP_STAT_LOWRATE q) then
    let m := ceilDiv (ns 3900) (max 1 s.cycT)
    (s.cyc + 2 ^ 32 - (s.port q).lowFrom) % 2 ^ 32 % m == 0
  else true

/-- The far segment of a whole-unit ring leaves for the partner's port (R222). -/
def State.relay (s : State) (r : Nat) (carts : List CartReq) : State :=
  let dir := 1 - s.dirOf
  let q := 32 + r
  let p := s.port q
  let pfar := match p.rlb with | some x => x | none => if dir = 1 then 0 else 31
  let hop := if dir = 0 then 0 else s.topPos r
  let slots := (List.range 32).map (fun x =>
    match slotPos dir pfar x with
    | some pos => s.carriage r r pos
    | none => 0)
  let sent : SentFrame := { cyc := s.cyc, tk := s.clk.tkHall, e := s.clk.tkHall, ftype := ftControl, dir := dir,
                            pfar := pfar, low := s.rdB (F.RP_STAT_LOWRATE r), num := p.emitted, carts := carts.map some }
  let s := s.setPort q { p with emitted := p.emitted + 1, sent := (sent :: p.sent).take 24 }
  let hub := s.rd F.GEN_TOPO_HUB_ID
  s.stkSend (if hub % 2 = 0 then hub + 1 else hub - 1)
    (.relayDn (Fin.ofNat 32 r) dir (s.blockFrame r r) (s.commitFrame r) (s.landFrame r r) pfar hop slots
      (carts.map CartReq.slot) (s.rd F.STK_EPOCH_EPOCH))

/-- The frames of ring `r` at the present cycle start; `off`: the emission offset of each port in time units. -/
def State.emitRing (off : Nat → Time) (s : State) (r : Nat) : State :=
  let st := s.pst r
  -- a transmitter whose receive lane has no lock sends LINK_FAULT in place of frames (R185)
  let near := s.roleOf r == 0 && (st == 2 || st == 3 || st == 5) && s.rateTurn r && s.rdB (F.RP_STAT_LOCK r)
  let fq := s.farSeg r
  let far := match fq with
    | some q => if q < 32 then s.pst q == 4 && s.rateTurn q else s.rateTurn r && !s.farEmpty r
    | none => false
  if !near && !far then s
  else
    let x := s.placeCarts r near far
    let s := x.1
    let dir := s.dirOf
    let s := if !near then s
      else
        let enum := st == 2
        let pfar := if enum then (if dir = 1 then 0 else 31) else s.rd (F.RP_STAT_PFAR r)
        let hop := if dir = 0 then 0 else if (s.port r).table then s.topPos r else 31
        s.emit r r (s.clk.tkHall + off r) enum dir pfar hop x.2.near
    match fq with
    | some q =>
      if !far then s
      else if q < 32 then
        s.emit q r (s.clk.tkHall + off q) false (1 - dir) (s.rd (F.RP_STAT_PFAR q)) (s.topPos r) x.2.far
      else s.relay r x.2.far
    | none => s

/-! Splits (R219, R220, R223). -/

/-- Ring `r` splits: the port beyond the break emits a segment of its own. -/
def State.splitRing (s : State) (r : Nat) : State :=
  let s := s.updPort r (fun p => { p with splitTrig := none })
  if s.split r || s.dupMode = 0 then s
  else
    let s := (s.wrB (F.RP_STAT_SPLIT r) true).wrB (F.RP_ERR_SPLIT r) true
    let s := if s.dupMode = 1 then
        let q := r + 1
        let s := (s.wrB (F.RP_STAT_SPLIT q) true).wr (F.RP_STAT_PFAR q) 0
        let s := s.wr (F.GEN_RING_DLV_BASE_J q) 6
        (s.updPort q (fun p => { p with dFresh := true, sent := [], rlb := none })).showIdle q
      else s.setPort (32 + r) {}
    let s := s.updPort r (fun p => { p with rlb := none })
    (s.live (0x107 + 8 * r) true).updLeads

/-- Every ring whose trigger is 200 ns old splits at this cycle start. -/
def State.splitDue (s : State) : State :=
  (List.range 32).foldl (fun s r =>
    match (s.port r).splitTrig with
    | some t => if t + ns 200 ≤ s.clk.tk then s.splitRing r else s
    | none => s) s

end Sys2Proof.Machine
end

