-- ==== Sys2Proof/Machine/RingTrain.lean ====
section
/-!
DEFINITION. Machine/RingTrain.lean: what a ring port does with an inbound frame: check fields, return word, delivery and
return, carts, enumeration answers, uplinks, forwarded codes, time errors (R56 to R68, R206 to R216, R221, R237, R238,
R242, R320, R378), and the gallery deadline (R63 to R68).
-/

namespace Sys2Proof.Machine

/-! Ends of carts (R207, R414). -/

/-- Completions of a cart ring leave in the order of its carts to one port (R414). -/
def State.drainCarts (fuel : Nat) (s : State) (n port : Nat) : State :=
  match fuel with
  | 0 => s
  | f + 1 =>
    let h := s.hring n
    match h.flight.find? (fun x => x.port == port) with
    | some ⟨q, pt, head, some (cid, st, res, cyc, rep, raddr)⟩ =>
      let s := s.setHring n { h with flight := h.flight.filter (fun x => x.seq != q || x.port != pt) }
      let s := if raddr = 0 then s else { s with hostMem := writeBytes s.hostMem (raddr / 16 * 16) 16 rep.toNat }
      let s := s.putComplAt n head cid st res cyc
      let s := if (s.hring n).flight.isEmpty then s.ringIdle n else s
      State.drainCarts f s n port
    | _ => s

/-- A host cart has ended; `k`: the cycle of the reply frame, the present one without a reply (Table 8 of spec/13). -/
def State.hostCart (s : State) (r : Nat) (c : CartReq) (st res : Nat) (rep : Slot) (k : Nat) : State :=
  match c.who with
  | .cartRing m =>
    if c.mute then s
    else
      let n := 56 + m.val
      let s := s.updHring n (fun h => { h with flight := h.flight.map (fun x =>
        if x.seq = c.seq ∧ x.port = r then { x with res := some (c.cid, st, res, k, rep, c.raddr) } else x) })
      s.drainCarts 64 n r
  | _ => s

/-- RSTAT 0x0 of an IDENT quarter enters the cell table (R215, Tables 12 and 13). -/
def State.identQuarter (s : State) (r p quarter d : Nat) : State :=
  if quarter = 0 then (s.wr (F.RP_CELL_UIDL_UID r p) d).wr (F.RP_CELL_UIDH_UID r p) (d / 2 ^ 32)
  else if quarter = 1 then
    let s := (s.wr (F.RP_CELL_VER_VER_A r p) d).wr (F.RP_CELL_VER_VER_B r p) (d / 2 ^ 16)
    let s := (s.wr (F.RP_CELL_INFO_BTYPE r p) (bits d 38 2)).wr (F.RP_CELL_INFO_STEP r p) (bits d 40 4)
    let s := (s.wr (F.RP_CELL_INFO_ACT r p) (bits d 44 1)).wr (F.RP_CELL_INFO_VA r p) (bits d 45 1)
    s.wr (F.RP_CELL_INFO_VB r p) (bits d 46 1)
  else if quarter = 2 then (s.wr (F.RP_CELL_DIG_DIGEST r p) d).wr (F.RP_CELL_VPC_VPC r p) (d / 2 ^ 32)
  else (s.wr (F.RP_CELL_INFO_LOWP r p) (bits d 6 1)).wr (F.RP_CELL_INFO_SELFKEEP r p) (bits d 7 1)

/-- LIVE of the Tread time-error source as the counts of its cells stand (R242, R317). -/
def State.showTerrLive (s : State) : State :=
  let on := (List.range 32).any (fun r => (s.port r).terr.any (fun x => x.2 == 16))
  if on then s else s.wrB ⟨R.FLT_LIVE 0, 0x00E, 1⟩ false

/-- What the hub forgets of a cell whose Tread is admitted or replaced (R214, R215, R320, R443). -/
def State.forgetCell (s : State) (r p : Nat) : State :=
  let i := 32 * r + p
  let s := { s with flt := { s.flt with lastSeq := Store.del s.flt.lastSeq i },
                    recd := { s.recd with ups := Store.del s.recd.ups i } }
  (s.updPort r (fun x => { x with silent := Store.del x.silent p, terr := Store.del x.terr p,
                                  dHist := Store.del x.dHist p })).showTerrLive

/-- A Tread takes its ADMIT cart: its first code may have any SEQ, and a code repeated with the same SEQ still raises
nothing (R320); the marked SEQ is held as SEQ + 5. -/
def State.freeSeq (s : State) (r p : Nat) : State :=
  let i := 32 * r + p
  let l := Store.get s.flt.lastSeq 0 i
  if l = 0 ∨ 5 ≤ l then s else { s with flt := { s.flt with lastSeq := Store.put s.flt.lastSeq 0 i (l + 4) } }

def State.uidOf (s : State) (r p : Nat) : Nat := s.rd (F.RP_CELL_UIDL_UID r p) + 2 ^ 32 * s.rd (F.RP_CELL_UIDH_UID r p)

/-- The port's own carts. -/
def identCarts (p : Nat) : List CartReq :=
  (List.range 4).map (fun k => { who := .hubHw, own := true, op := opIdent, pos := p, arg := k })
def State.admitCart (s : State) (r p : Nat) : CartReq :=
  { who := .hubHw, own := true, op := opAdmit, pos := p, data := s.uidOf r p }

/-- A newcomer is at position `p` of ring `r` (R215). -/
def State.newcomer (s : State) (r p : Nat) : State :=
  if s.rd (F.RP_CELL_INFO_STATE r p) = 2 then s
  else (((s.forgetCell r p).wr (F.RP_CELL_INFO_STATE r p) 2).showTable r).presentCarts r (identCarts p)

/-- A reply to one of the port's own carts (R215, R217). -/
def State.ownReply (s : State) (r : Nat) (c : CartReq) (rep : Slot) : State :=
  if c.op = opAdmit then
    let was := (s.port r).admitting.contains c.pos
    let s := s.updPort r (fun p => { p with admitting := p.admitting.filter (fun x => x != c.pos) })
    if cRstat rep = 0 then ((s.freeSeq r c.pos).wr (F.RP_CELL_INFO_STATE r c.pos) 1).showTable r
    else if was then s.newcomer r c.pos else s
  else if c.op = opIdent then (if cRstat rep = 0 then s.identQuarter r c.pos (c.arg % 4) (cData rep) else s)
  else if c.op = opRate && decide (c.arg < 2) then
    let adm := s.rd (F.RP_ADM_MASK r)
    if adm &&& cData rep = adm then
      s.presentCarts r [{ who := .hubHw, own := true, op := opRate, arg := c.arg + 2 }]
    else s.wrB (F.RP_ERR_RATE_REF r) true
  else s

/-- The end of a core's cart enters inner queue `r`, as an item whose layout the spec does not give: a free value (log
entry 55). -/
def State.coreReply (s : State) (r : Nat) : State :=
  let x := s.tick.iqPush r s.free
  if x.2 then x.1.raise 0x0C7 else x.1

/-- A cart has no reply after its last attempt (R207): its requester is told. -/
def State.cartFailed (s : State) (r : Nat) (c : CartReq) : State :=
  let s := (s.wrB (F.RP_ERR_CART_FAIL r) true).incSat (F.RP_CNT_CART_FAILED r)
  let s := if c.own && c.op == opRate && decide (c.arg < 2) then
      s.wrB (F.RP_ERR_RATE_REF r) true
    else s
  let s := if c.own && c.op == opAdmit && (s.port r).admitting.contains c.pos then
      (s.updPort r (fun p => { p with admitting := p.admitting.filter (fun x => x != c.pos) })).newcomer r c.pos
    else s
  match c.who with
  | .core _ => if c.own then s else s.coreReply r
  | _ => s.hostCart r c 6 0 0 s.cyc

/-- The end of one attempt of a cart (R206, R207); a cart that is sent again is presented anew, before younger ones of its
requester. -/
def State.cartEnd (s : State) (r : Nat) (c : CartReq) (rep : Option Slot) (k : Nat) : State :=
  if c.isRtt then s
  else
    match rep with
    | some v =>
      if c.own then s.ownReply r c v
      else
        match c.who with
        | .cartRing _ => if cRstat v = 0 then s.hostCart r c 0 (cData v % 2 ^ 32) v k else s.hostCart r c 7 (cRstat v) v k
        | .core _ => s.coreReply r
        | _ => s
    | none =>
      if c.tries ≤ s.rd (F.RP_CFG_RETRY r) then
        let s := (s.incSat (F.RP_CNT_CART_RETRIES r)).count (0x060 + r)
        let again (x : CartReq) : Bool := !x.shown && x.tries != 0
        s.updPort r (fun p => { p with carts := p.carts.filter again ++ [{ c with both := false, shown := false }] ++
                                                p.carts.filter (fun x => !again x) })
      else s.cartFailed r c

/-- The two answers of a cart that went to both sides of a split ring (R221). -/
def mergeReply (c : CartReq) (a b : Option Slot) : Option Slot :=
  match a, b with
  | some x, some y =>
    if opMask c.op then
      some (sealCart (setBits (setBits x.toNat 32 32 (cData x % 2 ^ 32 ||| cData y % 2 ^ 32)) 64 32
        (cData x / 2 ^ 32 ||| cData y / 2 ^ 32)))
    else if cRstat x = 1 then some y else some x
  | some x, none => if opMask c.op || cRstat x == 1 then none else some x
  | none, some y => if opMask c.op || cRstat y == 1 then none else some y
  | none, none => none

/-- One side's answer. -/
def State.cartResult (s : State) (r : Nat) (c : CartReq) (rep : Option Slot) (k : Nat) : State :=
  if !c.both || (s.farSeg r).isNone then s.cartEnd r c rep k
  else
    match (s.port r).merge.find? (fun m => m.1.tag == c.tag && m.1.op == c.op) with
    | some m =>
      let s := s.updPort r (fun p => { p with merge := p.merge.filter (fun x => x.1.tag != c.tag || x.1.op != c.op) })
      s.cartEnd r c (mergeReply c m.2 rep) k
    | none => s.updPort r (fun p => { p with merge := p.merge ++ [(c, rep)] })

/-- The reply in position `c` of a frame to a request (R207). -/
def replyIn (f : Frame) (c : Nat) (q : CartReq) : Option Slot :=
  let v := cartOf f c
  if cartOk f c && cRpl v && cTag v == q.tag then some v else none

/-- The carts of one emitted frame are judged by the frame after it, or as without reply. -/
def State.judge (s : State) (r : Nat) (x : SentFrame) (f : Option Frame) (k : Nat) : State :=
  (List.range 8).foldl (fun s c =>
    match nth x.carts c none with
    | none => s
    | some q => s.cartResult r q (f.bind (fun f => replyIn f c q)) k) s

/-- The train of the frame with emission number `num` judges the carts of the frame before it. The carts of an earlier
frame, whose next train has not come, and those of a frame older by eight emissions have no reply (log entry 56). -/
def State.judgeCarts (s : State) (q r num : Nat) (f : Option Frame) (k : Nat) : State :=
  let p := s.port q
  let open_ (x : SentFrame) : Bool := x.carts.any Option.isSome
  let isPrev (x : SentFrame) : Bool := open_ x && f.isSome && x.num + 1 == num
  let old (x : SentFrame) : Bool := open_ x && (decide (x.num + 8 < p.emitted) || (f.isSome && decide (x.num + 1 < num)))
  let hit := p.sent.filter isPrev
  let dead := p.sent.filter (fun x => !isPrev x && old x)
  let s := s.setPort q { p with sent := p.sent.map (fun x => if isPrev x || old x then { x with carts := [] } else x) }
  let s := hit.foldl (fun s x => s.judge r x f k) s
  dead.reverse.foldl (fun s x => s.judge r x none s.cyc) s

/-! Enumeration (R209 to R214). -/

/-- The answer of position `p` in the slots of an ENUM frame, none without one. -/
def answerAt (dir pfar : Nat) (l : List Slot) (p : Nat) : Option Slot :=
  match posSlot dir pfar p with
  | some x => if upUP (nth l x 0) then some (nth l x 0) else none
  | none => none

/-- A position's entry of the cell table from its ENUM0 and ENUM1 answers (Table 24). -/
def State.tableEntry (s : State) (r p : Nat) (a0 a1 : Option Slot) (auto : Bool) : State :=
  match a0 with
  | none =>
    let s := [R.RP_CELL_UIDL r p, R.RP_CELL_UIDH r p, R.RP_CELL_VER r p, R.RP_CELL_DIG r p, R.RP_CELL_VPC r p,
      R.RP_CELL_INFO r p].foldl (fun (s : State) o => s.setReg o 0) s
    s.forgetCell r p
  | some v0 =>
    let v1 := (a1.getD 0).toNat
    let stays := s.admitted r p && s.uidOf r p == bits v0.toNat 0 64
    let newc := bitOf v0.toNat 111
    let s := if stays && !newc then s else s.forgetCell r p
    let s := s.identQuarter r p 0 (bits v0.toNat 0 64)
    let s := s.identQuarter r p 1 (bits v0.toNat 64 64)
    let s := s.identQuarter r p 2 (bits v1 0 64)
    let s := s.identQuarter r p 3 (bits v1 64 64)
    let s := (s.wr (F.RP_CELL_INFO_STATE r p) (if auto || stays then 1 else 2)).wrB (F.RP_CELL_INFO_POSERR r p) false
    if (auto || stays) && newc then
      (s.updPort r (fun x => { x with admitting := p :: x.admitting })).presentCarts r [s.admitCart r p]
    else s

/-- The enumeration of ring `r` is stable: the table is written and the port runs (R212, R214). -/
def State.enumDone (s : State) (r dir pfar : Nat) (e0 e1 : List Slot) : State :=
  let auto := !(s.port r).enumEver && s.rdB (F.RP_CFG_AUTO_ADMIT r)
  let s := (List.range 32).foldl (fun s p => s.tableEntry r p (answerAt dir pfar e0 p) (answerAt dir pfar e1 p) auto) s
  let s := s.updPort r (fun p => { p with table := true, enumEver := true, enumHist := [], enumCnt := 0, silent := [],
                                          terr := [], dHist := [], dFresh := true })
  let s := s.showTerrLive
  let s := (s.live (0x103 + 8 * r) false).live (0x106 + 8 * r) false
  ((s.showTable r).setPst r 3).wr (F.RP_STAT_PFAR r) (s.startPfar r) |>.updLeads

/-- The port halts on a fault of R213; its CONTROL frames serve the cells of the table it holds (R55). -/
def State.enumFault (s : State) (r : Nat) (f : Fld) (src : Nat) : State :=
  (((s.wrB f true).live (src + 8 * r) true).setPst r 5).wr (F.RP_STAT_PFAR r) (s.startPfar r)

/-- Two populated positions answer with one UID. -/
def sameUid (l : List Nat) : Bool :=
  match l with
  | [] => false
  | x :: r => r.contains x || sameUid r

/-- An ENUM answer comes back whole (R212, R213). -/
def State.enumAnswer (s : State) (r : Nat) (x : SentFrame) (f : Frame) : State :=
  let w := retOf f
  let slots := (List.range 32).map (slotOf f)
  let uids := (slots.filter upUP).map (fun v => bits v.toNat 0 64)
  if x.dir = 0 && decide (32 < retHop w) then s.enumFault r (F.RP_ERR_OVERPOP r) 0x104
  else if x.ftype = ftEnum0 && sameUid uids then s.enumFault r (F.RP_ERR_DUPUID r) 0x105
  else
    let l := ((x.num, x.ftype, slots, w) :: (s.port r).enumHist).take 4
    let s := s.updPort r (fun p => { p with enumHist := l })
    match l with
    | [(n1, t1, s1, w1), (n0, t0, s0, w0), (m1, u1, r1, v1), (m0, u0, r0, v0)] =>
      if n1 = n0 + 1 ∧ n0 = m1 + 1 ∧ m1 = m0 + 1 ∧ t0 = ftEnum0 ∧ t1 = ftEnum1 ∧ u0 = ftEnum0 ∧ u1 = ftEnum1 ∧
          s1 = r1 ∧ s0 = r0 ∧ w1 = v1 ∧ w0 = v0 ∧ (List.range 32).all (slotOk f) then
        s.enumDone r x.dir x.pfar s0 s1
      else s
    | _ => s

/-- 64 ENUM frames without a stable enumeration (R212). -/
def enumUnstable (r : Ring) (s : State) : State :=
  if s.pst r == 2 && decide (64 ≤ (s.port r).enumCnt) then s.live (0x103 + 8 * r) true else s

/-! Uplinks. -/

/-- A forwarded code of cell `i` (R319, R320). -/
def State.forwarded (s : State) (i fcode : Nat) : State :=
  if fcode = 0 then s
  else
    let seq := fcode / 1024
    let code := fcode % 1024
    let last := Store.get s.flt.lastSeq 0 i
    if last = seq + 1 ∨ last = seq + 5 then s
    else
      let s := { s with flt := { s.flt with lastSeq := Store.put s.flt.lastSeq 0 i (seq + 1) } }
      let s := if last ≠ 0 ∧ last < 5 ∧ seq ≠ last % 4 then s.raise 0x010 (some i) code else s
      if code = 0 ∨ 128 ≤ code then s.raise 0x011 (some i) code else s.raise (0x200 + code / 8) (some i) code

/-- A newer epoch in an uplink (R378). -/
def State.seeEpoch (s : State) (e : Nat) : State :=
  let d := (e + 2 ^ 16 - s.rd F.STK_EPOCH_EPOCH) % 2 ^ 16
  if d = 0 ∨ 2 ^ 15 ≤ d then s
  else if s.dupMode = 2 then
    (if s.rd F.STK_RED_STAT_STATE = 1 then { s with stk := { s.stk with fence := true } } else s)
  else { s with stk := { s.stk with newEpoch := some ((e + 1) % 2 ^ 16) } }

/-- Lane time from the first bit of a frame to the end of the CRC of slot `x`, in 2^-16 ns: 0.16 ns a bit at full rate
(R181, R186, R187). -/
def slotOffset (x : Nat) (low : Bool) : Time :=
  let b := 336 + 144 * x
  let n := 66 * ((b - 1) / 64) + 2 + (b - 1) % 64 + 1
  n * 1048576 / 100 * (if low then 4 else 1)

/-- Arrival of FRAME_START at the Tread that wrote an uplink, less E, by OUT_TS and the fixed slot offset (R197, R242). -/
def upArrival (x : SentFrame) (slot lag : Nat) (up : Slot) : Int :=
  (upOutTs up : Int) * 4096 - (lag : Int) * 4096 - slotOffset slot x.low

/-- b - a of an uplink enters the mean of its cell (R237). -/
def State.noteD (s : State) (q p : Nat) (x : SentFrame) (slot lag : Nat) (up : Slot) : State :=
  let d := ((upInTs up : Int) * 4096 - (lag : Int) * 4096 - upArrival x slot lag up).toNat
  s.updPort q (fun y => { y with dHist := Store.put y.dHist [] p ((d :: Store.get y.dHist [] p).take 256) })

/-- The port's own theta-hat of a cell (R237, R242): the asymmetry is the Tread's. -/
def State.portTheta (s : State) (q i : Nat) (x : SentFrame) (slot lag : Nat) (up : Slot) : Int :=
  let rbar : Int := s.rd (F.HT_RING_RTT_RTT q) * 256
  let l := Store.get (s.port q).dHist [] (i % 32)
  let dbar : Int := l.sum / max 1 l.length
  let kappa : Int := if upStatus up 27 then 0 else 1638400
  let d := s.tread i
  let eps : Int := (if x.dir = 0 then d.rdI F.T_HT_ASYM_N_ASYM else d.rdI F.T_HT_ASYM_F_ASYM) * 256
  upArrival x slot lag up - (rbar - dbar - kappa + eps) / 2

/-- Count of a cell's frames with theta above TERR_LIM (R242). -/
def State.noteTerr (s : State) (r p : Nat) (th : Int) : State :=
  let isOver := decide (s.rd F.HT_SERVO_TERR_LIM * 4096 < th.natAbs)
  let n := Store.get (s.port r).terr 0 p
  let m := if isOver then min 16 (n + 1) else 0
  let s := s.updPort r (fun x => { x with terr := Store.put x.terr 0 p m })
  if isOver && n == 15 then s.liveCell 0x00E (32 * r + p)
  else if !isOver && n == 16 then s.showTerrLive
  else s

/-- theta-hat of an admitted cell of a frame, once the port has broadcast a round trip; its size, 0 without one (R242). -/
def State.cellTheta (s : State) (q r p : Nat) (x : SentFrame) (slot lag : Nat) (up : Slot) : State × Nat :=
  if !s.admitted r p then (s, 0)
  else
    let s := s.noteD q p x slot lag up
    if s.rd (F.HT_RING_RTT_RTT q) = 0 then (s, 0)
    else
      let th := s.portTheta q (32 * r + p) x slot lag up
      (s.noteTerr r p th, th.natAbs)

/-- A cell of ring `r` is silent no more. -/
def State.speaks (s : State) (r p : Nat) : State :=
  let s := s.updPort r (fun x => { x with silent := Store.del x.silent p })
  if s.rd (F.RP_CELL_INFO_STATE r p) = 3 then
    let s := (s.wr (F.RP_CELL_INFO_STATE r p) 1).showTable r
    if s.rd (F.RP_SILENT_MASK r) = 0 then s.live (0x106 + 8 * r) false else s
  else s

/-- An admitted cell without a valid uplink in a frame that should have brought one (R216). -/
def State.misses (s : State) (r p : Nat) : State :=
  if s.rd (F.RP_CELL_INFO_STATE r p) != 1 then s
  else
    let n := Store.get (s.port r).silent 0 p + 1
    let s := s.updPort r (fun x => { x with silent := Store.put x.silent 0 p n })
    if n < 2 then s
    else ((s.wr (F.RP_CELL_INFO_STATE r p) 3).showTable r).liveCell (0x106 + 8 * r) (32 * r + p)

/-- The recorder takes the uplink of frame `k` of a cell, on time or late (R65, R443). -/
def State.noteUplink (s : State) (i k : Nat) (up : Slot) : State :=
  let l := Store.get s.recd.ups [] i
  let new := (l.filter (fun x => serialLt k x.1)) ++ [(k, sbits up 0 15)] ++ (l.filter (fun x => serialLt x.1 k))
  { s with uplinks := Store.put s.uplinks 0 i up, recd := { s.recd with ups := Store.put s.recd.ups [] i (new.take 8) } }

/-- A valid uplink of position `p` in frame `k` (R61, R65, R199, R215, R216, R320, R324, R378). -/
def State.takeUplink (s : State) (r p k : Nat) (up : Slot) : State :=
  let i := 32 * r + p
  let s := if upStatus up 25 && !(s.port r).admitting.contains p then s.newcomer r p else s
  let s := s.noteUplink i k up
  let s := s.speaks r p
  let s := s.wrB (F.RP_CELL_INFO_POSERR r p) (sbits up 120 1 == 1)
  let s := if sbits up 120 1 = 1 then s.wrB (F.RP_ERR_POSERR r) true else s
  let s := if upStatus up 30 then { s with flt := { s.flt with bypass := s.flt.bypass.filter (fun b => b.1 != i) } } else s
  let s := if upStatus up 24 then s.raise 0x00D (some i) else s
  let s := s.forwarded i (sbits up 32 12)
  s.seeEpoch (sbits up 64 16)

/-- Where the return word of a frame places position `p` (R216): between the port and the loop-back point. -/
def within (dir : Nat) (w : Nat) (p : Nat) : Bool :=
  retLbv w && (if dir = 0 then decide (p ≤ retLbpos w) else decide (retLbpos w ≤ p))

/-- One position of a CONTROL train (R64, R66, R189, R215, R216); the flag keeps the uplink. -/
def State.position (s : State) (q r : Nat) (x : SentFrame) (lag : Nat) (f : Frame) (p : Nat) :
    State × Option Slot × Nat :=
  match posSlot x.dir x.pfar p with
  | none => (s, none, 0)
  | some sl =>
    let st := s.rd (F.RP_CELL_INFO_STATE r p)
    let ok := slotOk f sl
    let up := slotOf f sl
    if ok && upUP up then
      let s := s.takeUplink r p x.cyc up
      let y := if q < 32 then s.cellTheta q r p x sl lag up else (s, 0)
      (y.1, if st = 0 then none else some up, y.2)
    else if st != 0 then
      let s := if ok then s.incSat (F.RP_CELL_ERR_UNWRIT r p)
        else (s.incSat (F.RP_CELL_ERR_CRCERR r p)).count (0x040 + r)
      (if within x.dir (retOf f) p then s.misses r p else s, none, 0)
    else (s, none, 0)

/-- Greatest theta of a frame into `HT_RING_TERR` (R242). -/
def State.showTerr (s : State) (q : Nat) (l : List (Nat × Nat)) : State :=
  if 32 ≤ q then s
  else
    let worst := l.foldl (fun m x => if m.1 < x.1 then x else m) (0, 0)
    let h := (worst :: (s.port q).terrHist).take 1024
    let s := s.updPort q (fun p => { p with terrHist := h })
    let top := h.foldl (fun m x => if m.1 < x.1 then x else m) (0, 0)
    (s.wr (F.HT_RING_TERR_TERR q) (min 4095 (top.1 / 4096))).wr (F.HT_RING_TERR_POS q) top.2

/-- The return word of a train: `RP_STAT`, PFAR of a split segment (R220), and split trigger (a) of R219. -/
def State.takeReturn (s : State) (q r w : Nat) : State :=
  let s := if s.split r && retLbv w then s.updPort q (fun p => { p with rlb := some (retLbpos w) }) else s
  if 32 ≤ q then s
  else
    let s := (s.wrB (F.RP_STAT_LBV q) (retLbv w)).wr (F.RP_STAT_LBPOS q) (retLbpos w)
    let s := s.wr (F.RP_STAT_CAUSE q) (retCause w)
    let s := if s.split r && retLbv w then s.wr (F.RP_STAT_PFAR q) (min 31 (retLbpos w)) else s
    if q = r && retLbv w && (retCause w == 1 || retCause w == 2) then s.splitTrigger r else s

/-- Gallery deadline of a frame whose cycle began at `tk` (R63). -/
def State.deadline (s : State) (tk : Time) : Time := tk + 2 * s.cycT - ns 450

/-- U_r of port `q` (R62, Table 12 of spec/02), rounded up to whole ns (DESIGN CHOICE, log entry 70). -/
def State.returned (s : State) (q : Nat) (tk : Time) : State :=
    let u := min 8191 (ceilDiv (s.clk.hall - tk) 65536)
    let l := (u :: (s.port q).retHist).take 1024
    let s := s.updPort q (fun p => { p with retHist := l })
    (s.wr (F.GEN_RING_RET_RET q) u).wr (F.GEN_RING_RET_RET_MAX q) (l.foldl max 0)

/-- R of R237 enters the mean of R238. -/
def State.noteRtt (s : State) (q k : Nat) (rtt : Time) : State :=
  s.updPort q (fun p => { p with rHist := (rtt :: p.rHist).take 256, rCyc := k })

/-- A CONTROL train. A relayed segment has no registers of its own: its U_r and D_r enter those of its ring (DESIGN CHOICE,
log entry 70), and D_r in whole ns is rounded up. -/
def State.controlTrain (s : State) (q r : Nat) (x : SentFrame) (lag : Nat) (f : Frame) : State :=
  let n := if q < 32 then q else r
  let late := (decide (s.deadline x.tk < s.clk.hall) || (s.port q).lateOf.contains x.cyc)
  let a := (List.range 32).foldl (fun (a : State × Store Slot × List (Nat × Nat)) p =>
    let y := a.1.position q r x lag f p
    (y.1, (match y.2.1 with | some v => a.2.1 ++ [(p, v)] | none => a.2.1), if y.2.2 = 0 then a.2.2 else a.2.2 ++ [(y.2.2, p)]))
    (s, [], [])
  let s := a.1.showTerr q a.2.2
  let ups := a.2.1
  let s := s.returned n x.tk
  let d := ups.foldl (fun m v => max m (upOutTs v.2)) 0
  let s := if ups.isEmpty then s else s.delivery n (ceilDiv d 16)
  s.updPort q (fun p => { p with trains := (⟨x.cyc, late, ups⟩ :: p.trains).take 8,
                                 lateOf := p.lateOf.filter (fun c => c != x.cyc) })

/-- What port `q` notes of a frame it receives: check fields that fail, and R (R189, R238). -/
def State.noteFrameIn (s : State) (q : Nat) (f : Frame) (hIn : Time) : State :=
  let s := if fcrcOk f then s else (s.wrB (F.RP_ERR_FCRC q) true).incSat (F.RP_CNT_CRC_FCRC q)
  if hcrcOk f then s.noteRtt q (headerOf f).cycle (hIn - (headerOf f).e) else s.incSat (F.RP_CNT_CRC_HCRC q)

/-- The standby's port computes theta-hat of the cells of a relayed train that it receives (R242). -/
def State.relayThetas (s : State) (q : Nat) (f : Frame) : State :=
  let h := headerOf f
  match (s.port q).sent.find? (fun x => x.cyc == h.cycle) with
  | none => s
  | some x =>
    let a := (List.range 32).foldl (fun (a : State × List (Nat × Nat)) p =>
      match posSlot x.dir x.pfar p with
      | none => a
      | some sl =>
        if slotOk f sl && upUP (slotOf f sl) then
          let y := a.1.cellTheta q q p x sl h.lag (slotOf f sl)
          (y.1, if y.2 = 0 then a.2 else a.2 ++ [(y.2, p)])
        else a) (s, [])
    a.1.showTerr q a.2

/-- An inbound frame of segment `q` of ring `r`, whose first bit came at hall time `hIn`; now it is complete. Frames return in
the order of their emission, so a frame whose HCRC fails, which the port counts, is the oldest that is out; its carriages
and carts have CRCs of their own. -/
def State.takeTrain (s : State) (q r : Nat) (f : Frame) (hIn : Time) : State :=
  let ok := hcrcOk f
  let h := headerOf f
  let s := if q < 32 then s.noteFrameIn q f hIn else s
  let sent := (s.port q).sent
  let hit := if ok then sent.find? (fun x => x.cyc == h.cycle && x.ftype == h.ftype && !x.back)
    else (sent.takeWhile (fun x => !x.back)).getLast?
  match hit with
  | none => s
  | some x =>
    let s := s.updPort q (fun p => { p with sent := p.sent.map (fun y => if y.num = x.num then { y with back := true } else y) })
    let s := (s.judgeCarts q r x.num (some f) x.cyc).takeReturn q r (retOf f)
    if x.ftype = ftControl then s.controlTrain q r x (if ok then h.lag else (x.e - x.tk + 2047) / 4096) f
    else if s.pst q = 2 && fcrcOk f then s.enumAnswer q x f
    else s

/-- The partner of a whole-unit pair. -/
def State.partner (s : State) : Nat := let h := s.rd F.GEN_TOPO_HUB_ID; if h % 2 = 0 then h + 1 else h - 1

/-- TRAIN_ARRIVAL: the first bit of the frame came at `tIn`, and the train is complete at `t` (R62). The standby's port
sends a train of a relayed segment back to the primary (R222). -/
def trainArrival (r : Ring) (f : Frame) (tIn t : Time) (s : State) : State :=
  let s := s.advance tIn
  let hIn := s.clk.hall
  let s := s.advance t
  if !frameStart f then s
  else if s.roleOf r == 2 then
    let s := s.noteFrameIn r f hIn
    (if hcrcOk f then s.relayThetas r f else s).stkSend s.partner (.relayUp r f)
  else s.takeTrain r (s.ringOfPort r) f hIn

/-- A relayed train reaches the primary (R222). -/
def relayUp (r : Ring) (f : Frame) (t : Time) (s : State) : State :=
  let s := s.advance t
  if (s.farSeg r) == some (32 + r.val) then
    (s.wr (F.RP_RELAY_IN_LAG r) (min 4095 (250 + s.rd F.STK_PAIR_TSTK))).takeTrain (32 + r.val) r f s.clk.hall
  else s

/-! The gallery deadline (R63 to R68). -/

/-- Ring port `n` enters the late mask of frame `k` for the recorder. -/
def State.markLate (s : State) (k n : Nat) : State :=
  let m := ofBits (bitList (Store.get s.recd.lates 0 k) 32 ++ [n])
  { s with recd := { s.recd with lates := Store.put s.recd.lates 0 k m } }

/-- The train of frame `k` of segment `q` is late (R64, R65, R68); it counts at port `n`. -/
def State.lateTrain (s : State) (k q n : Nat) : State :=
  let s := ((s.incSat (F.GEN_RING_LATE_COUNT n)).incSat (F.GEN_RING_LATE_RUN n)).count (0x020 + n)
  let s := s.updPort q (fun p => { p with lateOf := (k :: p.lateOf).take 8 })
  let s := s.markLate k n
  let lim := max 1 (s.erd F.GEN_CYC_CTRL_LATE_LIM)
  if lim ≤ s.rd (F.GEN_RING_LATE_RUN n) then s.live (0x102 + 8 * n) true else s

/-- Frame `k` of segment `q` of ring `r` is judged: a CONTROL train that is not complete is late, at either rate. -/
def State.judgeLate (s : State) (k q r : Nat) : State :=
  let n := if q < 32 then q else r
  if !(s.port q).sent.any (fun x => x.cyc == k && x.ftype == ftControl) then s
  else if (s.port q).trains.any (fun t => t.cyc == k && !t.late) then
    (s.wr (F.GEN_RING_LATE_RUN n) 0).live (0x102 + 8 * n) false
  else s.lateTrain k q n

/-- The cells of ring `r` take the data of frame `k`, or keep what they have, marked stale (R64, R66). -/
def State.feedGallery (s : State) (k r : Nat) : State :=
  let segs := match s.farSeg r with | some q => [r, q] | none => [r]
  let look (p : Nat) : Option (Nat × Time × Slot) :=
    segs.findSome? (fun q =>
      match (s.port q).trains.find? (fun t => t.cyc == k && !t.late) with
      | some t =>
        match (s.port q).sent.find? (fun x => x.cyc == t.cyc), t.ups.find? (fun u => u.1 == p) with
        | some x, some u => some (t.cyc, x.tk, u.2)
        | _, _ => none
      | none => none)
  (s.populated r).foldl (fun s p =>
    match look p with
    | some (c, tk, up) => s.acceptCell (32 * r + p) c (tk - ns 200) up.toNat
    | none => s.staleCell (32 * r + p)) s

/-- GALLERY_DEADLINE for the frames of the previous cycle (R63). -/
def galleryDeadline (s : State) : State :=
  let s := s.advanceHall (match s.clk.starts with
    | _ :: p :: _ => s.deadline p.2.2
    | _ => s.clk.tkHall + s.cycT - ns 450)
  let k := s.prevCyc
  let s := (List.range 32).foldl (fun s q => s.judgeLate k q (s.ringOfPort q)) s
  let s := (List.range 32).foldl (fun s r => if (s.farSeg r) == some (32 + r) then s.judgeLate k (32 + r) r else s) s
  (List.range 32).foldl (fun s r => s.feedGallery k r) s

end Sys2Proof.Machine
end

