-- ==== Sys2Proof/Machine/Stack.lean ====
section
/-!
DEFINITION. Machine/Stack.lean: the Titajor ring and whole-unit redundancy (spec/12): messages, heartbeats, the newel, hall
time from the newel, stack-wide blocks, the exchange, snapshot and journal, takeover and replay, resume carriages.
-/

namespace Sys2Proof.Machine

/-! What the hub is in the stack. -/

def State.hubId (s : State) : Nat := s.rd F.GEN_TOPO_HUB_ID
def State.newel (s : State) : Nat := s.rd F.STK_STAT_NEWEL
def State.redSt (s : State) : Nat := s.rd F.STK_RED_STAT_STATE
def State.hub (s : State) (d : Nat) : HubRec := Store.get s.stk.hubs {} d
def State.setHub (s : State) (d : Nat) (h : HubRec) : State :=
  { s with stk := { s.stk with hubs := Store.put s.stk.hubs {} d h } }

/-- Heartbeats of hub `d` come. -/
def HubRec.present (h : HubRec) : Bool := h.cyc.isSome && h.missRun == 0

/-- Number of cycles from cycle `k` to the present one. -/
def State.since (s : State) (k : Nat) : Nat := (s.cyc + 2 ^ 32 - k % 2 ^ 32) % 2 ^ 32

/-- Any hub-scope source of severity `sev` or above, live (`latched` false) or latched. -/
def State.hubSource (s : State) (sev : Nat) (latched : Bool) : Bool :=
  (List.range 0x220).any (fun n =>
    match srcInfo n with
    | some i => i.scope == 2 && s.rdB ⟨(if latched then R.FLT_LATCH (n / 32) else R.FLT_LIVE (n / 32)), n % 32, 1⟩ &&
        decide (sev ≤ s.sevOf n)
    | none => false)

/-- The safety island is in SAFE or PERMIT. -/
def State.safAlive (s : State) : Bool := let x := s.rd F.SAF_STAT_STATE; x == 1 || x == 2

/-- HEALTHY (R392). -/
def State.healthy (s : State) : Bool :=
  s.rdB F.GEN_TOPO_MODE_OK && s.rdB F.CLK_STAT_DPLL_LOCK && s.safAlive && s.redSt != 4 && !s.hubSource 3 false

/-- The hub holds a latch of its own of severity `sev` (R392). -/
def State.ownLatch (s : State) (sev : Nat) : Bool := s.flt.reactions.any (fun r => r.sev == sev)

/-- `STK_CFGDIG` (R373): the active bank, the gallery's arm and cell control registers, and the listed configuration. -/
def State.cfgDig (s : State) : Nat :=
  let covered (o : Nat) : Bool :=
    o == R.GEN_CYC_LEN || (R.GEN_ARM_CFG 0 ≤ o && o < R.GEN_ARM_CFG 6) || (R.GEN_RING_ARM 0 ≤ o && o < R.GEN_RING_ARM 4) ||
      (R.STK_LAND_CFG 0 ≤ o && o < R.STK_LAND_CFG 6) || (List.range 6).any (fun a => o == R.ACE_ARM_CFG a) ||
      (R.GAL_ARM_CFG 0 ≤ o && o < R.GAL_ARM_CFG 0 + 0x180 && (match regRow o with | some r => r.rw != 0 | none => false)) ||
      (R.GAL_CELL_CTRL 0 ≤ o && o < R.GAL_CELL_CTRL 1024 && (o - R.GAL_CELL_CTRL 0) % 0x40 == 0)
  Config.cfgDigest (s.regs.filter (fun p => covered p.1) ++ (s.bank true).map (fun p => (2 ^ 32 + p.1, p.2))) % 2 ^ 32

/-! Redundancy states (R367, R368, Table 1). -/

def State.setRed (s : State) (st : Nat) : State :=
  let s := (s.wr F.STK_RED_STAT_STATE st).wrB F.GEN_TOPO_ACTIVE (st == 1)
  let s := { s with stk := { s.stk with fence := false, emitting := false, stbAt := if st = 2 then some s.cyc else none } }
  s.live 0x06A (st == 4)

/-- PARTNER_WAIT: the wait of an even hub is over 64 cycles after its links have gained lock, unless a heartbeat of an active
partner has ended it before (R368). Its links have lock when every lane has (DESIGN CHOICE, log entry 80). -/
def partnerWait (s : State) : State :=
  if s.dupMode != 2 || s.redSt != 0 then s
  else if s.hubId % 2 = 1 then s.setRed 2
  else
    match s.stk.linksAt with
    | some a => if a + 64 * s.cycT ≤ s.clk.now then s.setRed 1 else s
    | none => s

/-! READY (R374). -/

def State.baseOk (s : State) : Bool :=
  match s.stk.base with
  | some b => decide (s.since b.cyc ≤ 287)
  | none => false

def State.cfgMatch (s : State) : Bool :=
  match s.stk.base with
  | some b => b.dig == s.cfgDig
  | none => false

def State.readyNow (s : State) : Bool :=
  s.redSt == 2 && s.baseOk && s.rdB F.STK_RED_STAT_JRNL_OK && s.cfgMatch && s.rdB F.HT_STAT_LOCK && s.safAlive &&
    (List.range 32).all (fun q => !s.rdB (F.RP_CFG_EN q) || s.pst q == 4) && !s.hubSource 2 true

/-- `STK_RED_STAT` follows its conditions, and the hold time of R386 runs. -/
def State.showReady (s : State) : State :=
  let rdy := s.readyNow
  let par := (s.hub s.partner).present
  let s := ((s.wrB F.STK_RED_STAT_READY rdy).wrB F.STK_RED_STAT_BASE_OK s.baseOk).wrB F.STK_RED_STAT_PARTNER (par && s.dupMode == 2)
  let s := if s.stk.base.isSome then s.wrB F.STK_RED_STAT_CFG_MATCH s.cfgMatch else s.wrB F.STK_RED_STAT_CFG_MATCH false
  let now := s.clk.now
  { s with stk := { s.stk with readyAt := if rdy && par then s.stk.readyAt.orElse (fun _ => some now) else none } }

/-! Presence and the newel (R392 to R394). -/

/-- `STK_HUBS`, `STK_STAT`, 0x069 and 0x000 follow the heartbeats. The spec does not say when the duplicate-hub condition of
R15 ends: here, once 4 cycles have passed without a heartbeat that carries the own number (DESIGN CHOICE, log entry 78). -/
def State.showHubs (s : State) : State :=
  let me := s.hubId
  let pres (d : Nat) : Bool := d == me || (s.hub d).present
  let set := (List.range 16).filter pres
  let others := set.filter (fun d => d != me)
  let recent (x : Option Nat) : Bool := match x with | some k => decide (s.since k < 4) | none => false
  let s' := (s.wr F.STK_HUBS_PRESENT (ofBits set)).wr F.STK_STAT_NHUBS set.length
  let s' := s'.wr F.STK_HUBS_FENCED (ofBits ((List.range 16).filter (fun d =>
    if d = me then s.redSt == 4 else (s.hub d).cyc.isSome && (s.hub d).hb.fenced)))
  let s' := s'.wrB F.STK_STAT_RING_A (!others.isEmpty && others.all (fun d => recent (s.hub d).atA))
  let s' := s'.wrB F.STK_STAT_RING_B (!others.isEmpty && others.all (fun d => recent (s.hub d).atB))
  let lost (d : Nat) : Bool :=
    let h := s.hub d
    d != me && decide (4 ≤ h.missRun) && (match h.cyc with | some k => decide (s.since k < 1024) | none => false)
  let s' := s'.live 0x069 ((List.range 16).any lost)
  match s.stk.dupAt with
  | some k =>
    if s.since k < 4 then s' else { (s'.live 0x000 false) with stk := { s'.stk with dupAt := none } }
  | none => s'

/-- The newel in force is shown. -/
def State.showNewel (s : State) (n : Nat) : State :=
  let me := n == s.hubId
  ((s.wr F.STK_STAT_NEWEL n).wrB F.STK_STAT_IS_NEWEL me).wrB F.HT_STAT_NEWEL me

/-- The newel that R394 names; none without a candidate. -/
def State.electNewel (s : State) : Option Nat :=
  let me := s.hubId
  let cand (d : Nat) : Bool := if d = me then s.healthy else (s.hub d).present && (s.hub d).hb.healthy
  let pref (d : Nat) : Bool := if d = me then s.rdB F.GEN_TOPO_NEWEL_PREF else (s.hub d).hb.pref
  let hold := max 1 (s.rd F.STK_CFG_NEWEL_HOLD) * second
  let held (d : Nat) : Bool :=
    match (if d = me then s.stk.candAt else (s.hub d).candAt) with
    | some t => decide (t + hold ≤ s.clk.now)
    | none => false
  let cands := (List.range 16).filter cand
  let n := s.newel
  if cand n && (pref n || !cands.any pref) then some n
  else (cands.find? (fun d => pref d && held d)).orElse (fun _ => cands.head?)

/-- No other hub has been heard since reset: a hall of one hub. -/
def State.alone (s : State) : Bool := (List.range 16).all (fun d => d == s.hubId || (s.hub d).cyc.isNone)

/-- Newel determination of a cycle (R394): a hub that finds itself newel names itself. A hall of one hub is its own
newel (Architecture, topology), so a hub that has heard no other takes itself as the present newel. -/
def State.determineNewel (s : State) : State :=
  let now := s.clk.now
  let s := { s with stk := { s.stk with candAt := if s.healthy then s.stk.candAt.orElse (fun _ => some now) else none } }
  let s := s.showNewel (if s.alone then s.hubId else s.newel)
  match s.electNewel with
  | none => s
  | some n =>
    if n = s.hubId ∧ n ≠ s.newel ∧ s.stk.change.isNone then
      { s with stk := { s.stk with change := some (n, (s.cyc + 16) % 2 ^ 32) } }
    else s

/-- NEWEL_CHANGE: the change that is due takes effect. -/
def newelChange (s : State) : State :=
  match s.stk.change with
  | some (n, k) =>
    if 2 ^ 31 ≤ s.since k then s
    else (({ s with stk := { s.stk with change := none } }).showNewel n).raise 0x06D
  | none => s

/-! Stack-wide blocks (R326, R398). -/

/-- A block of hub `d` is in force from now. -/
def State.holdBlock (s : State) (d : Nat) (fresh : Bool) : State :=
  let old := s.flt.stackBlk.find? (fun b => b.hub == d)
  let t := match old with | some b => b.t | none => s.clk.now
  let age := if fresh then 0 else match old with | some b => b.age | none => 4
  let s := { s with flt := { s.flt with stackBlk := s.flt.stackBlk.filter (fun (b : StackBlock) => b.hub != d) ++ [(⟨d, age, t⟩ : StackBlock)] } }
  s.wrB F.FLT_STAT_HALL_BLK true

/-- The newel's mask of hubs with HBLK = 1. -/
def State.hallBlkMask (s : State) : Nat :=
  ofBits ((List.range 16).filter (fun d =>
    if d = s.hubId then s.ownLatch 3 || s.ownLatch 4 else (s.hub d).hb.hblk && decide ((s.hub d).missRun < 64)))

/-- At a cycle start the blocks received age, and those that R398 holds no longer end. -/
def State.ageBlocks (s : State) : State :=
  let n := s.newel
  let hall := if n = s.hubId then s.hallBlkMask != 0
    else (s.hub n).cyc.isSome && (s.hub n).hb.hallblk != 0 && decide ((s.hub n).missRun < 64)
  let aged := s.flt.stackBlk.map (fun (b : StackBlock) => { b with age := b.age + 1 })
  let keep (b : StackBlock) : Bool :=
    hall || decide (b.age < 4) || ((s.hub b.hub).hb.hblk && decide ((s.hub b.hub).missRun < 64))
  ({ s with flt := { s.flt with stackBlk := aged.filter keep } }).refreshStat

/-- A message of hub `d` leaves again on both rings, as it came (R398). -/
def State.resend (s : State) (d cyc : Nat) (body : TitBody) : State :=
  (s.titSend ⟨d, 0x1F, 15, false, cyc, body⟩).titSend ⟨d, 0x1F, 15, true, cyc, body⟩

/-- BLOCK or TRIP that hub `d` sent in cycle `cyc` arrives; the newel resends it on both rings (R327, R398). Its copies carry
the same sender, type and cycle, and are one event of source 0x06F (R317; DESIGN CHOICE, log entry 77). A message that returns
to its sender is discarded (R389). -/
def State.stackMsg (s : State) (d : Nat) (trip : Bool) (cyc : Nat) : State :=
  if d = s.hubId then s
  else
    let seen := s.flt.stackSeen.contains (d, trip, cyc)
    let s := if seen then s else
      ({ s with flt := { s.flt with stackSeen := ((d, trip, cyc) :: s.flt.stackSeen).take 64 } }).raise 0x06F none d
    let s := s.holdBlock d true
    let s := if s.isNewel then s.resend d cyc (if trip then .trip else .block) else s
    if trip then { s with saf := { s.saf with tripReq := true, collReq := true } } else s

/-! Heartbeats. -/

/-- The hub's own heartbeat. -/
def State.ownHeartbeat (s : State) (age : Time → Nat) : Heartbeat :=
  let st := s.redSt
  let newel := s.isNewel
  { role := st, active := s.rdB F.GEN_TOPO_ACTIVE, ready := s.rdB F.STK_RED_STAT_READY, fenced := st == 4,
    healthy := s.healthy, epoch := s.rd F.STK_EPOCH_EPOCH, pref := s.rdB F.GEN_TOPO_NEWEL_PREF,
    newel := (match s.stk.change with | some (n, _) => if n = s.hubId then n else s.newel | none => s.newel),
    hblk := s.ownLatch 3 || s.ownLatch 4, htrip := s.ownLatch 4, hallblk := if newel then s.hallBlkMask else 0,
    exDiv := if newel then max 1 (s.rd F.STK_EX_CFG_DIV) else 1,
    tb := ofBits (s.recd.tbus.map Prod.fst), tbAge := s.recd.tbus.map (fun x => age x.2) }

/-- HEARTBEAT_SEND, at t_k + 100 ns (R392, R448). -/
def heartbeatSend (s : State) : State :=
  let s := s.advanceHall (s.clk.tkHall + ns 100)
  let now := s.clk.now
  let h := s.ownHeartbeat (fun t => (now - t) / 65536)
  let s := s.stkSend 0x1F (.heartbeat h)
  { s with recd := { s.recd with tbus := [] } }

/-- The ring on which messages of hub `d` count: fewer hops, ring A on a tie, the other while that path is broken. -/
def State.nearRing (s : State) (d : Nat) : Bool :=
  let a := s.pathHops false d
  let b := s.pathHops true d
  if a = 0 then b != 0 else b != 0 && decide (b < a)

/-- Trigger-bus lines of a heartbeat fire at their origin (R448). -/
def State.busLines (s : State) (d : Nat) (h : Heartbeat) : State :=
  let at_ := s.clk.hall - ns (s.rd (F.STK_DLY_DLY d))
  let lines := bitList h.tb 4
  let r := (List.range lines.length).foldl (fun (r : State × List Nat) j =>
    let q := (r.1.pulseLine (nth lines j 0)).fireOne (4 + nth lines j 0) (at_ - ns (nth h.tbAge j 0))
    (q.1, r.2 ++ q.2)) (s, [])
  r.1.raiseAll 3 r.2

/-- The first copy of a heartbeat: its arrival after t_k + 100 ns of its cycle (R393). -/
def State.noteArrival (s : State) (d cyc : Nat) : State :=
  let h := s.hub d
  match s.clk.starts.find? (fun c => c.1 == cyc) with
  | none => s
  | some c =>
    if h.lats.any (fun x => x.1 == cyc) then s
    else
      let lat := (s.clk.hall - (c.2.2 + ns 100)) / 65536
      (s.setHub d { h with lats := (cyc, lat) :: h.lats }).wr (F.STK_HB_LAT_LAT d) (min 4095 (max lat (s.rd (F.STK_HB_LAT_LAT d))))

/-- `STK_HB_LATd`: the largest arrival of the latest 1,024 cycles (R393). -/
def State.showLats (s : State) : State :=
  (List.range 16).foldl (fun (s : State) d =>
    let h := s.hub d
    if h.lats.isEmpty then s
    else
      let l := h.lats.filter (fun x => decide (s.since x.1 < 1024))
      (s.setHub d { h with lats := l }).wr (F.STK_HB_LAT_LAT d) (min 4095 (l.foldl (fun m x => max m x.2) 0))) s

/-- Hop counts and delays of the path on which a heartbeat came. -/
def State.notePath (s : State) (d : Nat) (ringB : Bool) (hops dly : Nat) : State :=
  let h := s.hub d
  let s := s.setHub d (if ringB then { h with atB := some s.cyc } else { h with atA := some s.cyc })
  let s := if ringB then { s with stk := { s.stk with hopB := Store.put s.stk.hopB 0 d hops } }
    else { s with stk := { s.stk with hopA := Store.put s.stk.hopA 0 d hops } }
  if s.nearRing d != ringB then s
  else
    let s := s.wr (F.STK_DLY_DLY d) (min 4095 dly)
    if s.dupMode = 2 ∧ d = s.partner then
      ((s.wr F.STK_PAIR_TSTK (min 4095 dly)).wr F.STK_PAIR_HOPS hops).wrB F.STK_PAIR_RING ringB
    else s

/-- What a heartbeat of the partner means for the pair (R368, R371, R378). -/
def State.partnerBeat (s : State) (d : Nat) (old hb : Heartbeat) : State :=
  if s.dupMode != 2 || d != s.partner then s
  else
    let x := (hb.epoch + 2 ^ 16 - s.rd F.STK_EPOCH_EPOCH) % 2 ^ 16
    let s := if s.redSt = 1 && hb.active && x != 0 && decide (x < 2 ^ 15) then
        { s with stk := { s.stk with fence := true } } else s
    let s := if hb.role = 2 ∧ old.role ≠ 2 then { s with stk := { s.stk with tableSent := [] } } else s
    if s.redSt = 0 && s.hubId % 2 == 0 && hb.active then s.setRed 2 else s

/-- A heartbeat of hub `d` arrives on a ring, `hops` away, after a measured one-way delay of `dly` ns. -/
def heartbeat (d : Hub) (ringB : Bool) (hops dly : Nat) (hb : Heartbeat) (cyc : Nat) (t : Time) (s : State) : State :=
  let s := s.advance t
  if d.val = s.hubId then ({ s with stk := { s.stk with dupAt := some s.cyc } }).live 0x000 true
  else
    let s := (s.noteArrival d cyc).notePath d ringB hops dly
    let h := s.hub d
    let first := !(h.cyc == some cyc)
    let now := s.clk.now
    let s := s.setHub d { h with hb := hb, cyc := some cyc, missRun := 0,
                                 candAt := if hb.healthy then h.candAt.orElse (fun _ => some now) else none }
    let s := s.partnerBeat d h.hb hb
    let s := if d.val = s.newel then { s with stk := { s.stk with exDiv := max 1 hb.exDiv } } else s
    let s := if hb.newel = d.val ∧ d.val ≠ s.newel ∧ s.stk.change.isNone then
        { s with stk := { s.stk with change := some (d.val, (cyc + 16) % 2 ^ 32) } } else s
    let s := if hb.hblk then s.holdBlock d false else s
    let s := if d.val = s.newel ∧ hb.hallblk ≠ 0 then s.holdBlock d false else s
    let s := if s.nearRing d == ringB && (first || hb.tb != 0) then s.busLines d hb else s
    s.showHubs

/-! Takeover (R380, R381). -/

/-- The standby enters TAKEOVER, or cannot. -/
def State.takeOver (s : State) (kf : Nat) (revert : Bool) : State :=
  if s.readyNow then
    let s := s.setRed 3
    { s with stk := { s.stk with take := some ⟨1, kf % 2 ^ 32, revert⟩, takeAt := none, reverting := false, carry := 0 } }
  else { (s.wrB F.STK_ERR_NO_TAKE true) with stk := { s.stk with takeAt := none, reverting := false } }

/-- Both kinds of evidence are missing for cycles k - 1 and k. -/
def State.takeCheck (s : State) (k : Nat) : State :=
  if s.redSt != 2 then s
  else
    let prev := (k + 2 ^ 32 - 1) % 2 ^ 32
    let both (c : Nat) : Bool := s.stk.feMiss.contains c && s.stk.hbMiss.contains c
    if both k && both prev then s.takeOver prev false
    else if both k && both ((k + 1) % 2 ^ 32) then s.takeOver k false
    else s

/-- HEARTBEAT_MISSING: the heartbeat of cycle `k` of hub `d` has not come by its deadline (R393). -/
def heartbeatMissing (d : Hub) (k : Nat) (s : State) : State :=
  let s := if k = s.cyc then s.advanceHall (s.clk.tkHall + ns (300 + s.rd (F.STK_HB_LAT_LAT d))) else s
  let h := s.hub d
  if d.val = s.hubId || h.cyc.isNone || h.cyc == some k then s
  else
    let n := h.missRun + 1
    let s := s.setHub d { h with missRun := n, candAt := none }
    let s := if s.dupMode = 2 ∧ d.val = s.partner then
        let s := s.count 0x00E
        let s := { s with stk := { s.stk with hbMiss := (k :: s.stk.hbMiss).take 4, readyAt := none } }
        s.takeCheck k
      else s
    s.showHubs

/-! Far-end copies and relays (R218, R222, R380, R383). -/

/-- The landing entry that a carriage brings: local index, cycle and entry. -/
def landingOf (i k : Nat) (v : Slot) : Option (Nat × Nat × Word) :=
  let chunk := sbits v 64 32
  let c0 := k + (sbits v 96 8 + 256 - k % 64) % 64
  if sbits v 104 1 = 1 ∧ c0 / 64 % 64 = chunk / 2 ^ 26 then some (i, c0 % 2 ^ 32, BitVec.ofNat 32 (chunk % 2 ^ 26)) else none

/-- The standby keeps the commands of a frame of ring `r`. -/
def State.seeFrame (s : State) (r k : Nat) (tHat : Time) (baseJ : Nat) (block : Bool) (cars : List (Nat × Slot)) : State :=
  if s.redSt != 2 then s
  else
    let new : Seen := ⟨r, k, tHat, baseJ, block, cars⟩
    let known := cars.foldl (fun m x =>
      match landingOf x.1 k x.2 with
      | some (i, c, w) => Store.put m (0, 0) (64 * i + c % 64) (c, w)
      | none => m) s.stk.known
    let s := { s with stk := { s.stk with known := known } }
    { s with stk := { s.stk with seen := s.stk.seen.filter (fun x => decide (s.since x.cyc ≤ 320)) ++ [new] } }

/-- The header of a far-end copy is accepted (R192): HCRC, FTYPE, and for CONTROL an epoch that is not older than the hub's
own (DEDUCED from R376, log entry 71). -/
def State.headerAccepted (s : State) (f : Frame) : Bool :=
  let h := headerOf f
  frameStart f && hcrcOk f && decide (1 ≤ h.ftype) && decide (h.ftype ≤ 3) &&
    (h.ftype != ftControl || decide ((h.epoch + 2 ^ 16 - s.rd F.STK_EPOCH_EPOCH) % 2 ^ 16 < 2 ^ 15))

/-- The copy of frame `k` has come to the port. -/
def Port.feSeen (p : Port) (k : Nat) : Bool := p.feHist.any (fun x => x.1 == k)

/-- FAR_END_COPY_ARRIVAL: a far-end copy reaches port `q` at `t`. -/
def farEndCopyArrival (q : Ring) (f : Frame) (t : Time) (s : State) : State :=
  let s := s.advance t
  if s.pst q != 4 || !s.headerAccepted f then s
  else
    let h := headerOf f
    let p := s.port q
    let lat := (s.clk.hall - (match s.clk.starts.find? (fun c => c.1 == h.cycle) with | some c => c.2.2 | none => s.clk.tkHall)) / 65536
    let l := (h.cycle, lat) :: p.feHist.filter (fun x => decide ((h.cycle + 2 ^ 32 - x.1) % 2 ^ 32 < 1024))
    let s := s.setPort q { p with feHist := l }
    let s := s.wr (F.RP_FE_LATEST q) (min 8191 (l.foldl (fun m x => max m x.2) 0))
    let pfar := retPfar (retOf f)
    let cars := (List.range 32).filterMap (fun x =>
      match slotPos h.dir pfar x with
      | some pos => if slotOk f x then some (32 * s.ringOfPort q + pos, slotOf f x) else none
      | none => none)
    if s.roleOf q = 2 ∧ h.ftype = ftControl then s.seeFrame q h.cycle h.tHat h.baseJ h.block cars else s

/-- FAR_END_MISSING: the far-end copy of frame `k` has not come to port `q` (R218, R219, R380). The standby of a whole-unit
pair reports it to the primary; at a port with the primary role the command is the arrival of that report. -/
def farEndMissing (q : Ring) (k : Nat) (s : State) : State :=
  if s.roleOf q = 0 && s.dupMode == 2 then s.splitTrigger q
  else if s.pst q != 4 || (s.port q).feSeen k then s
  else
    let s := if k = s.cyc then s.advanceHall (s.clk.tkHall + ns (200 + s.rd (F.RP_FE_LATEST q))) else s
    let s := (s.incSat (F.RP_FE_MISS q)).wrB (F.RP_ERR_FE_MISS q) true
    if s.roleOf q = 1 then s.splitTrigger (s.ringOfPort q)
    else if s.roleOf q = 2 ∧ s.redSt = 2 then
      let far := (List.range 32).filter (fun p => s.pst p == 4)
      let top := far.foldl (fun m p => max m (s.rd (F.RP_FE_LATEST p))) 0
      let seen := far.any (fun p => (s.port p).feSeen k) || s.stk.relayCyc == some k
      let s := s.stkSend s.partner (.copyMissing q k)
      if s.rd (F.RP_FE_LATEST q) = top && !seen then
        ({ s with stk := { s.stk with feMiss := (k :: s.stk.feMiss).take 4 } }).takeCheck k
      else s
    else s

/-- RELAY_DN: the standby emits a relayed segment on its port of the same number, at `t` (R222). -/
def relayDn (r : Ring) (dir : Nat) (block commit land : Bool) (pfar hop : Nat) (cars carts : List Slot) (epoch k : Nat)
    (t : Time) (s : State) : State :=
  let s := s.advance t
  let tk := match s.clk.starts.find? (fun c => c.1 == k) with | some c => c.2.2 | none => s.clk.tkHall
  let d := s.clk.hall - tk
  if s.roleOf r != 2 || s.pst r != 4 || decide (16383 * 4096 < d) then s
  else
    let h : Header :=
      { ftype := ftControl, dir := dir, block := block || s.tokenBlock r s.clk.tk, commit := commit,
        land := land && !s.tokenBlock r s.clk.tk, baseJ := s.rd (F.GEN_RING_DLV_BASE_J r), lag := (d + 2047) / 4096,
        cycle := k, epoch := epoch, e := s.clk.hall }
    -- the port's own broadcast takes a position that no request takes (R238)
    let p := s.port r
    let mine := (p.carts.filter CartReq.isRtt).take (8 - carts.length)
    let f := mkFrame h cars (carts ++ mine.map CartReq.slot) hop pfar
    let sent : SentFrame := { cyc := k, tk := tk, e := s.clk.hall, ftype := ftControl, dir := dir, pfar := pfar,
                              low := s.rdB (F.RP_STAT_LOWRATE r), num := p.emitted }
    let s := s.setPort r { p with txFrame := f, emitted := p.emitted + 1, sent := (sent :: p.sent).take 24,
                                  relayed := some (k, dir), carts := if mine.isEmpty then p.carts else [] }
    let s := s.showIdle r
    let s := s.wr (F.RP_RELAY_OUT_LAG r) (min 4095 (d / 65536))
    let seen := (List.range 32).filterMap (fun x =>
      match slotPos dir pfar x with | some pos => some (32 * r.val + pos, nth cars x 0) | none => none)
    let s := { s with stk := { s.stk with relayCyc := some k } }
    s.seeFrame r k tk (s.rd (F.GEN_RING_DLV_BASE_J r)) block seen

/-! Hall time from the newel (R395, R397, R50). -/

/-- The newel's TIME message of a cycle, which leaves at the cycle start. -/
def State.sendTime (s : State) : State :=
  if s.isNewel then
    let s := s.nameStep
    s.stkSend 0x1F (.time s.clk.hall (s.rd F.GEN_CYC_LEN_LEN) 0 s.clk.stepAt)
  else s

/-- Half the outbound less the inbound delay of the link on which messages of a ring come in: WEST for ring A, EAST for
ring B (R387, R395). The registers hold 2^-8 ns. -/
def State.linkAsym (s : State) (ringB : Bool) : Int :=
  sext 16 (s.rd (if ringB then F.STK_ASYM_E_ASYM else F.STK_ASYM_W_ASYM)) * 128

/-- A TIME message that left the newel at hall time `dep` in its cycle `cyc` arrives. `delay`: the delays measured on the
links of its path, the last one as half of what went out and came in, which the asymmetry of that link corrects (R395). -/
def timeMsg (ringB : Bool) (dep : Time) (len : Nat) (corr : Time) (step : Option (Nat × Int)) (cyc : Nat) (delay : Time)
    (t : Time) (s : State) : State :=
  let s := s.advance t
  if s.isNewel || s.nearRing s.newel != ringB then s
  else
    let newelNow : Time := (((dep + corr + delay : Nat) : Int) - s.linkAsym ringB).toNat
    let differs := s.cycAt newelNow != cyc
    let s := { s with clk := { s.clk with stepAt := step },
                      stk := { s.stk with lenBad := len != s.rd F.GEN_CYC_LEN_LEN,
                                          setCyc := if differs then some ((cyc + s.since (s.cycAt newelNow)) % 2 ^ 32) else none } }
    let s := s.live 0x004 (s.stk.lenBad || (differs && s.anyDeblocked))
    s.offset ((s.clk.hall : Int) - newelNow) 3 true

/-! The exchange (R399). -/

def State.putExch (s : State) (k d : Nat) (w : List Word) : State :=
  { s with stk := { s.stk with exch := Store.put s.stk.exch [] (16 * (k % 16) + d) w } }

/-- EXCH: the words of hub `d` of cycle `k` arrive. -/
def exchMsg (d : Hub) (k : Nat) (w0 w1 w2 w3 : Word) (t : Time) (s : State) : State :=
  let s := s.advance t
  if d.val = s.hubId ∨ 4 ≤ s.since k then s else s.putExch k d [w0, w1, w2, w3]

/-- At a cycle start the hub's own words leave, and the set of four cycles before is committed. -/
def State.exchange (s : State) : State :=
  let div := if s.isNewel then max 1 (s.rd F.STK_EX_CFG_DIV) else max 1 s.stk.exDiv
  let s := if s.cyc % div = 0 then
      let w := (List.range 4).map (fun n => s.reg (R.STK_EX_TX n))
      (s.putExch s.cyc s.hubId w).stkSend 0x1F (.exch w)
    else s
  let k := (s.cyc + 2 ^ 32 - 4) % 2 ^ 32
  if k % div != 0 then s
  else
    let hubs := (List.range 16).filter (fun d => d == s.hubId || (s.hub d).cyc.isSome)
    let r := hubs.foldl (fun (r : State × List Nat) d =>
      let w := Store.get r.1.stk.exch [] (16 * (k % 16) + d)
      if w.isEmpty then (r.1, r.2 ++ [d])
      else ((List.range 4).foldl (fun (s : State) j => s.setReg (R.STK_EX_RX d j) (nth w j 0)) r.1, r.2)) (s, [])
    let s := { r.1 with stk := { r.1.stk with exch := r.1.stk.exch.filter (fun p => p.1 / 16 != k % 16) } }
    s.wr F.STK_EX_STAT_STALE (ofBits r.2)

/-! Snapshot and journal (R371, R372). -/

/-- The state of the engine's detectors. -/
def State.detWords (s : State) : List Word := (List.range 8).map (fun d => s.reg (R.ACE_RGN_STAT d))

def State.snapArm (s : State) (a : Nat) : SnapArm :=
  let g := s.galArm a
  let r := Store.get s.ace.recs ({} : ArmRec) a
  { band := g.band, edges := g.edges, cycles := g.cycles,
    dcell := if s.rdB (F.GAL_ARM_MRATE_DVALID a) then some (s.rd (F.GAL_ARM_MRATE_DCELL a)) else none,
    dHeld := g.dHeld, n := r.n, delta := r.delta, m := r.m, d := r.d, live := s.deblocked a }

def State.snapCell (s : State) (i : Nat) : SnapCell :=
  let c := s.galCell i
  { i := i, csw := s.rd (F.GAL_CELL_SW_CSW i), level := c.endLevel, excl := s.rd (F.GAL_CELL_STAT_EXCL i),
    health := s.rdB (F.GAL_CELL_STAT_HEALTH i), refr := c.refr }

def State.snapEst (s : State) (i : Nat) : SnapEst :=
  let c := s.galCell i
  { i := i, a := c.estA, b := c.estB, e := c.estE, nacc := s.rd (F.GAL_CELL_CONF_NACC i) }

/-- The snapshot of cycle `k`, captured at the start of the next (Table 2). -/
def State.capture (s : State) (k : Nat) : Snap :=
  { cyc := k, epoch := s.rd F.STK_EPOCH_EPOCH, dig := s.cfgDig, good := true, blks := s.ace.blks,
    mbx := (List.range 256).map (fun m => s.commitWords.reg (R.ACE_MBX m)), det := s.detWords,
    arms := (List.range 6).map s.snapArm, cells := (List.range 1024).map s.snapCell,
    est := (List.range 16).map (fun j => s.snapEst (16 * (k / 256 % 64) + j)) }

/-- The six words of a cell-table entry. -/
def State.tableWords (s : State) (i : Nat) : List Word :=
  (List.range 6).map (fun w => s.reg (R.RP_CELL_UIDL (i / 32) (i % 32) + 4 * w))

/-- The journal record of cycle `k` as it stands at the start of the next (Table 3). -/
def State.journal (s : State) (k : Nat) : JRec :=
  let mask (f : Fld → Bool) (g : Nat → Fld) : Nat := ofBits ((List.range 6).filter (fun a => f (g a)))
  let split := (List.range 32).filter s.split
  { cyc := k, epoch := s.rd F.STK_EPOCH_EPOCH, good := true, inputs := s.ace.passInp,
    commits := s.ace.granted.map (fun c => (c.mbx, c.words)),
    chk := if k % 16 = 0 then some (s.ace.blks, s.detWords) else none,
    excl := (List.range 1024).filterMap (fun i =>
      let e := s.rd (F.GAL_CELL_STAT_EXCL i)
      if e = Store.get s.stk.exclSent 0 i then none else some (i, e)),
    cars := split.flatMap (fun r => (s.populated r).map (fun p => (32 * r + p, Store.get s.downlinks 0 (32 * r + p)))),
    cmdBlk := mask s.rdB F.HQ_ARM_STAT_CMD_BLK, live := mask s.rdB F.HQ_ARM_STAT_DEBLOCKED,
    latched := s.rd F.FLT_STAT_ARM_BLK,
    table := (List.range 1024).filterMap (fun i =>
      let w := s.tableWords i
      if w = Store.get s.stk.tableSent (List.replicate 6 0) i then none else some (i, w)) }

/-- What the latest record has told the standby. -/
def State.noteSent (s : State) (j : JRec) : State :=
  let e := j.excl.foldl (fun m x => Store.put m 0 x.1 x.2) s.stk.exclSent
  let t := j.table.foldl (fun m x => Store.put m (List.replicate 6 0) x.1 x.2) s.stk.tableSent
  { s with stk := { s.stk with exclSent := e, tableSent := t } }

/-- At a cycle start the ACTIVE hub sends the record of the previous cycle, and a snapshot every 256 cycles. -/
def State.sendJournal (s : State) (k : Nat) : State :=
  if s.dupMode != 2 || s.redSt != 1 then s
  else
    let j := s.journal k
    let s := (s.noteSent j).stkSend s.partner (.journal j)
    if k % 256 = 0 then s.stkSend s.partner (.snapshot (s.capture k)) else s

/-- `STK_SNAP` and JLEN. -/
def State.showBase (s : State) : State :=
  match s.stk.base with
  | some b => (s.wr F.STK_SNAP_BASE_CYC b.cyc).wr F.STK_SNAP_JLEN (min 511 s.stk.jrnl.length)
  | none => s

/-- Estimator sums of a base reach the standby's gallery (R371). -/
def State.takeEst (s : State) (e : SnapEst) : State :=
  ((s.setGalCell e.i { s.galCell e.i with estA := e.a, estB := e.b, estE := e.e }).wr (F.GAL_CELL_CONF_NACC e.i) e.nacc).showEst e.i

/-- No record after that of cycle `k` is lost by now: each that was due has come (R372). A base ends the loss of the records
up to its own (DEDUCED, log entry 80). -/
def State.noneLost (s : State) (k : Nat) : Bool :=
  (List.range 17).all (fun n =>
    let c := (k + 1 + n) % 2 ^ 32
    s.since c < 16 || 2 ^ 31 ≤ s.since c || s.stk.jrnl.any (fun j => j.cyc == c))

/-- SNAPSHOT: a snapshot reaches the standby. -/
def snapshotMsg (x : Snap) (t : Time) (s : State) : State :=
  let s := s.advance t
  if s.redSt != 2 then s
  else if s.stk.snapAt == some x.cyc then s
  else
    let s := { s with stk := { s.stk with snapAt := some x.cyc } }
    if !x.good || x.dig != s.cfgDig || decide (32 < s.since x.cyc) || (s.since x.cyc == 32 && s.clk.tk != s.clk.now) then
      s.raise 0x06C
    else
    let keep (k : Nat) : Bool := serialLt x.cyc k
    let s := x.est.foldl State.takeEst s
    let s := { s with stk := { s.stk with base := some x, jrnl := s.stk.jrnl.filter (fun j => keep j.cyc),
                                          seen := s.stk.seen.filter (fun f => keep f.cyc) } }
    (s.wrB F.STK_RED_STAT_JRNL_OK (s.noneLost x.cyc)).showBase.showReady

/-- A snapshot that the active partner was to send and that is not complete by the start of the 32nd cycle after its own has
failed (R371; DEDUCED, log entry 80). -/
def State.checkSnap (s : State) : State :=
  let k := (s.cyc + 2 ^ 32 - 32) % 2 ^ 32
  let h := s.hub s.partner
  let long := match s.stk.stbAt with | some c => serialLt c k | none => false
  if s.redSt = 2 && k % 256 == 0 && long && h.present && h.hb.active && s.stk.snapAt != some k then
    ({ s with stk := { s.stk with snapAt := some k } }).raise 0x06C
  else s

/-- JOURNAL: a record reaches the standby. -/
def journalMsg (j : JRec) (t : Time) (s : State) : State :=
  let s := s.advance t
  if s.redSt != 2 then s
  else if !j.good || decide (16 ≤ s.since j.cyc) then s.wrB F.STK_RED_STAT_JRNL_OK false
  else
    let s := j.table.foldl (fun s x =>
      ((List.range 6).foldl (fun (s : State) w => s.setReg (R.RP_CELL_UIDL (x.1 / 32) (x.1 % 32) + 4 * w) (nth x.2 w 0)) s)) s
    let s := (j.table.map (fun x => x.1 / 32)).eraseDups.foldl (fun s r =>
      (s.updPort r (fun p => { p with table := true })).showTable r) s
    ({ s with stk := { s.stk with jrnl := s.stk.jrnl.filter (fun (y : JRec) => y.cyc != j.cyc) ++ [j] } }).showBase

/-- A record that should have come by the present cycle start and has not is lost (R372). -/
def State.checkJournal (s : State) : State :=
  match s.stk.base with
  | some b =>
    let k := (s.cyc + 2 ^ 32 - 16) % 2 ^ 32
    if s.redSt = 2 && serialLt b.cyc k && !s.stk.jrnl.any (fun j => j.cyc == k) then s.wrB F.STK_RED_STAT_JRNL_OK false
    else s
  | none => s

/-! Load and replay (R381, R382). -/

def State.loadArm (s : State) (a : Nat) (x : SnapArm) : State :=
  let s := s.setGalArm a { s.galArm a with band := x.band, edges := x.edges, cycles := x.cycles, dHeld := x.dHeld,
                                           first := !x.live, ready := false }
  let s := s.wrB (F.GAL_ARM_MRATE_DVALID a) x.dcell.isSome
  let s := match x.dcell with | some i => s.wr (F.GAL_ARM_MRATE_DCELL a) i | none => s
  let r : ArmRec := { n := x.n, delta := x.delta, m := x.m, d := x.d, nPrev := x.n - x.delta, live := x.live, same := x.live }
  { s with ace := { s.ace with recs := Store.put s.ace.recs {} a r } }

def State.loadCell (s : State) (x : SnapCell) : State :=
  let s := s.setGalCell x.i { s.galCell x.i with base := x.level, edges := [], refr := x.refr }
  ((s.wr (F.GAL_CELL_SW_CSW x.i) x.csw).wr (F.GAL_CELL_STAT_EXCL x.i) x.excl).wrB (F.GAL_CELL_STAT_HEALTH x.i) x.health

def State.loadDet (s : State) (l : List Word) : State :=
  (List.range l.length).foldl (fun (s : State) d => s.setReg (R.ACE_RGN_STAT d) (nth l d 0)) s

/-- The base is loaded into engine and gallery. -/
def State.loadBase (s : State) (b : Snap) : State :=
  let s := { s with ace := { s.ace with blks := b.blks } }
  let s := (List.range b.mbx.length).foldl (fun (s : State) m => s.setReg (R.ACE_MBX m) (nth b.mbx m 0)) s
  let s := s.loadDet b.det
  let s := (List.range b.arms.length).foldl (fun s a =>
    match b.arms[a]? with | some x => s.loadArm a x | none => s) s
  let s := b.cells.foldl State.loadCell s
  { s with stk := { s.stk with carry := ofBits ((List.range 6).filter (fun a =>
      match b.arms[a]? with | some x => x.live | none => false)) } }

/-- SNAPSHOT_LOAD_DONE. -/
def snapshotLoadDone (s : State) : State :=
  match s.stk.take, s.stk.base with
  | some x, some b =>
    if x.phase = 2 then
      let s := s.loadBase b
      { s with stk := { s.stk with take := some { x with phase := 3 } } }
    else s
  | _, _ => s

/-- The commands of a frame in the record of a cell: level edges, switching measure; the edges it counts. -/
def State.replayCar (s : State) (base : Time) (block : Bool) (i : Nat) (v : Slot) : State × Nat :=
  let c := s.galCell i
  let keep := 17 * s.cycT
  let st := sbits v 0 3
  let t0 := base + sbits v 6 24 * quarterNs
  let lv : Int := if st = 2 then 1 else if st = 3 then -1 else 0
  let dither := !block && sbits v 3 3 == 1
  let c' := if dither then (c.addEdge t0 (lv + 1) keep).addEdge (t0 + sbits v 32 20 * quarterNs) lv keep
    else
      let l := if block then 0 else lv
      if l = c.endLevel then c else c.addEdge t0 l keep
  let e := if dither then 2 else (c.endLevel - c'.endLevel).natAbs
  let s := s.setGalCell i c'
  let k := match s.armOf (i / 32) with | some a => s.erd (F.GAL_ARM_WGT_K_SW a) | none => 0
  (s.wr (F.GAL_CELL_SW_CSW i) (cswNext (s.rd (F.GAL_CELL_SW_CSW i)) k e), e)

/-- The carriages of one frame are replayed; edges count for the arm of the ring (R154, R158). -/
def State.replayFrame (s : State) (r : Nat) (base : Time) (block : Bool) (cars : List (Nat × Slot)) : State :=
  let x := cars.foldl (fun (x : State × Nat) v => let y := x.1.replayCar base block v.1 v.2; (y.1, x.2 + y.2)) (s, 0)
  match s.galArmOf r with
  | some a => x.1.setGalArm a { x.1.galArm a with edges := (x.1.galArm a).edges + x.2 }
  | none => x.1

/-- VC and the availabilities that a record brings for the ARMOUT blocks. -/
def State.replayVc (s : State) (l : List (Nat × Nat × Bool)) : State :=
  l.foldl (fun (s : State) x =>
    let count : Nat := (clampI 0 1024 (eDec x.2.1).roundHE).toNat
    if 0x240 ≤ x.1 ∧ x.1 < 0x246 then s.wr (F.GAL_ARM_VC_VALUE (x.1 - 0x240)) x.2.1
    else if 0x248 ≤ x.1 ∧ x.1 < 0x24E then s.wr (F.GAL_ARM_AVAIL_N_POS (x.1 - 0x248)) count
    else if 0x250 ≤ x.1 ∧ x.1 < 0x256 then s.wr (F.GAL_ARM_AVAIL_N_NEG (x.1 - 0x250)) count
    else s) s

/-- Dither hold count and window count of an arm in one replayed cycle (R158, R159). -/
def State.replayArm (s : State) (live : Nat) (cars : List (Nat × Slot)) (a : Nat) : State :=
  let g := s.galArm a
  if !bitOf live a then s.setGalArm a { g with first := true, dHeld := 0 }
  else
    let dc := cars.find? (fun v => s.armOf (v.1 / 32) == some a && sbits v.2 3 3 == 1)
    let same := match dc with | some v => s.rdB (F.GAL_ARM_MRATE_DVALID a) && s.rd (F.GAL_ARM_MRATE_DCELL a) == v.1 | none => false
    let s := match dc with | some v => (s.wrB (F.GAL_ARM_MRATE_DVALID a) true).wr (F.GAL_ARM_MRATE_DCELL a) v.1 | none => s
    let held := if dc.isNone then g.dHeld else if same then g.dHeld + 1 else 1
    bandAdapt a ((s.setGalArm a { g with first := false, dHeld := held }).bandCycle a 0)

/-- The pass of one record (R382): detectors and blocks on the record's inputs. -/
def State.replayPass (s : State) (j : JRec) : State :=
  let x : PassCtx := { k := s.bank true, h := s.clk.hall, inp := j.inputs }
  let s := (List.range 8).foldl (fun s d => s.detector x d) s
  (List.range 256).foldl (State.execBlock x) s

/-- One journal record; `run`: it lies after the checkpoint. -/
def State.replayRec (s : State) (chk : Nat) (j : JRec) : State :=
  let s := { s with stk := { s.stk with carry := j.live } }
  let frames := s.stk.seen.filter (fun f => f.cyc == j.cyc)
  let s := frames.foldl (fun s f => s.replayFrame f.ring (f.tHat + ns (230 + 250 * f.baseJ)) f.block f.cars) s
  let tk := match s.clk.starts.find? (fun c => c.1 == j.cyc) with | some c => c.2.2 | none => s.clk.tkHall
  let s := s.replayFrame (match j.cars with | c :: _ => c.1 / 32 | [] => 0) (tk + ns 1730) false j.cars
  let cars := frames.flatMap (fun f => if f.block then [] else f.cars) ++ j.cars
  let s := (List.range 6).foldl (fun s a => s.replayArm j.live cars a) s
  let s := j.excl.foldl (fun (s : State) x => s.wr (F.GAL_CELL_STAT_EXCL x.1) x.2) s
  let s := match j.chk with
    | some c => if j.cyc = chk then ({ s with ace := { s.ace with blks := c.1 } }).loadDet c.2 else s
    | none => s
  let s := s.replayVc j.inputs
  let s := if serialLt chk j.cyc then s.replayPass j else s
  j.commits.foldl (fun s c =>
    (List.range 4).foldl (fun (s : State) w => s.setReg (R.ACE_MBX (4 * c.1 + w)) (nth c.2 w 0)) s) s

/-- The records from the base to the newest that is complete, oldest first. -/
def State.replayList (s : State) (b : Snap) : List JRec :=
  (List.range 512).foldl (fun (l : List JRec) n =>
    if l.length = n then
      match s.stk.jrnl.find? (fun j => j.cyc == (b.cyc + 1 + n) % 2 ^ 32) with
      | some j => l ++ [j]
      | none => l
    else l) []

/-- Exclusions and commands of every record of the base, and the engine from the newest checkpoint (R382). -/
def State.replay (s : State) (b : Snap) : State :=
  let l := s.replayList b
  let chk := l.foldl (fun k j => if j.chk.isSome then j.cyc else k) b.cyc
  l.foldl (fun s j => s.replayRec chk j) s

/-- REPLAY_DONE: the replay has ended and the epoch is committed. -/
def replayDone (s : State) : State :=
  match s.stk.take, s.stk.base with
  | some x, some b =>
    if x.phase = 4 then
      let last := (s.replayList b).getLast?
      let e := match last with | some j => j.epoch | none => b.epoch
      let s := s.replay b
      let s := s.presentPw .hubHw R.STK_EPOCH (BitVec.ofNat 32 ((e + 1) % 2 ^ 16))
      { s with stk := { s.stk with take := some { x with phase := 5 } } }
    else s
  | _, _ => s

/-- At a cycle start a phase that has ended gives way to the next (R381); the first frame is in Machine/Cycle.lean. -/
def State.takePhase (s : State) : State :=
  match s.stk.take with
  | some x =>
    if x.phase = 1 ∨ x.phase = 3 then { s with stk := { s.stk with take := some { x with phase := x.phase + 1 } } }
    else if x.phase = 5 then { s with stk := { s.stk with take := some { x with phase := 6 }, emitting := true } }
    else s
  | none => s

/-! Resume carriages in the gallery's record (R383). -/

/-- The levels that a frame of resume carriages commands to the cells of an arm. -/
def State.recordResume (s : State) (a : Nat) : State :=
  let t := s.clk.tkHall + ns (s.lead a)
  (s.cellsOf a).foldl (fun s i =>
    let x := s.resume i
    let l : Int := if x.1 = 2 then 1 else if x.1 = 3 then -1 else 0
    let c := s.galCell i
    let s := s.setGalCell i ((if l = c.endLevel then c else c.addEdge (t + x.2 * quarterNs) l (17 * s.cycT)).block false t)
    s.wr (F.GAL_CELL_STAT_LEVEL i) (if l = 0 then 0 else if 0 < l then 1 else 3)) s

/-- At the start of k_n + 1 ARMOUT takes n_prev of a carried arm from the recorded levels (R383). -/
def State.resumeCount (s : State) (a : Nat) : State :=
  let n : Int := ((s.cellsOf a).map (fun i => (s.galCell i).endLevel)).sum
  let r := Store.get s.ace.recs ({} : ArmRec) a
  { s with ace := { s.ace with recs := Store.put s.ace.recs {} a { r with n := n, live := true } } }

/-! Planned handover, revert and admission (R379, R383, R386). -/

/-- `STK_CMD.RESIGN` with its key. -/
def resign (key : Nat) (s : State) : State :=
  if key != 0x4E then s
  else if s.redSt = 1 && (s.hub s.partner).hb.ready then
    let k := (s.cyc + 64) % 2 ^ 32
    ({ s with stk := { s.stk with resignAt := some k } }).stkSend s.partner (.resign k)
  else s.wrB F.STK_ERR_RES_REF true

/-- RESIGN arrives at the standby. -/
def resignMessage (k : Nat) (t : Time) (s : State) : State :=
  let s := s.advance t
  if s.redSt = 2 then { s with stk := { s.stk with takeAt := some (k % 2 ^ 32) } } else s

/-- REVERT arrives at the odd ACTIVE hub, which takes it as its RESIGN. -/
def revertMessage (k : Nat) (t : Time) (s : State) : State :=
  let s := s.advance t
  if s.redSt = 1 && s.hubId % 2 == 1 then { s with stk := { s.stk with resignAt := some (k % 2 ^ 32) } } else s

/-- The hold time of an even standby has run (R386). -/
def revertHold (t : Time) (s : State) : State :=
  let s := s.advance t
  let hold := clampN 1 1000 (s.rd F.STK_RED_CFG_HOLD) * 100 * millisecond
  match s.stk.readyAt with
  | some a =>
    if s.redSt = 2 && s.hubId % 2 == 0 && s.rdB F.STK_RED_CFG_AUTO_REVERT && decide (a + hold ≤ s.clk.now) &&
        s.readyNow && s.stk.takeAt.isNone then
      let k := (s.cyc + 64) % 2 ^ 32
      ({ s with stk := { s.stk with takeAt := some k, reverting := true, readyAt := none } }).stkSend s.partner (.revert k)
    else s
  | none => s

/-- `STK_CMD.ADMIT` (R379). -/
def stkAdmit (d : Hub) (s : State) : State :=
  let h := s.hub d
  if s.isNewel && h.cyc.isSome && h.hb.fenced && h.hb.healthy then
    let other := if d.val % 2 = 0 then d.val + 1 else d.val - 1
    let e := if other = s.hubId then s.rd F.STK_EPOCH_EPOCH else (s.hub other).hb.epoch
    s.stkSend d (.admitHub e)
  else s.wrB F.STK_ERR_ADM_REF true

/-- ADMIT arrives at the fenced hub. -/
def admitMessage (e : Nat) (t : Time) (s : State) : State :=
  let s := s.advance t
  if s.redSt = 4 then
    let s := { s with stk := { s.stk with base := none, jrnl := [], seen := [], known := [] } }
    ((s.presentPw .hubHw R.STK_EPOCH (BitVec.ofNat 32 (e % 2 ^ 16))).wrB F.STK_RED_STAT_JRNL_OK false).setRed 2
  else s

/-! Forwarding (R388, R389). -/

/-- A field of a message (Table 6). -/
def mbits (m : BitVec 256) (lo w : Nat) : Nat := bits m.toNat lo w

/-- CRC and MTYPE of a message hold (R388). -/
def titOk (m : BitVec 256) : Bool :=
  mbits m 0 8 == 0x87 && decide (1 ≤ mbits m 22 8) && decide (mbits m 22 8 ≤ 12) && mbits m 224 32 == crc32 224 (m.toNat % 2 ^ 224)

/-- A message of four blocks arrives that passes through the hub, or is discarded; a TIME message takes up its residence. -/
def titajorMessageForward (m : BitVec 256) (residence : Time) (s : State) : State :=
  let src := mbits m 8 4
  let dst := mbits m 12 5
  let ttl := mbits m 17 4
  let mtype := mbits m 22 8
  if !titOk m then (s.incSat F.STK_CNT_LINK_BADMSG).count 0x00D
  else if src = s.hubId ∨ dst = s.hubId ∨ ttl ≤ 1 then s
  else s.titSend ⟨src, dst, ttl - 1, mbits m 21 1 == 1, mbits m 32 32,
    .passed mtype (BitVec.ofNat 160 (mbits m 64 160)) (if mtype = 9 then residence else 0)⟩

/-! Lanes of the Titajor ports (R387, R182, R393). -/

def State.showLinks (s : State) : State :=
  let all := s.rd F.STK_LINK_LOCK == 15
  let now := s.clk.now
  ({ s with stk := { s.stk with linksAt := if all then s.stk.linksAt.orElse (fun _ => some now) else none } }).live 0x068 (!all)

def State.titLock (s : State) (n : Nat) : State :=
  if s.getBit F.STK_LINK_LOS n then s else (s.setBit F.STK_LINK_LOCK n true).showLinks

def State.titLol (s : State) (n : Nat) : State :=
  if s.getBit F.STK_LINK_LOCK n then ((s.setBit F.STK_LINK_LOCK n false).incSat F.STK_CNT_LINK_LOL).showLinks else s.showLinks

def State.titLos (s : State) (n : Nat) : State := (s.setBit F.STK_LINK_LOS n true).titLol n
def State.titSignal (s : State) (n : Nat) : State := s.setBit F.STK_LINK_LOS n false

end Sys2Proof.Machine
end

