-- ==== Sys2Proof/Machine/RingCmd.lean ====
section
/-!
DEFINITION. Machine/RingCmd.lean: lane events of every receiver (R182 to R185, R201, R541), and what firmware commands a
ring port to do: configuration, enumeration, rejoin, rate change, admission (R212, R215, R217, R223, R225), the split and
the broadcast of the round trip (R219, R238).
-/

namespace Sys2Proof.Machine

/-! Lanes. -/

def blockLock (l : Lane) (s : State) : State :=
  match l with
  | .port r => s.portLock r
  | .near i => s.updTread i (fun d => d.blockLock false)
  | .far i => s.updTread i (fun d => d.blockLock true)
  | .tit n => s.titLock n

def lossOfLock (l : Lane) (s : State) : State :=
  match l with
  | .port r => s.portLol r
  | .near i => s.updTread i (fun d => d.lossOfLock false)
  | .far i => s.updTread i (fun d => d.lossOfLock true)
  | .tit n => s.titLol n

def lossOfSignal (l : Lane) (s : State) : State :=
  match l with
  | .port r => s.portLos r
  | .near i => s.updTread i (fun d => d.lossOfSignal false)
  | .far i => s.updTread i (fun d => d.lossOfSignal true)
  | .tit n => s.titLos n

def signalReturn (l : Lane) (s : State) : State :=
  match l with
  | .port r => s.portSignal r
  | .near i => s.updTread i (fun d => d.signalReturn false)
  | .far i => s.updTread i (fun d => d.signalReturn true)
  | .tit n => s.titSignal n

/-- LINK_FAULT blocks begin or end on a lane (R541); a Titajor lane has no rule of its own for them. -/
def linkFault (on : Bool) (l : Lane) (s : State) : State :=
  match l with
  | .port r => s.portFault r on
  | .near i => s.updTread i (fun d => d.linkFault false on)
  | .far i => s.updTread i (fun d => d.linkFault true on)
  | .tit _ => s

/-- FAREND blocks begin or end on a lane (R201, Table 9 of spec/06): they concern the lanes of a Tread. -/
def farEnd (on : Bool) (l : Lane) (s : State) : State :=
  match l with
  | .near i => s.updTread i (fun d => d.farEnd false on)
  | .far i => s.updTread i (fun d => d.farEnd true on)
  | _ => s

/-! Commands to a ring port. -/

/-- The ring of port `q` belongs to a deblocked arm. -/
def State.portLive (s : State) (q : Nat) : Bool := s.ringDeblocked (s.ringOfPort q)

/-- A write of `RP_CFG` (R225). -/
def rpConfigWrite (q : Ring) (v : Word) (s : State) : State :=
  let old := s.reg (R.RP_CFG q)
  if s.portLive q && bits old.toNat 0 2 != bits v.toNat 0 2 then s.raise 0x00B
  else
    let s := s.setReg (R.RP_CFG q) (BitVec.ofNat 32 (bits v.toNat 0 8))
    let s := ((s.adaptEq q).wrB (F.RP_EQ_ADAPT q) (s.rdB (F.RP_STAT_LOCK q) && !s.rdB (F.RP_CFG_EQ_FREEZE q))).adaptEq q
    s.portStep q

/-- `RP_CMD.ENUM` (R212). -/
def rpEnum (q : Ring) (s : State) : State :=
  if s.portLive q then s.raise 0x00B
  else if s.pst q = 3 ∨ s.pst q = 5 then ((s.live (0x104 + 8 * q) false).live (0x105 + 8 * q) false).startEnum q
  else s

/-- `RP_CMD.REJOIN` at a primary port (R223). -/
def rejoin (q : Ring) (s : State) : State :=
  if s.portLive q || s.roleOf q != 0 || !s.split q then s
  else
    let s := (s.wrB (F.RP_STAT_SPLIT q) false).live (0x107 + 8 * q) false
    let s := if s.dupMode = 1 then s.wrB (F.RP_STAT_SPLIT (q + 1)) false else s.setPort (32 + q) {}
    let s := s.updPort q (fun p => { p with splitTrig := none, merge := [], rlb := none })
    let s := if s.dupMode = 1 then s.showIdle (q + 1) else s
    -- a port that is not emitting enumerates when it leaves LINK
    (if s.pst q = 3 ∨ s.pst q = 5 then s.startEnum q else s.updPort q (fun p => { p with table := false })).updLeads

/-- `RP_CMD.RATE` (R217): the query cart. -/
def rate (q : Ring) (s : State) : State :=
  if s.portLive q || s.roleOf q != 0 || s.pst q != 3 then s
  else
    let low := s.rdB (F.RP_CFG_LOWRATE q)
    s.presentCarts q [{ who := .hubHw, own := true, op := opRate, arg := b2n low }]

/-- The rate of port `q` switches at the start of its named cycle, which is the present one or begins now (R217). The
lane loses its lock with the switch, and the port passes through LINK. -/
def State.rateSwitch (s : State) (q : Nat) : State :=
  match (s.port q).rateAt with
  | some (k, low) =>
    if k ≠ s.cyc ∧ k ≠ (s.cyc + 1) % 2 ^ 32 then s
    else
      let s := s.updPort q (fun p => { p with rateAt := none, lowFrom := k })
      let s := s.wrB (F.RP_STAT_LOWRATE q) low
      let s := if s.pst q = 0 then s else s.setPst q 1
      s.portLol q
  | none => s

/-- RATE_SWITCH at the hub's port or at a Tread (R217, R294). -/
def rateSwitchAt (l : Lane) (s : State) : State :=
  match l with
  | .port r => s.rateSwitch r
  | .near i => s.updTread i Tread.rateSwitch
  | .far i => s.updTread i Tread.rateSwitch
  | .tit _ => s

/-- A write of `RP_ADMIT` (R215); a port in HALT admits no cell (R210). -/
def rpAdmit (q : Ring) (mask : Word) (s : State) : State :=
  if s.pst q = 5 then s
  else s.presentCarts q (((List.range 32).filter (fun p => bitOf mask.toNat p && s.rd (F.RP_CELL_INFO_STATE q p) == 2)).map
    (fun p => s.admitCart q p))

/-- RING_SPLIT, at the cycle start that begins at `t`: a ring whose trigger is 200 ns old splits (R219). -/
def ringSplit (r : Ring) (t : Time) (s : State) : State :=
  let s := s.advance t
  match (s.port r).splitTrig with
  | some t0 => if t0 + ns 200 ≤ s.clk.now then s.splitRing r else s
  | none => s

/-- The mean of R over the latest 256 frames, in 2^-8 ns. -/
def Port.meanRtt (p : Port) : Nat := p.rHist.sum / max 1 p.rHist.length / 256

/-- RTT_BROADCAST of port `q`: into `HT_RING_RTT` and to its Treads by a BWR cart of two words (R238). -/
def rttBroadcast (q : Ring) (s : State) : State :=
  let p := s.port q
  if p.rHist.isEmpty || (s.roleOf q != 0 && !s.farEmits q) then s
  else
    let far := s.dupMode == 1 && q.val % 2 == 1
    let dir := if s.roleOf q = 2 then (match p.relayed with | some (_, d) => d | none => 1)
      else if far then 1 - s.dirOf else s.dirOf
    let m := p.meanRtt % 2 ^ 24
    let s := s.wr (F.HT_RING_RTT_RTT q) m
    let c : CartReq := { who := .hubHw, own := true, op := opBwr, pos := b2n far, arg := 0xC0 + 2 ^ 10,
                         data := m + dir * 2 ^ 24 + 2 ^ 25 + p.rCyc % 2 ^ 32 * 2 ^ 32 }
    s.updPort (s.ringOfPort q) (fun x => { x with carts := x.carts ++ [c] })

end Sys2Proof.Machine
end

