-- ==== Sys2Proof/Machine/Saf.lean ====
section
/-!
DEFINITION. Machine/Saf.lean: the safety island (spec/11): its states and safe block outputs, permit tokens, safety inputs,
the balustrade and its three limits, the lock and the parameter set, diagnostics.
-/

namespace Sys2Proof.Machine

/-! Causes (R344). -/

/-- The sources of R343. -/
def safSources : List Nat := (List.range 6).map (fun n => 0x070 + n) ++ (List.range 8).map (fun n => 0x078 + n) ++ [0x0A7]

def State.liveBit (s : State) (src : Nat) : Bool := s.rdB ⟨R.FLT_LIVE (src / 32), src % 32, 1⟩
def State.latchBit (s : State) (src : Nat) : Bool := s.rdB ⟨R.FLT_LATCH (src / 32), src % 32, 1⟩

/-- An override cause is present. -/
def State.overrideCause (s : State) : Bool :=
  let st := s.rd F.SAF_STAT_STATE
  s.saf.held || st == 0 || st == 3 || safSources.any (fun n => decide (2 ≤ s.sevOf n) && (s.liveBit n || s.latchBit n))

/-- A trip cause is present. -/
def State.tripCause (s : State) : Bool :=
  s.rdB F.FLT_STAT_TRIP || (s.liveBit 0x0A4 && s.sevOf 0x0A4 == 4) ||
    (List.range 4).any (fun n => bitOf s.saf.sboBad n && s.rdB (F.SAF_SBO_EN n))

def State.safState (s : State) : Nat := s.rd F.SAF_STAT_STATE
def State.lockOpen (s : State) : Bool := s.rdB F.SAF_LOCK_OPEN

/-! Safe block outputs (R341, R345, R348). -/

/-- The outputs take the levels `m`; the read-back of an output without a failure follows. -/
def State.setSbo (s : State) (m : Nat) : State :=
  let s := s.wr F.SAF_SBO_STAT_OUT m
  let rb := s.rd F.SAF_SBO_STAT_RB
  s.wr F.SAF_SBO_STAT_RB (ofBits ((List.range 4).filter (fun n => if bitOf s.saf.sboBad n then bitOf rb n else bitOf m n)))

def State.sboEnabled (s : State) : Nat := ofBits ((List.range 4).filter (fun n => s.rdB (F.SAF_SBO_EN n)))

def State.halt (s : State) : State :=
  let s := ({ s.wr F.SAF_STAT_STATE 3 with saf := { s.saf with pulse := [], tests := 0 } }).setSbo 0
  s.live 0x075 true

/-- The registers of the parameter set, rising. -/
def paramRegs : List Nat :=
  [R.SAF_SEV0, R.SAF_SEV1] ++ (List.range 8).map R.SAF_SI ++ (List.range 4).map R.SAF_SBO ++ (List.range 8).map R.SAF_BCH ++
    (List.range 6).map R.SAF_SLC ++ [R.SAF_PWR_CFG, R.SAF_SLR_RATE, R.SAF_SLR_BAND, R.SAF_SLD_CFG]

/-- The active parameter set passes its CRC (R345, R365). -/
def State.paramOk (s : State) : Bool := crcWords (paramRegs.map s.reg) == s.rd F.SAF_PCRC_ACT_CRC

/-- SELFTEST_DONE (Table 2): the start tests have ended. More than 50 ms after reset they have failed. -/
def selftestDone (pass : Bool) (s : State) : State :=
  if s.saf.held || s.safState != 0 then s
  else if pass && s.paramOk && decide (s.clk.now ≤ s.saf.upAt + 50 * millisecond) then s.wr F.SAF_STAT_STATE 1
  else s.halt

/-- SAFETY_INTERNAL_FAULT: from SELFTEST it is a failed start test. -/
def safetyInternalFault (s : State) : State := if s.saf.held || s.safState == 3 then s else s.halt

/-- SAFETY_TRIP: the trip cause takes the outputs down, at the request of the fault collector as SAFE_OUT shows (R327). -/
def safetyTrip (s : State) : State :=
  if !s.saf.tripReq && !s.tripCause then s
  else
    let coll := s.saf.collReq
    let s := { s with saf := { s.saf with tripReq := false, collReq := false, pulse := [], tests := 0 } }
    let s := if coll then s.wrB F.FLT_STAT_SAFE_OUT true else s
    if s.safState = 2 then (s.wr F.SAF_STAT_STATE 1).setSbo 0 else s

/-- `SAF_CMD.SBO_REL` (R346). -/
def sboRel (key : Nat) (s : State) : State :=
  let enabled := s.sboEnabled
  let ok := key == 0x6B && s.safState == 1 && !s.saf.held && !s.tripCause && !s.saf.tripReq &&
    !safSources.any (fun n => s.sevOf n == 4 && (s.liveBit n || s.latchBit n)) &&
    (List.range 4).all (fun n => !bitOf enabled n || !s.getBit F.SAF_SBO_STAT_RB n) && !s.lockOpen
  if s.saf.held then s
  else if ok then
    let now := s.clk.now
    let s := { s with saf := { s.saf with fresh := true, permitAt := now, pulsed := [] } }
    ((s.wr F.SAF_STAT_STATE 2).setSbo enabled).wrB F.FLT_STAT_SAFE_OUT false
  else (s.wrB F.SAF_ERR_REL_REF true).incSat F.SAF_CNT_REL_REF

/-- `SAF_CMD.TEST`: one extra test of every enabled output. -/
def safTest (s : State) : State :=
  if s.safState = 2 then { s with saf := { s.saf with tests := s.sboEnabled } } else s

/-- A pulse-test or read-back failure of output `n`, whose read-back stays at `rb`. -/
def State.sboFail (s : State) (n : Nat) (rb : Bool) : State :=
  let s := s.setBit F.SAF_SBO_STAT_RB n rb
  let s := { s with saf := { s.saf with sboBad := ofBits (bitList s.saf.sboBad 4 ++ [n]), sboOk := Store.put s.saf.sboOk none n none,
                                        pulse := Store.put s.saf.pulse none n none } }
  let s := (s.setBit F.SAF_ERR_SBOF n true).live 0x074 true
  if s.rdB (F.SAF_SBO_EN n) then { s with saf := { s.saf with tripReq := true } } else s

def microsecond : Time := ns 1000
/-- PW, TPER and RBW of output `n` (Table 10). -/
def State.sboPw (s : State) (n : Nat) : Time := clampN 10 255 (s.rd (F.SAF_SBO_PW n)) * microsecond
def State.sboPer (s : State) (n : Nat) : Time := clampN 1 1000 (s.rd (F.SAF_SBO_TPER n)) * 10 * millisecond
def State.sboRbw (s : State) (n : Nat) : Time := clampN 1 63 (s.rd (F.SAF_SBO_RBW n)) * microsecond

/-- The periods of output `n` whose pulse was to begin by now: the first one TPER after PERMIT, each n × TPER / 4 after that
of output 0 (R348). -/
def State.pulsesDue (s : State) (n : Nat) : Nat :=
  let per := s.sboPer n
  (s.clk.now - (s.saf.permitAt + n * per / 4)) / per

/-- An edge of a test pulse that the read-back of output `n` follows after `late` (R348): the output takes level `on`. -/
def State.pulseEdge (s : State) (n : Nat) (on : Bool) (late : Time) : State :=
  let s := s.setBit F.SAF_SBO_STAT_OUT n on
  if s.sboRbw n < late then (s.advance (s.clk.now + s.sboRbw n)).sboFail n (!on)
  else if bitOf s.saf.sboBad n then s
  else s.setBit F.SAF_SBO_STAT_RB n on

/-- SBO_PULSE_TEST of output `n`: an edge of its test pulse (R348). A pulse that is due, or that `SAF_CMD.TEST` asks for,
begins; one that has lasted PW ends. `late`: how long after the edge the read-back follows. -/
def sboPulseTest (n : Fin 4) (late : Time) (s : State) : State :=
  if s.safState != 2 || !s.rdB (F.SAF_SBO_EN n) then s
  else
    match Store.get s.saf.pulse none n.val with
    | some a =>
      if s.clk.now < a + s.sboPw n then s
      else
        let s := ({ s with saf := { s.saf with pulse := Store.put s.saf.pulse none n.val none } }).pulseEdge n true late
        if bitOf s.saf.sboBad n then s else (s.incWrap F.SAF_SBO_STAT_TESTS).count 0x00F
    | none =>
      let due := s.pulsesDue n
      let extra := bitOf s.saf.tests n
      if !extra && due ≤ Store.get s.saf.pulsed 0 n.val then s
      else
        let now := s.clk.now
        let s := { s with saf := { s.saf with pulse := Store.put s.saf.pulse none n.val (some now),
                                              pulsed := Store.put s.saf.pulsed 0 n.val due,
                                              tests := ofBits ((bitList s.saf.tests 4).filter (fun k => k != n.val)) } }
        s.pulseEdge n false late

/-- READBACK_FAILURE: the read-back of output `n` has stood at `rb`, not the level of the output, since `since`; it fails
once RBW has passed (R348). -/
def readbackFailure (n : Fin 4) (rb : Bool) (since : Time) (s : State) : State :=
  if s.saf.held || rb == s.getBit F.SAF_SBO_STAT_OUT n || decide (s.clk.now < since + s.sboRbw n) then s else s.sboFail n rb

/-! Permit tokens (R342). -/

/-- PERMIT_TOKEN: a token reaches every ring-port island at `t`. -/
def permitToken (t : Time) (s : State) : State :=
  let s := s.advance t
  if s.overrideCause then s
  else
    let now := s.clk.now
    (List.range 32).foldl (fun s q => s.updPort q (fun p => { p with token := some now })) s

/-- TOKEN_TIMEOUT: the latest token is older than 400 ns. -/
def tokenTimeout (t : Time) (s : State) : State :=
  let s := s.advance t
  let now := s.clk.now
  (List.range 32).foldl (fun s q =>
    match (s.port q).token with
    | some a => if a + ns 400 < now then s.updPort q (fun p => { p with token := none }) else s
    | none => s) s

/-! Safety inputs (R349 to R352). -/

def State.siA (s : State) (p : Nat) : Bool := s.getBit F.SAF_SI_STAT_A p
def State.siB (s : State) (p : Nat) : Bool := s.getBit F.SAF_SI_STAT_B p
def State.siFunc (s : State) (p : Nat) : Nat := s.rd (F.SAF_SI_FUNC p)
def State.siLatch (s : State) (p : Nat) : Bool := s.getBit F.SAF_SI_STAT_DLATCH p
def State.siConsistent (s : State) (p : Nat) : Bool := s.siA p != s.siB p
def State.siDemand (s : State) (p : Nat) : Bool := s.siFunc p != 0 && (!s.siA p || s.siB p || s.siLatch p)

/-- A balustrade channel delivers nothing, or has a channel fault (R340, R354). -/
def State.chanBad (s : State) (c : Nat) : Bool := !s.rdB (F.SAF_BCH_EN c) || s.rdB (F.SAF_BVAL_CFLT c)

/-- VCH or an IMASK channel is bad. -/
def State.powerBad (s : State) : Bool :=
  s.chanBad (s.rd F.SAF_PWR_CFG_VCH) || (List.range 8).any (fun c => s.getBit F.SAF_PWR_CFG_IMASK c && s.chanBad c)

/-- SLD is active (R359). -/
def State.sldActive (s : State) : Bool :=
  let p := s.rd F.SAF_SLD_CFG_PAIR
  s.rdB F.SAF_PWR_CFG_SLD_EN && (s.rdB F.SAF_SLD_CFG_ALWAYS || (s.siFunc p == 2 && s.siDemand p))

/-- The live bits of the island's functions, and `SAF_SI_STAT.DEM`, follow their conditions (R350, R352, R356, R358,
R359). -/
def State.safLives (s : State) : State :=
  let dem := (List.range 8).filter s.siDemand
  let s := s.wr F.SAF_SI_STAT_DEM (ofBits dem)
  let s := s.live 0x070 (dem.any (fun p => s.siFunc p == 1 || s.siFunc p == 3))
  let slc (a : Nat) : Bool := s.rdB (F.SAF_SLC_EN a) && (bitOf s.saf.slcOver a || s.chanBad (s.rd (F.SAF_SLC_BCH a)))
  let s := s.live 0x071 ((List.range 6).any slc)
  let far := decide ((s.rd F.SAF_SLR_BAND_BAND : Int) * 65536 < ((s.saf.pm * 65536 - s.saf.penv).natAbs : Int))
  let s := s.live 0x072 (s.rdB F.SAF_PWR_CFG_SLR_EN && (far || s.powerBad))
  let sld := s.sldActive
  let s := s.live 0x073 (sld && (decide (max 1 (s.rd F.SAF_SLD_CFG_N) ≤ s.saf.sldRun) || s.powerBad))
  (List.range 8).foldl (fun s p => s.live (0x078 + p) (s.siLatch p)) s

/-- The discrepancy time of a pair. -/
def State.discTime (s : State) (p : Nat) : Time := clampN 10 100000 (s.rd (F.SAF_SI_DISC p)) * 100 * ns 1000

def State.setDisc (s : State) (p : Nat) (t : Option Time) : State :=
  { s with saf := { s.saf with disc := Store.put s.saf.disc none p t } }

/-- The timer of a pair has reached its time. -/
def State.discDue (s : State) (p : Nat) : Bool :=
  match Store.get s.saf.disc none p with
  | some a => decide (a + s.discTime p ≤ s.clk.now)
  | none => false

/-- The pair's timer follows its consistency. -/
def State.discStep (s : State) (p : Nat) : State :=
  if s.siFunc p = 0 then s.setDisc p none
  else
    let s := if s.discDue p then s.setBit F.SAF_SI_STAT_DLATCH p true else s
    if s.siConsistent p then s.setDisc p none
    else if (Store.get s.saf.disc none p).isSome then s
    else s.setDisc p (some s.clk.now)

/-- SAFETY_INPUT_CHANGE: ball A or B of pair `p` has held a level since `since`; at `t` that is long enough for the filter,
FILT in µs, and the filtered level changes (R349). -/
def safetyInputChange (p : Fin 8) (chB : Bool) (level : Bool) (since t : Time) (s : State) : State :=
  let s := s.advance t
  if s.saf.held || decide (t < since + clampN 1 255 (s.rd (F.SAF_SI_FILT p)) * microsecond) then s
  else ((s.setBit (if chB then F.SAF_SI_STAT_B else F.SAF_SI_STAT_A) p level).discStep p).safLives

/-- DISCREPANCY_TIMEOUT. -/
def discrepancyTimeout (p : Fin 8) (t : Time) (s : State) : State :=
  let s := s.advance t
  if s.saf.held then s
  else if s.siFunc p != 0 && s.discDue p then (s.setBit F.SAF_SI_STAT_DLATCH p true).safLives
  else s

/-- `SAF_CMD.DCLR` (R351): each bit of an inconsistent pair is one refused clear (DEDUCED, log entry 81). -/
def dclr (mask : Nat) (s : State) : State :=
  if s.saf.held then s
  else
    let l := bitList mask 8
    (l.foldl (fun s p =>
      if s.siConsistent p then s.setBit F.SAF_SI_STAT_DLATCH p false
      else (s.wrB F.SAF_ERR_DCLR_REF true).incSat F.SAF_CNT_DCLR_REF) s).safLives

/-- SAF_RESET: the island is held in reset, or leaves it with the levels `a` and `b` on its input balls; `rail`: the
safety rail has returned (R345, R349, R365). -/
def safReset (held rail : Bool) (a b : Nat) (s : State) : State :=
  if held && s.saf.held then s
  else if held then
    let wasOpen := s.lockOpen
    let s := [R.SAF_ERR, R.SAF_CNT, R.SAF_SI_STAT, R.SAF_SBO_STAT, R.SAF_PM, R.SAF_PENV, R.SAF_PCRC, R.SAF_LOCK].foldl
      (fun (s : State) o => s.setReg o 0) s
    let s := (List.range 8).foldl (fun (s : State) c => s.setReg (R.SAF_BVAL c) 0) s
    let s := (s.wr F.SAF_STAT_STATE 0).wrB F.SAF_ERR_LOCK_TO wasOpen
    let s := { s with saf := { held := true } }
    if s.pwr.held then { s with pwr := { s.pwr with causes := ofBits (4 :: bitList s.pwr.causes 6) } }
    else s.presentPw .hubHw R.CLK_RST_CAUSE (s.reg R.CLK_RST_CAUSE ||| 16)
  else if !s.saf.held then s
  else
    let now := s.clk.now
    let s := ({ s with saf := { upAt := now } }).live 0x075 false
    let s := (s.wr F.SAF_SI_STAT_A a).wr F.SAF_SI_STAT_B b
    let s := if rail then s.raise 0x075 else s
    ((List.range 8).foldl State.discStep s).safLives

/-! The balustrade (R353 to R359). -/

def State.bal (s : State) (c : Nat) : BalCh := Store.get s.saf.chans {} c
def State.setBal (s : State) (c : Nat) (x : BalCh) : State :=
  { s with saf := { s.saf with chans := Store.put s.saf.chans {} c x } }
def State.balCode (s : State) (c : Nat) : Int := sext 16 (s.rd (F.SAF_BVAL_CODE c))

/-- The code of a filter sum from 0 to 32,768. -/
def balCodeOf (sum : Nat) (pol : Bool) : Int :=
  let v := clampI (-32767) 32767 (2 * (sum : Int) - 32768)
  if pol then -v else v

/-- A bit of a balustrade channel (R353, R354): the sinc3 filter of decimation 32, and the run of equal bits. -/
def BalCh.bit (x : BalCh) (b : Bool) : BalCh :=
  let ix := x.bitIx + 1
  let run := if b == x.lastBit then min 64 (x.bitRun + 1) else 1
  { x with sinc := sincBit (ix % 32 == 0) b x.sinc, bitIx := ix, lastBit := b, bitRun := run, stuck := x.stuck || run == 64 }

/-- The 32 bits of an output period (R353): bit i of `rise` or of `fall`, the levels of MI_DATc' at the rising and the
falling edges of MI_CLKc', as EDGE chooses. -/
def State.balSample (s : State) (c rise fall : Nat) : State :=
  let dat := if s.rdB (F.SAF_BCH_EDGE c) then fall else rise
  s.setBal c ((List.range 32).foldl (fun (x : BalCh) i => x.bit (dat.testBit i)) { s.bal c with stuck := false })

/-- The means of a block differ by more than XTOL, or the CONTROL outputs are missing (R340, R355). -/
def State.crossBad (s : State) (c : Nat) (x : BalCh) : Bool :=
  let l := (s.outputs (s.rd (F.SAF_BCH_MI c)) 1).filter (fun o => decide (x.start < o.1) && decide (o.1 ≤ s.clk.hall))
  let ctl : Int := (l.map (fun o => (sext 24 o.2.toNat) / 256)).sum
  let n : Int := l.length
  l.isEmpty || decide ((max 1 (s.rd (F.SAF_BCH_XTOL c)) : Int) * 256 * n < ((x.sum * n - ctl * 256).natAbs : Int))

/-- The cross-check of an output. -/
def State.crossCheck (s : State) (c : Nat) (code : Int) : State :=
  let x := s.bal c
  if !s.rdB (F.SAF_BCH_XEN c) then s.setBal c { x with n := 0, sum := 0, misses := 0, xfail := false, start := s.clk.hall }
  else
    let x := { x with n := x.n + 1, sum := x.sum + code }
    if x.n < 256 then s.setBal c x
    else
      let m := if s.crossBad c x then x.misses + 1 else 0
      s.setBal c { x with n := 0, sum := 0, start := s.clk.hall, misses := m, xfail := decide (2 ≤ m) }

/-- The channel fault follows its causes: it ends after 256 fault-free outputs (R354). -/
def State.chanFault (s : State) (c : Nat) (cause : Bool) : State :=
  let x := s.bal c
  let bad := cause || x.xfail || x.noClk
  let good := if bad then 0 else x.good + 1
  let fault := bad || (x.fault && decide (good < 256))
  let s := s.setBal c { x with fault := fault, good := min 256 good }
  let s := if fault && !x.fault then s.setBit F.SAF_ERR_BCHF c true else s
  s.wrB (F.SAF_BVAL_CFLT c) fault

/-- SLC of the arms that the channel serves. -/
def State.slcCheck (s : State) (c : Nat) : State :=
  (List.range 6).foldl (fun s a =>
    if s.rd (F.SAF_SLC_BCH a) != c || !s.rdB (F.SAF_SLC_EN a) then s
    else
      let isOver := decide (max 1 (s.rd (F.SAF_SLC_LIM a)) < (s.balCode c).natAbs)
      let n := if isOver then min 15 (Store.get s.saf.slcRun 0 a + 1) else 0
      let bits := (bitList s.saf.slcOver 6).filter (fun k => k != a || isOver)
      let bits := if isOver && decide (max 1 (s.rd (F.SAF_SLC_COUNT a)) ≤ n) then bits ++ [a] else bits
      { s with saf := { s.saf with slcRun := Store.put s.saf.slcRun 0 a n, slcOver := ofBits bits } }) s

/-- The sum of current codes of R357. -/
def State.currentSum (s : State) : Int :=
  ((List.range 8).map (fun c =>
    if s.getBit F.SAF_PWR_CFG_IMASK c then (if s.getBit F.SAF_PWR_CFG_INEG c then -(s.balCode c) else s.balCode c) else 0)).sum

/-- A window ends with power `p` (R358, R359). -/
def State.powerWindow (s : State) (p : Int) : State :=
  let r : Int := s.rd F.SAF_SLR_RATE_R
  let on := s.rdB F.SAF_PWR_CFG_SLR_EN
  let env := if !on then s.saf.penv else if s.saf.fresh then p * 65536
    else s.saf.penv + clampI (-r) r (p * 65536 - s.saf.penv)
  let q := if s.rdB F.SAF_SLD_CFG_DIR then -p else p
  let viol := s.sldActive && decide (q < -(s.rd F.SAF_SLD_CFG_BAND : Int))
  let s := { s with saf := { s.saf with pm := p, penv := env, fresh := s.saf.fresh && !on, winSum := 0, winN := 0,
                                        sldRun := if viol then min 15 (s.saf.sldRun + 1) else 0 } }
  (s.wr F.SAF_PM_P (satField 32 p)).wr F.SAF_PENV_P (satField 32 (env / 65536))

/-- An output of VCH (R357). -/
def State.powerOutput (s : State) (v : Int) : State :=
  let p := (v * s.currentSum) / 32768
  let e := clampN 4 14 (s.rd F.SAF_PWR_CFG_ESH)
  let sum := s.saf.winSum + p
  if s.saf.winN + 1 < 2 ^ e then { s with saf := { s.saf with winSum := sum, winN := s.saf.winN + 1 } }
  else s.powerWindow (sum / 2 ^ e)

/-- BALUSTRADE_OUTPUT: channel `c` has taken 32 bits and completes an output at `t` (R353); `per`: the period of its clock,
which faults the channel outside 20 ns to 220 ns, as does a data bit that has held for 64 periods (R354). -/
def balustradeOutput (c : Fin 8) (rise fall : Nat) (per t : Time) (s : State) : State :=
  let s := s.advance t
  if s.saf.held || !s.rdB (F.SAF_BCH_EN c) then s
  else
    let s := s.balSample c rise fall
    let x := s.bal c
    let code := balCodeOf (x.sinc.outs.headD 0) (s.rdB (F.SAF_BCH_POL c))
    let cause := decide (per < ns 20) || decide (ns 220 < per) || x.stuck
    let s := s.setBal c { x with noClk := false }
    let s := ((s.wrI (F.SAF_BVAL_CODE c) code).crossCheck c code).chanFault c cause
    let s := s.slcCheck c
    let s := if s.rd F.SAF_PWR_CFG_VCH = c.val then s.powerOutput code else s
    s.safLives

/-- BALUSTRADE_CLOCK_LOSS: the latest edge of the channel's clock came at `edge`; without one for 1 µs the channel has a
fault (R354). -/
def balustradeClockLoss (c : Fin 8) (edge : Time) (s : State) : State :=
  if s.saf.held || !s.rdB (F.SAF_BCH_EN c) || decide (s.clk.now < edge + microsecond) then s
  else ((s.setBal c { s.bal c with noClk := true }).chanFault c true).safLives

/-! The lock and the parameter set (R364 to R366). -/

/-- LOCK_KEY: a write of `SAF_LOCK.KEY` at `t`. -/
def lockKey (key : Nat) (t : Time) (s : State) : State :=
  let s := s.advance t
  let now := s.clk.now
  if s.saf.held || s.lockOpen then s
  else if key = 0xC5 ∧ s.saf.keyAt = none then { s with saf := { s.saf with keyAt := some now } }
  else
    let good := key == 0x3A && !s.anyDeblocked && s.safState != 3 &&
      (match s.saf.keyAt with | some a => decide (now ≤ a + millisecond) | none => false)
    if good then
      let set := paramRegs.filterMap (fun o => if s.reg o = 0 then none else some (o, s.reg o))
      let s := { s with saf := { s.saf with keyAt := none, openAt := some now, shadow := set } }
      s.wrB F.SAF_LOCK_OPEN true
    else
      let s := { s with saf := { s.saf with keyAt := if key = 0xC5 then some now else none } }
      s.raise 0x00F

/-- The fault sources of the severity fields of `SAF_SEV0` and `SAF_SEV1`, with the fields' lowest bits. -/
def sevFields (off : Nat) : List (Nat × Nat) :=
  if off = R.SAF_SEV0 then (List.range 6).map (fun k => (0x070 + k, 3 * k)) ++ [(0x0A7, 18)]
  else if off = R.SAF_SEV1 then (List.range 8).map (fun k => (0x078 + k, 3 * k))
  else []

def srcFloor (src : Nat) : Nat :=
  match srcInfo src with
  | some x => x.floor
  | none => 0

/-- The value that a write of the severities stores: at most S4 and at least each source's floor (R321, R343). -/
def sevStored (off : Nat) (v : Word) : Word :=
  BitVec.ofNat 32 ((sevFields off).foldl (fun w f => setBits w f.2 3 (max (min 4 (bits w f.2 3)) (srcFloor f.1))) v.toNat)

def sevLow (off : Nat) (v : Word) : Bool :=
  (sevFields off).any (fun f => decide (bits v.toNat f.2 3 < srcFloor f.1))

/-- A write of an LRW register with the lock open: the shadow set, or `SAF_PCRC` (R11, R364); a severity below its floor
sets `FLT_ERR.FLOOR` (R321, R343). -/
def State.lrwWrite (s : State) (off : Nat) (v : Word) : State :=
  if s.saf.held then s
  else if !s.lockOpen then s.raise 0x00F
  else
    match regRow off with
    | some r =>
      let v := v &&& BitVec.ofNat 32 r.lrw
      if off = R.SAF_PCRC then s.setReg off v
      else
        let s := if sevLow off v then s.wrB F.FLT_ERR_FLOOR true else s
        { s with saf := { s.saf with shadow := Store.put s.saf.shadow 0 off (sevStored off v) } }
    | none => s

/-- The lock closes and the shadow set is gone. -/
def State.closeLock (s : State) : State :=
  ({ s with saf := { s.saf with openAt := none, shadow := [] } }).wrB F.SAF_LOCK_OPEN false

/-- CRC-32 of the shadow set (R365). -/
def State.shadowCrc (s : State) : Nat := crcWords (paramRegs.map (fun o => Store.get s.saf.shadow 0 o))

/-- The shadow set becomes the active set. -/
def State.activate (s : State) : State :=
  let set := s.saf.shadow
  let slr := s.rdB F.SAF_PWR_CFG_SLR_EN
  let s := paramRegs.foldl (fun (s : State) o => s.setReg o (Store.get set 0 o)) s
  let s := if s.rdB F.SAF_PWR_CFG_SLR_EN && !slr then { s with saf := { s.saf with fresh := true } } else s
  let id := (s.rd F.SAF_ID_ACT_CNT + 1) % 2 ^ 16
  let store (s : State) (o : Nat) (v : Word) : State := s.presentPw .safety o v
  let s := paramRegs.foldl (fun s o => store s o (s.reg o)) s
  store s R.SAF_ID (BitVec.ofNat 32 (setBits (s.reg R.SAF_ID).toNat 16 16 id))

/-- `SAF_LOCK.CLOSE`: compare, activate and store, or discard (R365, R507). In PERMIT the outputs follow the new set (R345). -/
def lockClose (s : State) : State :=
  if s.saf.held || !s.lockOpen then s
  else
    let crc := s.shadowCrc
    if s.rd F.SAF_PCRC_CRC = crc && !paramRegs.any (fun o => s.readOnly (prbBlockOf o)) then
      let s := (s.activate).wr F.SAF_PCRC_ACT_CRC crc
      let s := if s.safState = 2 then s.setSbo s.sboEnabled else s
      let s := (List.range 8).foldl State.discStep s.closeLock
      s.safLives
    else (s.wrB F.SAF_ERR_PCRC true).closeLock

/-- `SAF_LOCK.ABANDON`. -/
def lockAbandon (s : State) : State := if s.saf.held || !s.lockOpen then s else s.closeLock

/-- LOCK_TIMEOUT: ten minutes after the lock opened. -/
def lockTimeout (t : Time) (s : State) : State :=
  let s := s.advance t
  match s.saf.openAt with
  | some a => if a + 600 * second ≤ s.clk.now then (s.wrB F.SAF_ERR_LOCK_TO true).closeLock else s
  | none => s

/-! Diagnostics (R361). -/

/-- A measured frequency of SAF_OSC, in ppm of its nominal value, lies within ±5 % (Table 6). -/
def oscOk (ppm : Nat) : Bool := decide (950000 ≤ ppm) && decide (ppm ≤ 1050000)

/-- The read-back balls stand at the levels `m` (R348): 0x074 ends once the read-back of every output that failed has agreed
with its output for RBW without a break. -/
def State.readBack (s : State) (m : Nat) : State :=
  let s := s.wr F.SAF_SBO_STAT_RB m
  let now := s.clk.now
  let s := (bitList s.saf.sboBad 4).foldl (fun s n =>
    let ok := bitOf m n == s.getBit F.SAF_SBO_STAT_OUT n
    let was := Store.get s.saf.sboOk none n
    { s with saf := { s.saf with sboOk := Store.put s.saf.sboOk none n (if ok then was.orElse (fun _ => some now) else none) } }) s
  let still (n : Nat) : Bool :=
    match Store.get s.saf.sboOk none n with
    | some a => decide (now < a + s.sboRbw n)
    | none => true
  let bad := bitList s.saf.sboBad 4
  if bad.isEmpty || bad.any still then s
  else ({ s with saf := { s.saf with sboBad := 0, sboOk := [] } }).live 0x074 false

/-- SAFETY_DIAGNOSTIC: one diagnostic of Table 6 and its result. -/
def safetyDiagnostic (d : SafDiag) (ok : Bool) (s : State) : State :=
  if s.saf.held then s
  else
    match d with
    | .osc a b =>
      let s := s.live 0x0A7 (!(oscOk a && oscOk b))
      if oscOk a || oscOk b then s else safetyInternalFault s
    | .readBack m => s.readBack m
    | .paramCrc => if ok && s.paramOk then s else safetyInternalFault s
    | _ => if ok then s else safetyInternalFault s

end Sys2Proof.Machine
end

