-- ==== Sys2Proof/Machine/Recorder.lean ====
section
/-!
DEFINITION. Machine/Recorder.lean: the transient fault recorder (spec/15): slices, segments, arming, the end of a segment,
delivery to the host. What a trigger does is in Machine/RecTrig.lean.
-/

namespace Sys2Proof.Machine

/-! Slices (R442 to R444, R446). -/

/-- Bytes of a slice. -/
def State.sliceSize (s : State) : Nat := if s.rd F.REC_CTRL_RED = 0 then 2176 else 4288

/-- The arm words of the frame being emitted (Table 1). -/
def State.noteFrame (s : State) (blocked : Nat → Bool) : State :=
  let w (a : Nat) : Nat := s.rd (F.GAL_ARM_STAT_N_EFF a) % 4096 + b2n (s.rdB (F.GAL_ARM_STAT_POL a)) * 4096 +
    b2n (blocked a) * 8192
  { s with recd := { s.recd with frames := Store.put s.recd.frames [] s.cyc ((List.range 6).map w) } }

/-- The input word of channel `c` at cycle start `h` (R442). -/
def State.inputWord (s : State) (c : Nat) (h : Time) : Nat :=
  if s.chanOn c then (s.outputAt c 3 h).toNat else placeholder.toNat

/-- The cell word of local index `i` for frame `k`, whose cycle ended at hall time `h` (R443). -/
def State.cellWord (s : State) (i k : Nat) (h : Time) : Nat :=
  let c := s.galCell i
  match (Store.get s.recd.ups [] i).find? (fun x => !serialLt k x.1) with
  | none => 0
  | some (_, v) =>
    if s.cellInfo i = 0 then 0
    else
      let lead := match s.armOf (i / 32) with | some a => ns (s.lead a) | none => 0
      v + b2n (c.levelAt (h + lead - 1) != 0) * 2 ^ 15

/-- Slice `k` as it completes; `stored`: the memory port takes it. -/
def State.makeSlice (s : State) (k : Nat) (stored : Bool) : Slice :=
  let tk := match s.clk.starts.find? (fun c => c.1 == k) with | some c => c.2.2 | none => s.clk.tkHall
  let cells := (List.range 1024).filterMap (fun i => let w := s.cellWord i k (tk + s.cycT); if w = 0 then none else some (i, w))
  { cyc := k, hall := tk, arms := Store.get s.recd.frames [] k, late := Store.get s.recd.lates 0 k,
    inputs := (List.range 16).map (fun c => s.inputWord c tk), cells := cells, gap := !stored }

/-- Flags OVR, CLKF, SETTLING of both words, SEQ of the later one, and the code of `x` or `y`. -/
def mergeInput (x y : Nat) (big : Bool) : Nat :=
  let cx := sext 24 x
  let cy := sext 24 y
  let code := if big then max cx cy else min cx cy
  toField 24 code + (bits x 24 3 ||| bits y 24 3) * 2 ^ 24 + bits y 27 5 * 2 ^ 27

/-- Minimum or maximum of a cell word (R444). -/
def mergeCell (x y : Nat) (big : Bool) : Nat :=
  let v := if big then max (bits x 0 14) (bits y 0 14) else min (bits x 0 14) (bits y 0 14)
  let lv := if big then bitOf x 15 || bitOf y 15 else bitOf x 15 && bitOf y 15
  v + b2n (bitOf x 14 || bitOf y 14) * 2 ^ 14 + b2n lv * 2 ^ 15

/-- Two cell stores merged word by word. -/
def mergeCells (a b : Store Nat) (big : Bool) : Store Nat :=
  (List.range 1024).filterMap (fun i =>
    let w := mergeCell (Store.get a 0 i) (Store.get b 0 i) big
    if w = 0 then none else some (i, w))

/-- A slice enters the reduced slice of its interval. -/
def Slice.merge (a b : Slice) : Slice :=
  let two (l m : List Nat) (big : Bool) : List Nat := (List.range 16).map (fun c => mergeInput (nth l c 0) (nth m c 0) big)
  { a with late := a.late ||| b.late, inputs := two a.inputs b.inputs false, inMax := two a.inMax b.inputs true,
           cells := mergeCells a.cells b.cells false, cellMax := mergeCells a.cellMax b.cells true, gap := a.gap || b.gap }

/-- Triggers of a slice: of its cycle, or of its interval. -/
def State.sliceTrigs (s : State) (k : Nat) : Nat :=
  (List.range (s.rd F.REC_CTRL_RED + 1)).foldl (fun m j => m ||| Store.get s.recd.trigs 0 ((k + j) % 2 ^ 32)) 0

/-- The bytes of a slice as one number, lowest byte first. -/
def State.sliceBytes (s : State) (x : Slice) : Nat :=
  let words (l : List Nat) (at_ : Nat) : Nat :=
    (List.range l.length).foldl (fun v j => v + nth l j 0 % 2 ^ 32 * 2 ^ (8 * (at_ + 4 * j))) 0
  let cells (l : Store Nat) (at_ : Nat) : Nat := l.foldl (fun v p => v + p.2 % 2 ^ 16 * 2 ^ (8 * (at_ + 2 * p.1))) 0
  let head := x.cyc % 2 ^ 32 + hallS x.hall % 2 ^ 48 * 2 ^ 32 + hallNs x.hall * 2 ^ 80
  if x.gap then head
  else
    let top := head + words x.arms 16 + s.sliceTrigs x.cyc * 2 ^ 320 + x.late % 2 ^ 32 * 2 ^ 352
    if s.rd F.REC_CTRL_RED = 0 then top + words x.inputs 64 + cells x.cells 128
    else top + words x.inputs 64 + words x.inMax 128 + cells x.cells 192 + cells x.cellMax 2240

/-! Segments (R449 to R452). -/

def State.nseg (s : State) : Nat := clampN 1 4096 (s.rd F.REC_SEG_NSEG)

/-- SEG_LEN (R449). -/
def State.segLen (s : State) : Nat := min 256 (s.rd F.REC_MEM_SIZE) * 2 ^ 26 / (s.nseg * s.sliceSize)

/-- `REC_STAT` follows the segment table. -/
def State.showSegs (s : State) : State :=
  let used := (s.recd.segs.filter (fun p => p.2.st != 0 && decide (p.1 < s.nseg))).length
  let s := s.wr F.REC_STAT_NFREE (s.nseg - used)
  match s.recd.cur with
  | some j => ((s.wrB F.REC_STAT_ARMED true).wrB F.REC_STAT_POST ((s.seg j).st == 2)).wr F.REC_STAT_SEG j
  | none => (s.wrB F.REC_STAT_ARMED false).wrB F.REC_STAT_POST false

/-- The segment that R452 arms next, and whether it is taken from FULL. -/
def State.nextSeg (s : State) : Option (Nat × Bool) :=
  let n := s.nseg
  let order := (List.range n).map (fun j => (s.recd.lastSeg + 1 + j) % n)
  match order.find? (fun j => (s.seg j).st == 0) with
  | some j => some (j, false)
  | none =>
    if s.rdB F.REC_CTRL_WRAP then
      match s.recd.full.find? (fun j => (s.seg j).st == 3) with
      | some j => some (j, true)
      | none => none
    else none

/-- A segment is armed from slice `first` with the slices already complete, and a held trigger fires in it (R451, R452). -/
def State.arm (s : State) (first : Nat) (have_ : List Slice) : State :=
  if s.recd.cur.isSome || !s.rdB F.REC_CTRL_EN then s
  else
    match s.nextSeg with
    | none => s.showSegs
    | some (j, taken) =>
      let s := s.setSeg j { st := 1, slices := have_, first := first, reduced := s.rd F.REC_CTRL_RED != 0 }
      let full := if taken then s.recd.full.filter (fun x => x != j) else s.recd.full
      let held := s.recd.held
      let s := { s with recd := { s.recd with cur := some j, full := full, lastSeg := j, held := none } }
      match held with
      | none => s.showSegs
      | some (k, h, m) =>
        let s := s.setSeg j { s.seg j with st := 2, trigCyc := k, trigHall := h, tsrc := m }
        ((s.incSat F.REC_CNT_TRIGS).count 0x00B).showSegs

/-- The number of the slice that completes next: what a segment armed now begins with. -/
def State.nextSlice (s : State) : Nat :=
  match s.clk.starts with
  | _ :: p :: _ => s.sliceNo (if s.recd.doneCyc == some p.1 then s.cyc else p.1)
  | _ => s.sliceNo s.cyc

/-- The oldest FULL segment is to be copied when the host area and the ring have room (R453). -/
def State.recBytes (s : State) (g : Segment) : Nat := g.slices.length * s.sliceSize
def State.recArea (s : State) : Nat := s.rd F.REC_HSIZE_SIZE * 64
def State.recRing (s : State) : Nat := 48 + s.rd F.REC_CTRL_DRING

/-- Where a segment of `len` bytes goes in the host area, when it fits beside what is not returned. -/
def State.areaFor (s : State) (len : Nat) : Option Nat :=
  let o0 := s.recd.hoffs
  let o := if o0 + len ≤ s.recArea then o0 else 0
  if o + len ≤ s.recArea && s.recd.areas.all (fun a => decide (o + len ≤ a.2.1) || decide (a.2.1 + a.2.2 ≤ o)) then some o
  else none

def State.startCopy (s : State) : State :=
  if !s.rdB F.REC_CTRL_DELIV || s.recd.full.any (fun j => (s.seg j).st == 4) then s
  else if s.recArea < (s.rd F.REC_PP_PRE + s.rd F.REC_PP_POST + 1) * s.sliceSize then s.wrB F.REC_ERR_HAREA true
  else
    match s.recd.full with
    | [] => s
    | j :: _ =>
      let g := s.seg j
      if (s.areaFor (s.recBytes g)).isSome && s.ringOn s.recRing && !s.ringFull s.recRing then s.setSeg j { g with st := 4 }
      else s

/-- The segment in POST closes with what it holds up to slice `last`; later slices go on to the next (R450, R452). -/
def State.closeSeg (s : State) (last : Nat) : State :=
  match s.recd.cur with
  | none => s
  | some j =>
    let g := s.seg j
    let pre := s.rd F.REC_PP_PRE
    let mine := g.slices.filter (fun x => !serialLt last x.cyc &&
      (!serialLt x.cyc g.trigCyc || decide (s.sliceDist x.cyc g.trigCyc ≤ pre)))
    let rest := g.slices.filter (fun x => serialLt last x.cyc)
    let gap := mine.any Slice.gap
    let s := s.setSeg j { g with st := 3, slices := mine, gap := gap }
    let s := { s with recd := { s.recd with cur := none, full := s.recd.full ++ [j], lastSeg := j } }
    let next := (last + s.rd F.REC_CTRL_RED + 1) % 2 ^ 32
    ((s.arm next rest).startCopy).showSegs

/-- Number of the last slice of a POST window. -/
def State.postEnd (s : State) (g : Segment) : Nat := (g.trigCyc + s.rd F.REC_PP_POST * (s.rd F.REC_CTRL_RED + 1)) % 2 ^ 32

/-- SEGMENT_FULL: the POST slices of the segment are complete. -/
def segmentFull (s : State) : State :=
  match s.recd.cur with
  | none => s
  | some j =>
    let g := s.seg j
    let e := s.postEnd g
    if g.st = 2 && g.slices.any (fun x => !serialLt x.cyc e) then s.closeSeg e else s

/-- A slice, full or reduced, is complete (R446, R449). -/
def State.putSlice (s : State) (x : Slice) : State :=
  let s := if x.gap then ((s.wrB F.REC_ERR_GAP true).raise 0x0E4) else s
  match s.recd.cur with
  | none => s
  | some j =>
    let g := s.seg j
    if serialLt x.cyc g.first then s
    else
      let l := g.slices ++ [x]
      let l := if g.st = 1 then l.drop (l.length - (s.rd F.REC_PP_PRE + 8)) else l
      s.setSeg j { g with slices := l }

/-- The slice of cycle `k` completes at the hand-off (R442, R444). -/
def State.sliceDone (s : State) (k : Nat) (stored : Bool) : State :=
  let drop (s : State) : State :=
    { s with recd := { s.recd with frames := s.recd.frames.filter (fun p => serialLt k p.1),
                                   lates := s.recd.lates.filter (fun p => serialLt k p.1) } }
  if !s.rdB F.REC_CTRL_EN then drop s
  else
    let x := s.makeSlice k stored
    let red := s.rd F.REC_CTRL_RED
    let s := drop s
    if red = 0 then s.putSlice x
    else
      let acc := match s.recd.acc with
        | some a => if s.sliceNo k = a.cyc then a.merge x else { x with cyc := s.sliceNo k, inMax := x.inputs, cellMax := x.cells }
        | none => { x with cyc := s.sliceNo k, inMax := x.inputs, cellMax := x.cells }
      if k % (red + 1) = red then ({ s with recd := { s.recd with acc := none } }).putSlice acc
      else { s with recd := { s.recd with acc := some acc } }

/-- The hand-off completes the slice of the cycle before the present one, when there was one. -/
def State.handOff (s : State) (stored : Bool) : State :=
  match s.clk.starts with
  | _ :: p :: _ =>
    if s.recd.doneCyc == some p.1 then s
    else ({ s with recd := { s.recd with doneCyc := some p.1 } }).sliceDone p.1 stored
  | _ => s

/-! Commands and edges. -/

/-- A trigger source fires and what its loss raises follows. -/
def State.fireNow (s : State) (src : Nat) (hall : Time) : State :=
  let r := s.fire src hall
  (r.1.raiseAll 3 r.2).showSegs

/-- TRIG_IN_EDGE: TRIG_INn has taken a level at hall time `h` and held it for FILT (R447). -/
def trigInEdge (n : Fin 4) (level : Bool) (h : Time) (s : State) : State :=
  let s := s.advanceHall (h + ns (10 * s.erd F.REC_TRG_CFG_FILT))
  let was := bitOf s.recd.trigIn n
  let s := { s with recd := { s.recd with trigIn := setBits s.recd.trigIn n 1 (b2n level) } }
  let e := s.erd (F.REC_TRG_CFG_EDGE n)
  if level != was && (decide (2 ≤ e) || (e == 0 && level) || (e == 1 && !level)) then s.fireNow n h else s

/-- `REC_CMD.TRIG`. -/
def recTrig (s : State) : State := s.fireNow 25 s.clk.hall

/-- `REC_CMD.STOP`: the armed segment is freed. -/
def recStop (s : State) : State :=
  match s.recd.cur with
  | some j =>
    if (s.seg j).st = 1 then (({ s with recd := { s.recd with cur := none } }).setSeg j {}).showSegs else s
  | none => s

/-- `REC_CMD.FREE` of segment `j`, with DELIV = 0. -/
def recFree (j : Nat) (s : State) : State :=
  if (s.seg j).st = 3 && !s.rdB F.REC_CTRL_DELIV then
    let s := (s.setSeg j {})
    let s := { s with recd := { s.recd with full := s.recd.full.filter (fun x => x != j) } }
    (s.arm s.nextSlice []).showSegs
  else s

/-- EN may be set (R445, R449). -/
def State.recOk (s : State) : Bool :=
  let base := s.rd F.REC_MEM_BASE
  let size := min 256 (s.rd F.REC_MEM_SIZE)
  let top := if s.dupMode = 2 then Config.fittedMem - 4 else Config.fittedMem
  size != 0 && decide (base + size ≤ top) && decide (s.rd F.REC_PP_PRE + s.rd F.REC_PP_POST + 1 ≤ s.segLen) &&
    decide (s.rd F.REC_PP_PRE + 8 ≤ s.segLen)

/-- REC_ENABLE: a write of `REC_CTRL` (R445, R455). -/
def recEnable (v : Word) (s : State) : State :=
  let en := bitOf v.toNat 0
  let put (s : State) (f : Fld) : State := s.wr f (bits v.toNat f.lo f.w)
  let s0 := (put (put s F.REC_CTRL_WRAP) F.REC_CTRL_DRING)
  if s.rdB F.REC_CTRL_EN then
    let changed := bits v.toNat 16 16 != s.rd F.REC_CTRL_RED || bitOf v.toNat 2 != s.rdB F.REC_CTRL_DELIV
    let s := if changed then s0.wrB F.REC_ERR_CFG_WR true else s0
    if en then s
    else
      let s := s.wrB F.REC_CTRL_EN false
      match s.recd.cur with
      | some j =>
        let g := s.seg j
        if g.st = 2 then
          let last := match g.slices.getLast? with | some x => x.cyc | none => g.trigCyc
          s.closeSeg last
        else (({ s with recd := { s.recd with cur := none, acc := none } }).setSeg j {}).showSegs
      | none => s.showSegs
  else
    let s := put (put s0 F.REC_CTRL_RED) F.REC_CTRL_DELIV
    if !en then s
    else if s.recOk then
      let s := s.wrB F.REC_CTRL_EN true
      let s := { s with recd := { s.recd with lastSeg := s.nseg - 1, acc := none, held := none } }
      s.arm s.nextSlice []
    else s.wrB F.REC_ERR_CFG_WR true

/-- The ring entry of a segment, without its phase (Table 4). -/
def State.recEntry (s : State) (j offs : Nat) : Nat :=
  let g := s.seg j
  let pre := (g.slices.filter (fun x => serialLt x.cyc g.trigCyc)).length
  1 + j % 4096 * 2 ^ 8 + b2n g.gap * 2 ^ 20 + b2n (decide (pre < s.rd F.REC_PP_PRE)) * 2 ^ 21 + b2n g.retrig * 2 ^ 22 +
    b2n g.reduced * 2 ^ 23 + g.trigCyc % 2 ^ 32 * 2 ^ 32 + hallS g.trigHall % 2 ^ 48 * 2 ^ 64 + hallNs g.trigHall * 2 ^ 112 +
    g.tsrc % 2 ^ 26 * 2 ^ 144 + pre % 2 ^ 16 * 2 ^ 176 + offs % 2 ^ 32 * 2 ^ 192 + g.slices.length % 2 ^ 17 * 2 ^ 224

/-- Word `w` of entry `j` of the segment table. -/
def State.segWord (s : State) (j w : Nat) : Nat :=
  let g := s.seg j
  if w = 0 then setBits (bits (s.recEntry j 0) 0 32) 0 8 g.st else if g.st = 0 then 0 else bits (s.recEntry j 0) (32 * w) 32

/-- A loss marker (R454). -/
def State.lossMarker (s : State) : Nat := 2 + (s.recd.lostAt.getD 0) % 2 ^ 32 * 2 ^ 32 + min s.recd.lostN (2 ^ 32 - 1) * 2 ^ 192

/-- SEGMENT_COPY_DONE: the data and the entry of the segment in COPY are in host memory (R453, R454). -/
def segmentCopyDone (s : State) : State :=
  match s.recd.full with
  | [] => s
  | j :: rest =>
    let g := s.seg j
    if g.st != 4 then s
    else
      let n := s.recRing
      let s := if 0 < s.recd.lostN && !s.ringFull n then
          ({ s with recd := { s.recd with lostN := 0, lostAt := none } }).ringWrite n s.lossMarker
        else s
      if s.ringFull n then s
      else
        match s.areaFor (s.recBytes g) with
        | none => s
        | some o =>
          let base := s.rd F.REC_HBASEL_BASE * 64 + 2 ^ 32 * s.rd F.REC_HBASEH_BASE
          let sz := s.sliceSize
          let s := (List.range g.slices.length).foldl (fun s k =>
            match g.slices[k]? with
            | some x => { s with hostMem := writeBytes s.hostMem (base + o + sz * k) sz (s.sliceBytes x) }
            | none => s) s
          let idx := s.rd (F.HQ_RING_STAT_HUB_IDX n)
          let e := s.recEntry j o
          let len := s.recBytes g
          let s := s.ringWrite n e
          let offs := (o + (len + 63) / 64 * 64) % (max 1 s.recArea)
          let s := { s with recd := { s.recd with full := rest, hoffs := offs, areas := s.recd.areas ++ [(idx, o, len)] } }
          let s := (s.wr F.REC_HOFFS_OFFS offs).setSeg j {}
          let s := s.recd.hbPend.foldl (fun (s : State) p => s.setReg p.1 p.2) s
          let s := { s with recd := { s.recd with hbPend := [] } }
          ((s.arm s.nextSlice []).startCopy).showSegs

/-- Software has returned the entries of recorder ring `n` from index `a` to index `b`: their bytes are free (R453). -/
def State.freeAreas (s : State) (n a b : Nat) : State :=
  if s.recRing != n then s
  else
    let sz := s.ringSize n
    let gone (i : Nat) : Bool := decide ((i + sz - a) % sz < (b + sz - a) % sz)
    ({ s with recd := { s.recd with areas := s.recd.areas.filter (fun x => !gone x.1) } }).startCopy

end Sys2Proof.Machine
end

