-- ==== Sys2Proof/Machine/Sched.lean ====
section
/-!
DEFINITION. Machine/Sched.lean: the cores and the thread scheduler (spec/14, R425 to R441): operations, ordered flows,
dispatch and switch. The requester of an operation is a core, or the host (`none`).
-/

namespace Sys2Proof.Machine

/-! Cores. -/

/-- The thread that the hardware holds as running on core `c`, and the thread that `SCH_NEXT` names (R433). -/
def State.coreRun (s : State) (c : Nat) : Option Nat :=
  if s.rdB (F.SCH_CORE_STAT_RUN_V c) then some (s.rd (F.SCH_CORE_STAT_RUN_THR c)) else none
def State.coreNext (s : State) (c : Nat) : Option Nat :=
  if s.rdB (F.SCH_CORE_STAT_NEXT_V c) then some (s.rd (F.SCH_CORE_STAT_NEXT_THR c)) else none
/-- The core runs: started and not stopped; core 0 only once it has started at ENTRY (R426, R441, R489). -/
def State.coreLive (s : State) (c : Nat) : Bool :=
  s.rdB (F.SCH_CORE_CTRL_RUN c) && !s.rdB (F.SCH_CORE_STAT_HALT c) && (c != 0 || s.rdB F.GEN_BOOT_STAT_DONE)

def State.setRun (s : State) (c : Nat) (t : Option Nat) : State :=
  (s.wrB (F.SCH_CORE_STAT_RUN_V c) t.isSome).wr (F.SCH_CORE_STAT_RUN_THR c) (t.getD 0)
def State.setIrq (s : State) (c : Nat) (on : Bool) : State :=
  { s with sch := { s.sch with irq := setBits s.sch.irq c 1 (b2n on) } }
/-- The thread that core `c` should run changes; when it is not the one held there, the dispatch interrupt is raised. -/
def State.setNext (s : State) (c : Nat) (t : Option Nat) : State :=
  let s := (s.wrB (F.SCH_CORE_STAT_NEXT_V c) t.isSome).wr (F.SCH_CORE_STAT_NEXT_THR c) (t.getD 0)
  if s.coreRun c == t then s else s.setIrq c true

/-- Thread `t` no longer should run on any core. -/
def State.offCores (s : State) (t : Nat) : State :=
  (List.range 4).foldl (fun s c => if s.coreNext c == some t then s.setNext c none else s) s

def State.thrPrio (s : State) (t : Nat) : Nat := s.rd (F.SCH_THR_CFG_PRIO t)
/-- Affinity; 0 acts as every core (R441). -/
def State.thrAff (s : State) (t : Nat) : Nat :=
  let a := s.rd (F.SCH_THR_CFG_AFF t)
  if a = 0 then 15 else a

/-! Ordered flows (R438, R439). -/

def State.flow (s : State) (f : Nat) : Flow := Store.get s.sch.flows {} f
/-- A flow with its register. -/
def State.setFlow (s : State) (f : Nat) (x : Flow) : State :=
  let s := { s with sch := { s.sch with flows := Store.put s.sch.flows {} f x } }
  s.wr (F.SCH_FLOW_OLDEST f) (match x.out with | p :: _ => p.1 | [] => s.rd (F.SCH_FLOW_NEXT_TICKET f))

/-- The thread holds no ticket any more. -/
def State.noTicket (s : State) (t : Nat) : State := s.wrB (F.SCH_THR_STAT_TKV t) false

/-- Thread `t` takes the next ticket of flow `f`. -/
def State.giveTicket (s : State) (f t : Nat) : State :=
  let k := s.rd (F.SCH_FLOW_NEXT_TICKET f)
  let s := s.wr (F.SCH_FLOW_NEXT_TICKET f) (k + 1)
  let x := s.flow f
  let s := s.setFlow f { x with out := x.out ++ [(k, t)] }
  let s := ((s.wrB (F.SCH_THR_STAT_TKV t) true).wr (F.SCH_THR_STAT_FLOW t) f).wr (F.SCH_THR_STAT_TICKET t) k
  s.setThr t { s.thr t with tick := k }

/-- Tickets at the head of the flow whose threads wait to release them are released, in ticket order (R439). -/
def State.releaseHeads (fuel : Nat) (s : State) (f : Nat) : State :=
  match fuel with
  | 0 => s
  | n + 1 =>
    let x := s.flow f
    match x.out with
    | [] => s
    | p :: r =>
      if s.thrState p.2 == 7 && (s.thr p.2).rel then
        let s := (s.setFlow f { x with out := r }).noTicket p.2
        let s := s.setThr p.2 { s.thr p.2 with rel := false }
        State.releaseHeads n { s with sch := { s.sch with released := s.sch.released ++ [p.2] } } f
      else s

/-- Waiters take tickets while fewer than 64 are outstanding (R438). -/
def State.admitWaiters (fuel : Nat) (s : State) (f : Nat) : State :=
  match fuel with
  | 0 => s
  | n + 1 =>
    let x := s.flow f
    match x.enter with
    | [] => s
    | t :: r =>
      if x.out.length < 64 then
        State.admitWaiters n (((s.setFlow f { x with enter := r }).giveTicket f t).makeReady t) f
      else s

def State.flowMoves (s : State) (f : Nat) : State := (s.releaseHeads 64 f).admitWaiters 64 f

/-- The ticket of a thread that is suspended, exits or faults is abandoned (R439). -/
def State.abandonTicket (s : State) (t : Nat) : State :=
  if s.rdB (F.SCH_THR_STAT_TKV t) then
    let f := s.rd (F.SCH_THR_STAT_FLOW t)
    let x := s.flow f
    let s := (s.setFlow f { x with out := x.out.filter (fun p => p.2 != t) }).noTicket t
    (s.incSat (F.SCH_FLOW_CNT_ABANDONED f)).flowMoves f
  else s

/-- Thread `t` leaves whatever it runs on or waits for and takes state `st` (R426, R439, Table 3). -/
def State.leave (s : State) (t st : Nat) : State :=
  let s := s.setThr t { s.thr t with wake := none, q := none, cyc := none, rel := false }
  let drop (l : List Nat) : List Nat := l.filter (fun x => x != t)
  let s := { s with sch := { s.sch with flows := s.sch.flows.map (fun (p : Nat × Flow) => (p.1, ({ p.2 with enter := drop p.2.enter } : Flow))),
                                        released := drop s.sch.released, counted := drop s.sch.counted } }
  ((s.setThrState t st).offCores t).abandonTicket t

/-! Results. -/

/-- The result register of a requester (R435). -/
def resFld (who : Option Nat) : Nat :=
  match who with
  | some c => R.SCH_RES c
  | none => R.SCH_HRES

def State.putRes (s : State) (who : Option Nat) (refused blocked tout late susp : Bool) (tick : Nat) : State :=
  s.setReg (resFld who) (BitVec.ofNat 32 (b2n refused + 2 * b2n blocked + 4 * b2n tout + 8 * b2n late + 16 * b2n susp
    + tick % 65536 * 65536))

/-- An operation completes: refused or not, and the caller goes on. -/
def State.opDone (s : State) (who : Option Nat) (refused : Bool) (late : Bool := false) (tick : Nat := 0) : State :=
  s.putRes who refused false false late false tick

/-- The caller leaves RUNNING in state `st` with its wait, and its core is to switch (R434). -/
def State.block (s : State) (who : Option Nat) (t st : Nat) (x : Thr) : State :=
  let s := s.wrB (F.SCH_THR_STAT_TIMEOUT t) false
  let s := ((s.setThr t { x with tick := (s.thr t).tick }).setThrState t st).offCores t
  s.putRes who false true false false false (s.thr t).tick

/-- The tick at which a wait of `arg` ticks ends; none for 0. -/
def State.waitEnd (s : State) (arg : Nat) : Option Nat := if arg = 0 then none else some (s.schTick + arg)

/-! Operations (Table 3). -/

/-- READY (R436). -/
def State.opReady (s : State) (t : Nat) : State :=
  if s.thrState t = 3 then s.makeReady t
  else if s.justOut t none then s.condWins t
  else if s.rdB (F.SCH_THR_STAT_PEND t) then s.incSat F.SCH_CNT_SIG_LOST
  else s.wrB (F.SCH_THR_STAT_PEND t) true

/-- An operation that needs a caller: the thread that the hardware holds as running on the core; refused for the host
(Table 3) and on a core that runs none (DESIGN CHOICE, log entry 60). -/
def State.withCaller (s : State) (who : Option Nat) (f : Nat → State) : State :=
  match who with
  | none => s.opDone who true
  | some c =>
    match s.coreRun c with
    | none => s.opDone who true
    | some t => f t

def opWait (who : Option Nat) (arg : Nat) (s : State) : State :=
  s.withCaller who (fun t =>
    if s.rdB (F.SCH_THR_STAT_PEND t) then
      ((s.wrB (F.SCH_THR_STAT_PEND t) false).wrB (F.SCH_THR_STAT_TIMEOUT t) false).opDone who false
    else s.block who t 3 { wake := s.waitEnd arg })

def opSleep (who : Option Nat) (arg : Nat) (s : State) : State :=
  s.withCaller who (fun t =>
    if arg = 0 ∨ 2 ^ 31 ≤ arg then s.opDone who true else s.block who t 4 { wake := s.waitEnd arg })

def opPrio (who : Option Nat) (t p : Nat) (s : State) : State := (s.wr (F.SCH_THR_CFG_PRIO t) p).opDone who false

def opSuspend (who : Option Nat) (t : Nat) (s : State) : State :=
  let st := s.thrState t
  if 1 ≤ st ∧ st ≤ 7 then
    let self := match who with | some c => s.coreRun c == some t | none => false
    (s.leave t 8).putRes who false self false false false 0
  else s.opDone who true

def opResume (who : Option Nat) (t : Nat) (s : State) : State :=
  if s.thrState t = 8 then ((s.setThr t { s.thr t with susp := true }).makeReady t).opDone who false
  else s.opDone who true

def opWaitQ (who : Option Nat) (q arg : Nat) (s : State) : State :=
  s.withCaller who (fun t =>
    if 48 ≤ q then s.opDone who true
    else if !(s.iqSeen q).items.isEmpty then (s.wrB (F.SCH_THR_STAT_TIMEOUT t) false).opDone who false
    else s.block who t 5 { wake := s.waitEnd arg, q := some q })

/-- WAIT_CYC (R437). -/
def opWaitCyc (who : Option Nat) (k : Nat) (s : State) : State :=
  s.withCaller who (fun t =>
    if serialLt s.cyc k then (s.wrB (F.SCH_THR_STAT_LATE t) false).block who t 6 { cyc := some k }
    else
      let s := s.setThr t { s.thr t with late := true }
      ((s.wrB (F.SCH_THR_STAT_TIMEOUT t) false).wrB (F.SCH_THR_STAT_LATE t) true).opDone who false true)

def opFlowEnter (who : Option Nat) (f : Nat) (s : State) : State :=
  s.withCaller who (fun t =>
    if s.rdB (F.SCH_THR_STAT_TKV t) then s.opDone who true
    else
      let x := s.flow f
      if x.out.length < 64 then
        let s := s.giveTicket f t
        s.opDone who false false (s.thr t).tick
      else
        ((s.setFlow f { x with enter := x.enter ++ [t] }).incSat (F.SCH_FLOW_CNT_FULL_WAITS f)).block who t 7 {})

/-- FLOW_RELEASE; refused to a caller that holds no ticket of the flow (log entry 60). -/
def opFlowRelease (who : Option Nat) (f : Nat) (s : State) : State :=
  s.withCaller who (fun t =>
    if s.rdB (F.SCH_THR_STAT_TKV t) && s.rd (F.SCH_THR_STAT_FLOW t) == f then
      let x := s.flow f
      match x.out with
      | p :: r =>
        if p.2 = t then (((s.setFlow f { x with out := r }).noTicket t).flowMoves f).opDone who false
        else s.block who t 7 { rel := true }
      | [] => s.opDone who true
    else s.opDone who true)

def opExit (who : Option Nat) (s : State) : State :=
  s.withCaller who (fun t => (s.leave t 0).putRes who false true false false false 0)

def opStart (who : Option Nat) (t : Nat) (s : State) : State :=
  if s.thrState t = 0 ∨ s.thrState t = 9 then (s.makeReady t).opDone who false else s.opDone who true

/-- The argument register of a requester. -/
def State.schArg (s : State) (who : Option Nat) : Nat :=
  match who with
  | some c => s.rd (F.SCH_ARG_ARG c)
  | none => s.rd F.SCH_HARG_ARG

/-- A new operation of a thread ends what `SCH_RES` showed of the one before it. -/
def State.newOp (s : State) (who : Option Nat) : State :=
  match who with
  | none => s
  | some c =>
    match s.coreRun c with
    | none => s
    | some t => s.setThr t { s.thr t with susp := false, tout := false, late := false }

/-- An operation written to `SCH_OP` of a core or to `SCH_HOP` (R434). -/
def schOp (who : Option Nat) (w : Word) (s : State) : State :=
  let s := s.newOp who
  let op := bits w.toNat 0 4
  let t := bits w.toNat 8 8
  let f := bits w.toNat 24 4
  let arg := s.schArg who
  match op with
  | 0 => s.opDone who false
  | 1 => (s.opReady t).opDone who false
  | 2 => opWait who arg s
  | 3 => opSleep who arg s
  | 4 => opPrio who t (bits w.toNat 16 5) s
  | 5 => opSuspend who t s
  | 6 => opResume who t s
  | 7 => opWaitQ who t arg s
  | 8 => opWaitCyc who arg s
  | 9 => opFlowEnter who f s
  | 10 => opFlowRelease who f s
  | 11 => opExit who s
  | 12 => opStart who t s
  | _ => s.opDone who true

/-- The word of an operation (Table 6). -/
def opWord (op t p f : Nat) : Word := BitVec.ofNat 32 (op + t * 2 ^ 8 + p * 2 ^ 16 + f * 2 ^ 24)

/-- Time-outs and sleeps that end by tick (R437). -/
def schTimeout (t : Time) (s : State) : State :=
  let s := s.advance t
  let due (w : Option Nat) : Bool := match w with | some k => decide ((s.schTick + 2 ^ 32 - k % 2 ^ 32) % 2 ^ 32 < 2 ^ 31) | none => false
  (s.sch.threads.filter (fun p => due p.2.wake)).foldl
    (fun s p =>
      if s.thrState p.1 = 4 then s.makeReady p.1
      else
        let s := s.setThr p.1 { s.thr p.1 with tout := true, toutAt := some (s.schTick, p.2.q) }
        ((s.wrB (F.SCH_THR_STAT_TIMEOUT p.1) true).incSat F.SCH_CNT_TIMEOUTS).makeReady p.1) s

/-! Dispatch (R431 to R433). -/

/-- The core that takes ready thread `t`: an idle one, lower number first, else the one whose thread has the lowest
priority below that of `t`. -/
def State.coreFor (s : State) (t : Nat) : Option Nat :=
  let cs := (List.range 4).filter (fun c => s.coreLive c && bitOf (s.thrAff t) c)
  match cs.find? (fun c => (s.coreNext c).isNone) with
  | some c => some c
  | none =>
    let p (c : Nat) : Nat := match s.coreNext c with | some u => s.thrPrio u | none => 0
    cs.foldl (fun b c => if p c < s.thrPrio t && (match b with | some d => decide (p c < p d) | none => true) then some c else b) none

/-- Ready threads in the order of a slot: the deferred ones in their places (R37), then the others in the order of the
row of Table 6: higher priority, then lower number. -/
def State.readyThreads (s : State) : List Nat :=
  let l := (List.range 256).filter (fun t => s.thrState t == 1)
  let new := (List.range 32).reverse.flatMap (fun p => l.filter (fun t => s.thrPrio t == p))
  s.sch.counted.filter (fun t => new.contains t) ++ new.filter (fun t => !s.sch.counted.contains t)

/-- Thread `t` is dispatched to core `c`; the thread that it preempts returns to READY. -/
def State.dispatchTo (s : State) (t c : Nat) : State :=
  let s := match s.coreNext c with
    | some u => s.setThrState u 1
    | none => s
  let s := { s with sch := { s.sch with counted := s.sch.counted.filter (fun x => x != t) } }
  (s.setThrState t 2).setNext c (some t)

/-- The first thread that a core takes, and that core. -/
def State.firstDispatch (s : State) (l : List Nat) : Option (Nat × Nat) :=
  l.findSome? (fun t => (s.coreFor t).map (fun c => (t, c)))

/-- The threads of `l` that further slots would dispatch, as things stand. -/
def State.moreDispatches (fuel : Nat) (s : State) (l : List Nat) : List Nat :=
  match fuel with
  | 0 => []
  | n + 1 =>
    match s.firstDispatch l with
    | none => []
    | some (t, c) => t :: State.moreDispatches n (s.dispatchTo t c) (l.filter (fun x => x != t))

/-- Threads that this slot defers, each counted once; those deferred before keep their places, and a thread that no core
would take any more is no request (R37, R432). -/
def State.deferThreads (s : State) (l : List Nat) : State :=
  let old := s.sch.counted.filter (fun t => l.contains t)
  let new := l.filter (fun t => !s.sch.counted.contains t)
  ({ s with sch := { s.sch with counted := old ++ new } }).defer 10 new.length

/-- A dispatch slot. -/
def dispatch (t : Time) (s : State) : State :=
  let s := s.advance t
  let s := match s.sch.released with
    | [] => s
    | u :: r => ({ s with sch := { s.sch with released := r } }).makeReady u
  let wait := s.sch.released
  let l := s.readyThreads
  match s.firstDispatch l with
  | none => s.deferThreads wait
  | some (u, c) =>
    let s := s.dispatchTo u c
    s.deferThreads (wait ++ s.moreDispatches 8 (l.filter (fun x => x != u)))

/-- A write of `SCH_SWITCH` (R433). -/
def schSwitch (c t : Nat) (idle : Bool) (s : State) : State :=
  let want : Option Nat := if idle then none else some t
  if s.coreNext c == want then
    let s := (s.setRun c want).setIrq c false
    match want with
    | none => s.putRes (some c) false false false false false 0
    | some u =>
      s.putRes (some c) false false (s.thr u).tout (s.thr u).late (s.thr u).susp (s.thr u).tick
  else s.wrB (F.SCH_RES_REFUSED c) true

/-- `SCH_STAT`, `SCH_NEXT` and `SCH_SELF` as they read. -/
def State.schStat (s : State) : Nat :=
  ((List.range 256).filter (fun t => s.thrState t == 1)).length
    + ofBits ((List.range 4).filter (fun c => (s.coreRun c).isSome)) * 2 ^ 16
def State.schNext (s : State) (c : Nat) : Nat :=
  s.rd (F.SCH_CORE_STAT_NEXT_THR c) + 256 * s.rd (F.SCH_CORE_STAT_NEXT_V c)
def State.schSelf (s : State) (c : Nat) : Nat :=
  s.rd (F.SCH_CORE_STAT_RUN_THR c) + 256 * s.rd (F.SCH_CORE_STAT_RUN_V c) + 512 * c

/-! Starting and stopping a core (R426, R441). -/

/-- A core starts with no thread running. -/
def State.startCore (s : State) (c : Nat) : State :=
  let s := (s.wrB (F.SCH_CORE_STAT_HALT c) false).wrB (F.SCH_CORE_STAT_LSF c) false
  ((s.setRun c none).setNext c none).setIrq c false

/-- A write of `SCH_COREc_CTRL`: RUN from 0 to 1 starts the core while the latch of 0x0B8 + c is clear. -/
def coreRun (c : Nat) (v : Bool) (s : State) : State :=
  if v && !s.rdB (F.SCH_CORE_CTRL_RUN c) && !s.rdB ⟨R.FLT_LATCH 5, 0x18 + c, 1⟩ then
    (s.wrB (F.SCH_CORE_CTRL_RUN c) true).startCore c
  else s

/-- The halves of core `c` disagree (R426): the core stops, its thread is FAULTED, a thread offered to it is ready
again. RUN reads 0, so that a write of 1 can start the core again (DEDUCED, log entry 61). -/
def lockstepMismatch (c : Nat) (t : Time) (s : State) : State :=
  let s := (s.advance t).raise (0x0B8 + c)
  let s := ((s.wrB (F.SCH_CORE_STAT_LSF c) true).wrB (F.SCH_CORE_STAT_HALT c) true).wrB (F.SCH_CORE_CTRL_RUN c) false
  let next := s.coreNext c
  let s := match s.coreRun c with
    | some u => s.leave u 9
    | none => s
  let s := match next with
    | some u => if s.coreRun c == some u then s else s.setThrState u 1
    | none => s
  ((s.setRun c none).setNext c none).setIrq c false

/-- An uncorrectable error of core memory (R428): the access fault exception is the core's own (log entry 61). -/
def uncorrectableEcc (src : Nat) (t : Time) (s : State) : State := (s.advance t).raise src

end Sys2Proof.Machine
end

