-- ==== Sys2Proof/Machine/Can.lean ====
section
/-!
DEFINITION. Machine/Can.lean: the two CAN FD controllers (spec/16, R456 to R472). What ISO 11898-1 makes of the bits on
the bus comes as operands: frames, ends of attempts, error counters.
-/

namespace Sys2Proof.Machine

def State.canSt (s : State) (n : Nat) : CanSt := Store.get s.can {} n
def State.setCan (s : State) (n : Nat) (c : CanSt) : State := { s with can := Store.put s.can {} n c }

/-- `CAN_STAT` levels follow the queue and the urgent buffer. -/
def State.showCan (s : State) (n : Nat) : State :=
  let c := s.canSt n
  let s := (s.wr (F.CAN_STAT_TXQ_LEVEL n) c.txq.length).wrB (F.CAN_STAT_URG_FULL n) c.urg.isSome
  (s.wr (F.CAN_RXQ_STAT_LEVEL n 0) c.rx0.length).wr (F.CAN_RXQ_STAT_LEVEL n 1) c.rx1.length
def State.putCan (s : State) (n : Nat) (c : CanSt) : State := (s.setCan n c).showCan n

/-- The transmit and receive rings of controller `n` (Table 4 of spec/13). -/
def canTxRing (n : Nat) : Nat := 60 + 2 * n
def canRxRing (n : Nat) : Nat := 61 + 2 * n

/-- TAG of a frame entry. -/
def entryTag (ws : List Word) : Nat := (nth ws 17 0).toNat / 65536

/-- A frame leaves with an outcome of Table 2 (R464). -/
def State.canOutcome (s : State) (n : Nat) (f : CanTx) (o : Nat) : State :=
  if f.ring then s.putCompl (canTxRing n) (entryTag f.words) (if o < 2 then 0 else 3) o s.cyc
  else (s.wr (F.CAN_TXRES_OUTCOME n) o).wr (F.CAN_TXRES_TAG n) (entryTag f.words)

/-- Error counters and the state that follows from them (ISO 11898-1; PRESUMED, log entry 62). -/
def State.canErrs (s : State) (n tec rec : Nat) : State :=
  if (s.canSt n).restr then s
  else
    let s := (s.wr (F.CAN_STAT_TEC n) (min 255 tec)).wr (F.CAN_STAT_REC n) (min 255 rec)
    let st := s.rd (F.CAN_STAT_STATE n)
    if st = 2 ∨ st = 3 then s.wr (F.CAN_STAT_STATE n) (if 127 < tec ∨ 127 < rec then 3 else 2) else s

/-! Bit timing (R457): one time quantum is BRP × 4 ns, a nominal bit 1 + TSEG1 + TSEG2 quanta. -/

/-- TSEG1 and TSEG2 of the nominal phase in quanta (Table 5). -/
def canTseg1 (w : Nat) : Nat := max 2 (bits w 8 8 + 1)
def canTseg2 (w : Nat) : Nat := max 2 (bits w 16 7 + 1)
/-- A nominal bit of the timing word `w`, in ns. -/
def canBitNs (w : Nat) : Nat := (1 + canTseg1 w + canTseg2 w) * (bits w 0 6 + 1) * 4
/-- `k` nominal bits have passed since bus integration or recovery began. -/
def State.canBits (s : State) (n k : Nat) : Bool :=
  decide ((s.canSt n).since + ns (k * canBitNs (s.reg (R.CAN_NBT n)).toNat) ≤ s.clk.now)
/-- STATE 1 or 5 begins (Table 5). -/
def State.canBegin (s : State) (n st : Nat) : State :=
  let now := s.clk.now
  (s.setCan n { s.canSt n with since := now }).wr (F.CAN_STAT_STATE n) st
/-- Error active, or error passive by the counters. -/
def State.canErrState (s : State) (n : Nat) : Nat :=
  if 127 < s.rd (F.CAN_STAT_TEC n) ∨ 127 < s.rd (F.CAN_STAT_REC n) then 3 else 2

/-! INIT (R459). -/

/-- Every frame that waits leaves with outcome 5. -/
def State.canDiscard (s : State) (n : Nat) (silent : Bool) : State :=
  let c := s.canSt n
  let l := (match c.urg with | some f => [f] | none => []) ++ c.txq
  let s := s.putCan n { c with urg := none, txq := [], bus := none }
  if silent then s else l.foldl (fun s f => s.canOutcome n f 5) s

/-- Mailbox `m` is empty. -/
def State.smbClear (s : State) (n m : Nat) : State :=
  let s := (List.range 24).foldl (fun s w => s.setReg (R.CAN_SMB n m w) 0) s
  let s := ((s.wrB (F.CAN_SMB_STAT_NEW n m) false).wrB (F.CAN_SMB_STAT_LOCKED n m) false).wrB (F.CAN_SMB_STAT_PEND n m) false
  let c := s.canSt n
  s.setCan n { c with pend := Store.put c.pend none m none }

def State.canEmpty (s : State) (n : Nat) : State :=
  let c := s.canSt n
  let s := s.putCan n { c with rx0 := [], rx1 := [] }
  (List.range 4).foldl (fun s m => s.smbClear n m) s

/-- A write of INIT. -/
def canInitWrite (n : Nat) (v : Bool) (s : State) : State :=
  let was := s.rdB (F.CAN_CTRL_INIT n)
  let s := s.wrB (F.CAN_CTRL_INIT n) v
  if v then
    let s := ((s.canDiscard n false).canEmpty n).wr (F.CAN_STAT_STATE n) 0
    s.live (0x0E2 + n) false
  else if was then ((s.wr (F.CAN_STAT_TEC n) 0).wr (F.CAN_STAT_REC n) 0).canBegin n 1 else s

/-- 11 consecutive recessive bits end bus integration. After INIT the controller is error active: its counters are 0
(DEDUCED, log entry 62); after a protocol exception they stand. -/
def canIntegrationDone (n : Nat) (s : State) : State :=
  if s.rd (F.CAN_STAT_STATE n) = 1 && s.canBits n 11 then s.wr (F.CAN_STAT_STATE n) (s.canErrState n) else s

/-- A recessive res bit in an FD frame starts bus integration (R456). -/
def canProtocolException (n : Nat) (s : State) : State :=
  if s.rd (F.CAN_STAT_STATE n) = 2 ∨ s.rd (F.CAN_STAT_STATE n) = 3 then (s.incSat (F.CAN_CNT_PEXC n)).canBegin n 1 else s

/-! Transmission (R460 to R466). -/

/-- The staging area of a requester; JTAG uses the host's (R497). -/
def stagingOf (who : Requester) : Nat :=
  match who with
  | .core c => c.val
  | _ => 4

/-- The frame that the requester has staged. -/
def State.staged (s : State) (n : Nat) (who : Requester) : List Word :=
  (List.range 24).map (fun w => Store.get (s.canSt n).txs 0 (32 * stagingOf who + w))

def canPush (n : Nat) (who : Requester) (s : State) : State :=
  let c := s.canSt n
  if 32 ≤ c.txq.length then s.wrB (F.CAN_ERR_TXQ_FULL n) true
  else s.putCan n { c with txq := c.txq ++ [{ words := s.staged n who }] }

def canUrgent (n : Nat) (who : Requester) (s : State) : State :=
  let c := s.canSt n
  if c.urg.isSome then s.wrB (F.CAN_ERR_URG_BUSY n) true
  else s.putCan n { c with urg := some { words := s.staged n who } }

/-- CANCEL of the urgent buffer or of the first queued frame with the TAG (R463). -/
def canCancel (n : Nat) (urg : Bool) (tag : Nat) (s : State) : State :=
  let c := s.canSt n
  if urg then
    match c.urg with
    | none => s
    | some f =>
      if c.bus = some true then s.setCan n { c with urg := some { f with cancel := true } }
      else (s.putCan n { c with urg := none }).canOutcome n f 2
  else
    match c.txq.findIdx? (fun f => entryTag f.words == tag % 65536) with
    | none => s
    | some i =>
      let f : CanTx := nth c.txq i { words := [] }
      if i = 0 ∧ c.bus = some false then s.setCan n { c with txq := { f with cancel := true } :: c.txq.drop 1 }
      else (s.putCan n { c with txq := c.txq.take i ++ c.txq.drop (i + 1) }).canOutcome n f 2

/-- The hub may read entries of host-written ring `n`: enabled and not closing, not stopped, Bus Master Enable set, an
entry present, completion space (R408, R410, R411, R424). -/
def State.canFetch (s : State) (n : Nat) : Bool :=
  s.ringOn n && !(s.hring n).closing && !s.rdB (F.HQ_RING_STAT_ERR n) && s.rdB F.HQ_STAT_BME &&
    s.rd (F.HQ_RING_STAT_HUB_IDX n) != (s.hring n).hostIdx && s.cqRoom n

/-- The controller fetches an entry of its transmit ring; it waits until an entry of the queue is free. -/
def canRingFetch (n : Nat) (words : List Word) (s : State) : State :=
  let c := s.canSt n
  if s.rdB (F.CAN_CTRL_TXRING n) && s.canFetch (canTxRing n) && decide (c.txq.length < 32) then
    (s.consume (canTxRing n)).putCan n { c with txq := c.txq ++ [{ words := words.take 24, ring := true }] }
  else s

/-- The controller takes part in the bus: error active or error passive. -/
def State.canActive (s : State) (n : Nat) : Bool := s.rd (F.CAN_STAT_STATE n) == 2 || s.rd (F.CAN_STAT_STATE n) == 3

/-- A start of frame after bus idle (R461): a change of RESTR takes effect, and the urgent frame or the head is offered. -/
def canStartOfFrame (n : Nat) (s : State) : State :=
  let c := { s.canSt n with restr := s.rdB (F.CAN_CTRL_RESTR n) }
  let s := s.setCan n c
  if !s.canActive n || c.restr || c.bus.isSome then s
  else
    match c.urg, c.txq with
    | some _, h :: r =>
      let s := if h.counted then s else s.defer (8 + n) 1
      s.setCan n { c with bus := some true, txq := { h with counted := true } :: r }
    | some _, [] => s.setCan n { c with bus := some true }
    | none, _ :: _ => s.setCan n { c with bus := some false }
    | none, [] => s

/-- The offered frame is replaced by `f`, or leaves with an outcome. -/
def State.canKeep (s : State) (n : Nat) (u : Bool) (f : CanTx) : State :=
  let c := { s.canSt n with bus := none }
  if u then s.putCan n { c with urg := some f } else s.putCan n { c with txq := f :: c.txq.drop 1 }
def State.canLeave (s : State) (n : Nat) (u : Bool) (f : CanTx) (o : Nat) : State :=
  let c := { s.canSt n with bus := none }
  (if u then s.putCan n { c with urg := none } else s.putCan n { c with txq := c.txq.drop 1 }).canOutcome n f o

/-- The transmit error counter passes 255 (R465). -/
def canBusOff (n : Nat) (s : State) : State :=
  let c := s.canSt n
  if !s.canActive n || c.restr then s
  else
    let s := if c.bus.isSome then s.incSat (F.CAN_CNT_ERRFR n) else s
    let fresh (f : CanTx) : CanTx := { f with tries := 0 }
    let s := s.putCan n { c with bus := none, urg := c.urg.map fresh, txq := c.txq.map fresh }
    let s := (s.wr (F.CAN_STAT_TEC n) 255).wrB (F.CAN_ERR_BUSOFF n) true
    (if s.rdB (F.CAN_CTRL_AUTO_REC n) then s.canBegin n 5 else s.wr (F.CAN_STAT_STATE n) 4).live (0x0E2 + n) true

/-- A CAN FD frame with bit-rate switching shows the transmitter delay that the controller measured (R457, TDCV). -/
def State.canDelay (s : State) (n : Nat) (f : CanTx) (delay : Nat) : State :=
  if s.rdB (F.CAN_DBT_TDC_EN n) && bitOf (nth f.words 16 0).toNat 31 && bitOf (nth f.words 17 0).toNat 4 then
    s.wr (F.CAN_TDC_TDCV n) (min 255 delay)
  else s

/-- The attempt on the bus ends (R462, R463); `delay`: the measured transmitter delay in clocks. An error that takes the
transmit error counter past 255 is bus-off, and the frame stays where it was (R465). -/
def canTxDone (n : Nat) (e : CanEnd) (delay tec rec : Nat) (s : State) : State :=
  let c := s.canSt n
  if c.bus.isSome && !c.restr && 255 < tec && (match e with | .error => true | _ => false) then canBusOff n s
  else
  match c.bus with
  | none => s
  | some u =>
    match (if u then c.urg else c.txq.head?) with
    | none => s.setCan n { c with bus := none }
    | some f =>
      let s := s.canErrs n tec rec
      let s := match e with | .lost => s | _ => s.canDelay n f delay
      match e with
      | .lost =>
        let s := s.incSat (F.CAN_CNT_ARBLOST n)
        if f.cancel then s.canLeave n u f 2 else s.canKeep n u f
      | .sent => s.canLeave n u f (b2n f.cancel)
      | .error =>
        let s := s.incSat (F.CAN_CNT_ERRFR n)
        let retry := min 16 (s.rd (F.CAN_CTRL_RETRY n))
        if f.cancel then s.canLeave n u f 4
        else if retry < 16 ∧ retry < f.tries + 1 then s.canLeave n u f 3
        else s.canKeep n u { f with tries := f.tries + 1 }

def canRecover (n : Nat) (s : State) : State :=
  if s.rd (F.CAN_STAT_STATE n) = 4 then s.canBegin n 5 else s

/-- 128 occurrences of 11 consecutive recessive bits. -/
def canRecoveryDone (n : Nat) (s : State) : State :=
  if s.rd (F.CAN_STAT_STATE n) = 5 && s.canBits n (128 * 11) then
    (((s.wr (F.CAN_STAT_STATE n) 2).wr (F.CAN_STAT_TEC n) 0).wr (F.CAN_STAT_REC n) 0).live (0x0E2 + n) false
  else s

/-- A write of `CAN_CMD` (Table 5). -/
def canCmd (n : Nat) (who : Requester) (w : Word) (s : State) : State :=
  let b (i : Nat) : Bool := bitOf w.toNat i
  let s := if b 0 then canPush n who s else s
  let s := if b 1 then canUrgent n who s else s
  let s := if b 2 then canCancel n (b 3) (bits w.toNat 16 16) s else s
  if b 4 then canRecover n s else s

/-! Reception (R467 to R470). -/

/-- Data bytes by DLC. -/
def canLen (f : CanFrame) : Nat :=
  if f.rtr then 0
  else if f.fdf then nth [0, 1, 2, 3, 4, 5, 6, 7, 8, 12, 16, 20, 24, 32, 48, 64] (f.dlc % 16) 0
  else min 8 (f.dlc % 16)

/-- The 24 words of a received frame (Table 3). -/
def canWords (f : CanFrame) (filt tag : Nat) (h : Time) : List Word :=
  let d := f.data % 2 ^ (8 * canLen f)
  (List.range 16).map (fun i => BitVec.ofNat 32 (d / 2 ^ (32 * i))) ++
    [BitVec.ofNat 32 (f.id % 2 ^ 29 + b2n f.ide * 2 ^ 29 + b2n f.rtr * 2 ^ 30 + b2n f.fdf * 2 ^ 31),
     BitVec.ofNat 32 (f.dlc % 16 + b2n f.brs * 16 + b2n f.esi * 32 + filt * 64 + tag % 65536 * 65536),
     BitVec.ofNat 32 (hallNs h), BitVec.ofNat 32 (hallS h), BitVec.ofNat 32 (hallS h / 2 ^ 32 % 65536), 0, 0, 0]

/-- First enabled filter that matches, with its target. -/
def State.canMatch (s : State) (n : Nat) (f : CanFrame) : Option (Nat × Nat) :=
  ((List.range 32).find? (fun k =>
    s.rdB (F.CAN_FLT_EN n k) && s.rdB (F.CAN_FLT_IDE n k) == f.ide &&
      (f.id % 2 ^ 29) &&& s.rd (F.CAN_FLTM_MASK n k) == s.rd (F.CAN_FLT_ID n k) &&& s.rd (F.CAN_FLTM_MASK n k))).map
    (fun k => (k, s.rd (F.CAN_FLTM_TARGET n k)))

/-- A frame into receive queue `q`: discarded when it is full (R468). -/
def State.rxPut (s : State) (n q : Nat) (f : CanFrame) (filt : Nat) (h : Time) : State :=
  let c := s.canSt n
  let l := if q = 0 then c.rx0 else c.rx1
  if 64 ≤ l.length then s.incSat (F.CAN_RXQ_STAT_LOST n q)
  else
    let seq := if q = 0 then c.seq0 else c.seq1
    let e : CanRx := ⟨canWords f filt seq h, c.num⟩
    let c := { c with num := c.num + 1 }
    let nx := (seq + 1) % 65536
    s.putCan n (if q = 0 then { c with rx0 := c.rx0 ++ [e], seq0 := nx } else { c with rx1 := c.rx1 ++ [e], seq1 := nx })

/-- A frame becomes the content of mailbox `m`. -/
def State.smbFill (s : State) (n m : Nat) (ws : List Word) : State :=
  let s := (List.range 24).foldl (fun s w => s.setReg (R.CAN_SMB n m w) (nth ws w 0)) s
  s.wrB (F.CAN_SMB_STAT_NEW n m) true

/-- A frame is routed to mailbox `m` (R470). -/
def State.smbPut (s : State) (n m : Nat) (ws : List Word) : State :=
  if s.rdB (F.CAN_SMB_STAT_LOCKED n m) then
    let c := s.canSt n
    let s := if s.rdB (F.CAN_SMB_STAT_PEND n m) then s.incSat (F.CAN_SMB_STAT_OVR n m) else s
    (s.setCan n { c with pend := Store.put c.pend none m (some ws) }).wrB (F.CAN_SMB_STAT_PEND n m) true
  else s.smbFill n m ws

/-- A read of word 0 locks the mailbox. -/
def smbLock (n m : Nat) (s : State) : State :=
  (s.wrB (F.CAN_SMB_STAT_LOCKED n m) true).wrB (F.CAN_SMB_STAT_NEW n m) false

/-- A read of word 23, or a write of UNLOCK, unlocks it. -/
def smbUnlock (n m : Nat) (s : State) : State :=
  let s := s.wrB (F.CAN_SMB_STAT_LOCKED n m) false
  let c := s.canSt n
  match Store.get c.pend none m with
  | none => s
  | some ws =>
    ((s.setCan n { c with pend := Store.put c.pend none m none }).wrB (F.CAN_SMB_STAT_PEND n m) false).smbFill n m ws

/-- The words of an entry as one number. -/
def wordsNat (ws : List Word) : Nat := ws.foldr (fun w a => w.toNat + 2 ^ 32 * a) 0

/-- Queues that deliver to the receive ring do so in arrival order while it has room (R469). -/
def State.canDeliver (fuel : Nat) (s : State) (n : Nat) : State :=
  match fuel with
  | 0 => s
  | k + 1 =>
    let c := s.canSt n
    let r := canRxRing n
    if !s.ringOn r || s.ringFull r then s
    else
      let h0 := if s.rdB (F.CAN_RXQ_CFG_RING n 0) then c.rx0.head? else none
      let h1 := if s.rdB (F.CAN_RXQ_CFG_RING n 1) then c.rx1.head? else none
      let take0 (e : CanRx) : State := (s.putCan n { c with rx0 := c.rx0.drop 1 }).ringWrite r (wordsNat e.words)
      let take1 (e : CanRx) : State := (s.putCan n { c with rx1 := c.rx1.drop 1 }).ringWrite r (wordsNat e.words)
      match h0, h1 with
      | some a, some b => State.canDeliver k (if a.num < b.num then take0 a else take1 b) n
      | some a, none => State.canDeliver k (take0 a) n
      | none, some b => State.canDeliver k (take1 b) n
      | none, none => s

/-- A frame on the bus ends: correct, or with an error that the controller detects; `age`: ns since its start (R467). -/
def canReceive (n : Nat) (f : CanFrame) (ok : Bool) (age tec rec : Nat) (t : Time) (s : State) : State :=
  let s := s.advance t
  if !s.canActive n then s
  else
    let s := s.canErrs n tec rec
    if !ok then s.incSat (F.CAN_CNT_ERRFR n)
    else
      let h := s.clk.hall - ns age
      let s := match s.canMatch n f with
        | some (k, tg) =>
          if tg < 2 then s.rxPut n tg f k h
          else if tg < 6 then s.smbPut n (tg - 2) (canWords f k 0 h)
          else s
        | none => if s.rdB (F.CAN_CTRL_ACC_ALL n) then s.rxPut n 0 f 31 h else s
      s.canDeliver 128 n

/-- A write of `CAN_RXQq_ACK` removes the head entry. -/
def rxqAck (n q : Nat) (s : State) : State :=
  let c := s.canSt n
  s.putCan n (if q = 0 then { c with rx0 := c.rx0.drop 1 } else { c with rx1 := c.rx1.drop 1 })

/-- Word `w` of the queue window: of the head entry, 0 when the queue is empty. -/
def State.rxWindow (s : State) (n q w : Nat) : Word :=
  match (if q = 0 then (s.canSt n).rx0 else (s.canSt n).rx1) with
  | [] => 0
  | e :: _ => nth e.words w 0

/-- A configuration write outside INIT is refused (R459). -/
def State.canCfgWr (s : State) (n : Nat) : State := s.wrB (F.CAN_ERR_CFG_WR n) true

/-- A write of `CAN_CTRL` by a requester: TXRING and ACC_ALL only in INIT (R459). -/
def canCtrl (n : Nat) (v : Word) (s : State) : State :=
  let init := s.rdB (F.CAN_CTRL_INIT n)
  let w := v.toNat
  let s := ((s.wr (F.CAN_CTRL_RESTR n) (bits w 1 1)).wr (F.CAN_CTRL_AUTO_REC n) (bits w 3 1)).wr (F.CAN_CTRL_RETRY n) (bits w 4 5)
  let moved := bits w 2 1 != s.rd (F.CAN_CTRL_TXRING n) || bits w 9 1 != s.rd (F.CAN_CTRL_ACC_ALL n)
  let s :=
    if init then (s.wr (F.CAN_CTRL_TXRING n) (bits w 2 1)).wr (F.CAN_CTRL_ACC_ALL n) (bits w 9 1)
    else if moved then s.canCfgWr n else s
  if bitOf w 0 then canInitWrite n true s else if init then canInitWrite n false s else s

/-- A write of `CAN_NBT` in INIT: TRIPLE = 1 is refused above 125 kbit/s (R458). -/
def canNbt (n : Nat) (v : Word) (s : State) : State :=
  let w := v.toNat
  if bitOf w 31 && canBitNs w < 8000 then s.canCfgWr n
  else s.setReg (R.CAN_NBT n) (v &&& BitVec.ofNat 32 0xFF7FFF3F)

/-- A reset of the host island (R471). -/
def State.canHostReset (s : State) (n : Nat) : State := (s.canDiscard n true).canEmpty n

end Sys2Proof.Machine
end

