-- ==== Sys2Proof/Machine/Power.lean ====
section
/-!
DEFINITION. Machine/Power.lean: power, reset, start-up, boot and debug access (spec/17, R473 to R504), and the island
clocks (R29).
-/

namespace Sys2Proof.Machine

/-! Chip reset (R474, R480 to R487). -/

/-- The bits of a register that a chip reset leaves (R28, R480): those of the safety island and of the conditions that it
reports, PW fields, and the fields that the hub itself writes into the PRB (R539). -/
def keepMask (off : Nat) : Word :=
  if (0x380000 ≤ off ∧ off < 0x3C0000) ∨ off = R.STK_EPOCH ∨ off = R.CLK_RST_CAUSE ∨ off = R.GEN_UIDL ∨ off = R.GEN_UIDH then 0xFFFFFFFF
  else if off = R.FLT_LIVE 3 then 0xFFFF0000
  else if off = R.FLT_LIVE 5 then 0x00000080
  else if off = R.GEN_BOOT_SVN then 0xFF
  else
    match regRow off with
    | some r => BitVec.ofNat 32 r.pw
    | none => 0

/-- The registers after a chip reset. -/
def keptRegs (l : Store Word) : Store Word :=
  l.filterMap (fun p =>
    let v := (p.2 &&& keepMask p.1) ||| (hubReset p.1 &&& ~~~(keepMask p.1))
    if v = hubReset p.1 then none else some (p.1, v))

/-- The hub after a chip reset, with its islands held: the safety island, the Treads, the persistent bank, core memory
and the pins of the power supply keep their state; the words in the queue of the bank and those of the safety island stay
(R10, R480). -/
def State.chipReset (s : State) (cause : Nat) : State :=
  let saf (w : PwWord) : Bool := w.who == .safety
  let free (w : PwWord) : PwWord := { w with tag := 0 }
  let prb := { s.prb with reads := [], backlog := s.prb.backlog.filter saf, queue := s.prb.queue.map free, busy := s.prb.busy.map free }
  let port := (s.waiting 0).filter WaitReq.isSafety
  let x : State := { regs := keptRegs s.regs, prb := prb, arb := Store.put [] [] 0 port, hostMem := s.hostMem, coreMem := s.coreMem,
                     treads := s.treads, saf := s.saf, freeCtr := s.freeCtr, rdata := s.rdata, pending := s.pending }
  let x := { x with clk := { now := s.clk.now, refOk := s.clk.refOk } }
  let c := s.pwr.causes ||| cause ||| (if s.pwr.pfailed then 32 else 0)
  { x with pwr := { held := true, causes := c, pfailLow := s.pwr.pfailLow, railBad := s.pwr.railBad,
                    railLow := s.pwr.railLow, porHold := s.pwr.porHold, pinHold := s.pwr.pinHold,
                    hotHold := s.pwr.hotHold, fuseKey := s.pwr.fuseKey, fuseDbg := s.pwr.fuseDbg, raised := s.pwr.raised, goodAt := s.pwr.goodAt, noClock := s.pwr.noClock, coreBad := s.pwr.coreBad } }

/-- The load of one word of the PRB: the copy that passes its check, of two the second; when neither passes, the bits
that the word backs take their factory values (R501). -/
def State.loadWord (s : State) (c : PrbCopies) : State :=
  let mask : Word := match regRow c.off with
    | some r => BitVec.ofNat 32 r.pw
    | none => 0
  let put (s : State) (v : Word) : State := s.setReg c.off ((s.reg c.off &&& ~~~mask) ||| (v &&& mask))
  match c.second.or c.first with
  | some v => put s v
  | none => ((put s (hubReset c.off)).wrB F.PRB_STAT_LOAD_ERR true).wr F.PRB_STAT_ERR_WORD (prbWordOf c.off)

/-- The straps are sampled (R525). -/
def State.sampleStraps (s : State) (x : StartIn) : State :=
  let s := (s.wr F.GEN_TOPO_HUB_ID x.hubId.val).wr F.GEN_TOPO_DUP_STRAP x.dup.val
  (s.wrB F.GEN_TOPO_NEWEL_PREF x.pref).wrB F.GEN_BOOT_STAT_SRC x.src

/-- The supply's bits of `CLK_RAIL_STAT`. -/
def State.showRails (s : State) : State :=
  (s.wr F.CLK_RAIL_STAT_GOOD (127 - s.pwr.railBad % 128)).wrB F.CLK_RAIL_STAT_PFAIL_N (!s.pwr.pfailLow)

/-- A condition that a chip reset has not ended is live; its source is raised at its next start only (R338). -/
def State.showLive (s : State) (src : Nat) (on : Bool) : State := s.wrB ⟨R.FLT_LIVE (src / 32), src % 32, 1⟩ on

/-- The islands are released (Table 4): the PRB is loaded and its words are in effect, the straps sampled, hall time starts from 0, the causes are
written into `CLK_RST_CAUSE` (R485, R539), conditions that are present are live, and the waiting raises of the safety
island arrive (R32). -/
def State.release (s : State) : State :=
  let x := s.pwr.start
  let c := s.pwr.causes
  let s := { s with pwr := { s.pwr with held := false, causes := 0, pfailed := false, t0 := s.clk.now },
                    clk := { s.clk with hall := 0, resid := 0 } }
  let s := x.loads.foldl State.loadWord s
  let s := { s with eff := s.regs }
  let s := (s.sampleStraps x).showRails.loadScales
  let s := if c = 0 then s else s.presentPw .hubHw R.CLK_RST_CAUSE (s.reg R.CLK_RST_CAUSE ||| BitVec.ofNat 32 c)
  let s := (s.showLive 0x0C5 s.wearWarn).showLive 0x0B5 (s.pwr.railBad != 0)
  let s := s.pwr.noClock.foldl (fun s n => s.showLive (0x080 + n) true) (s.showLive 0x0B4 s.pwr.coreBad)
  s.pwr.raised.foldl (fun s n => s.raise n) { s with pwr := { s.pwr with raised := [] } }

/-- The islands are released when nothing holds the chip in reset; without REF25_IN start-up waits for the lock of the
core PLL (R486). -/
def State.tryRelease (s : State) : State :=
  if !s.pwr.held || s.pwr.porHold || s.pwr.pinHold || s.pwr.hotHold || !s.clk.refOk then s else s.release

def State.startWith (s : State) (x : StartIn) : State := ({ s with pwr := { s.pwr with start := x } }).tryRelease

/-- The registers of `new` that belong to the safety island, the others of `old`. -/
def safetyRegs (old new : Store Word) : Store Word :=
  old.filter (fun p => p.1 < 0x380000) ++ new.filter (fun p => 0x380000 ≤ p.1 && p.1 < 0x3C0000) ++
    old.filter (fun p => 0x3C0000 ≤ p.1)

/-- An operation `f` of the safety island while the chip is held in reset: its own registers and state, LIVE of the sources
0x070 to 0x07F and 0x0A7, and the causes of the reset change; its raises wait for the fault collector (R28, R32). -/
def State.whileHeld (s : State) (f : State → State) : State :=
  let x := f s
  let new := safSources.filter (fun n => x.liveBit n && !s.liveBit n)
  let r : State := { s with saf := x.saf, regs := safetyRegs s.regs x.regs, clk := { s.clk with now := x.clk.now },
                            pwr := { s.pwr with causes := x.pwr.causes, raised := s.pwr.raised ++ new } }
  let r := r.setReg (R.FLT_LIVE 3) (x.reg (R.FLT_LIVE 3) &&& 0xFFFF0000)
  r.setReg (R.FLT_LIVE 5) (x.reg (R.FLT_LIVE 5) &&& 0x80)

/-- A chip reset also stops the paths into the safety island, which enters HALT (R481). -/
def State.resetChip (s : State) (cause : Nat) : State := (s.chipReset cause).whileHeld safetyInternalFault

/-- The supply is gone: the commit that has started completes from the bank's own reserve, the other words are lost (R500). -/
def State.powerLoss (s : State) : State := pwCommit s.prbPfail

/-- POWER_ON_RESET: the release 2 ms after every rail monitor has been above its reset threshold without a break (R474).
A hub that the rails do not hold has been without power before, which ended 2 ms ago. -/
def powerOnReset (t : Time) (x : StartIn) (s : State) : State :=
  let s := s.advance t
  if s.pwr.porHold && (s.pwr.railLow != 0 || decide (s.clk.now < s.pwr.goodAt + ns 2000000)) then s
  else
    let s := if s.pwr.porHold then s else s.powerLoss.resetChip 1
    ({ s with pwr := { s.pwr with porHold := false } }).startWith x

/-- RESET_PIN: RESET_N, low since instant `since`, resets the chip once it has been low for 1 us (R480). -/
def resetPin (since t : Time) (s : State) : State :=
  let s := s.advance t
  if t < since + ns 1000 then s
  else
    let s := s.resetChip 2
    { s with pwr := { s.pwr with pinHold := true } }
def resetNRelease (t : Time) (x : StartIn) (s : State) : State :=
  let s := s.advance t
  ({ s with pwr := { s.pwr with pinHold := false } }).startWith x

/-- A write of `CLK_RST_CMD` at `w`: the reset begins 1 us after it (R482); `t` is the instant at which the islands are
released again (log entry 63). -/
def chip (chip : Bool) (key : Nat) (w t : Time) (x : StartIn) (s : State) : State :=
  let s := s.advance w
  if s.pwr.held || !chip || key != 0x9D || s.anyDeblocked then s
  else (((s.advance (w + ns 1000)).resetChip 4).advance t).startWith x

/-- The die temperature, in degrees, has been above 135 since `since` for 1 ms, or falls below 110 (R483). -/
def thermalShutdown (since t : Time) (s : State) : State :=
  let s := s.advance t
  if t < since + ns 1000000 then s
  else
    let s := s.resetChip 8
    { s with pwr := { s.pwr with hotHold := true } }
def thermalShutdownEnd (c : Int) (t : Time) (x : StartIn) (s : State) : State :=
  let s := s.advance t
  if 110 ≤ c then s else ({ s with pwr := { s.pwr with hotHold := false } }).startWith x

/-- A PLL locks; the core PLL's lock ends a start-up that waited for REF25_IN (R486). -/
def startPllLock (p n : Nat) (err : Time) (t : Time) (s : State) : State :=
  let s := s.advance t
  if !(decide (s.lockCnt p ≤ n) && decide (err < s.lockWin p)) then s
  else if s.pwr.held then
    if p = 0 then ({ s with clk := { s.clk with refOk := true } }).tryRelease else s
  else
    let s := pllLock p n err s
    if p = 0 then ({ s with clk := { s.clk with refOk := true } }).live 0x0B3 false else s

/-! Supplies (R475, R500, R521). -/

/-- PFAIL_N falls, and rises again. -/
def pfail (t : Time) (s : State) : State :=
  let s := s.advance t
  let s := { s with pwr := { s.pwr with pfailLow := true, pfailed := true } }
  if s.pwr.held then s else ((s.wrB F.PRB_STAT_PFAIL true).showRails).prbPfail
def pfailNRise (t : Time) (s : State) : State :=
  let s := s.advance t
  let s := { s with pwr := { s.pwr with pfailLow := false } }
  if s.pwr.held then s else (s.showRails).prbStart 65

/-- Rail `i` of `CLK_RAIL_STAT.GOOD`, or 7 for VDD_SAF, takes a level. Below its operating range it acts as PFAIL_N low
for the PRB; below its reset threshold it holds the chip in reset, VDD_SAF the safety island (R474, R475, R480). -/
def railOutOfRange (i : Nat) (lv : RailLevel) (t : Time) (s : State) : State :=
  let s := s.advance t
  if i = 7 then
    let s := s.wrB F.CLK_RAIL_STAT_SAF (lv == RailLevel.good)
    if lv = RailLevel.reset then
      (safReset true false 0 0 s).presentPw .hubHw R.CLK_RST_CAUSE (s.reg R.CLK_RST_CAUSE ||| 16)
    else s
  else
    let was := s.pwr.railBad
    let s := { s with pwr := { s.pwr with railBad := setBits was i 1 (b2n (lv != RailLevel.good)),
                                          railLow := setBits s.pwr.railLow i 1 (b2n (lv == RailLevel.reset)) } }
    let s := if s.pwr.railLow = 0 && was != s.pwr.railBad then { s with pwr := { s.pwr with goodAt := s.clk.now } } else s
    if lv = RailLevel.reset then
      let s := if s.pwr.porHold then s else s.powerLoss.resetChip 1
      { s with pwr := { s.pwr with porHold := true } }
    else if s.pwr.held then s
    else
      let s := (s.showRails).live 0x0B5 (s.pwr.railBad != 0)
      if lv = RailLevel.low then s.prbPfail else if s.pwr.railBad = 0 then s.prbStart 65 else s

/-! Adaptive core voltage (R476 to R479). -/

/-- The set voltage moves by `d` half millivolts, clamped to 650 to 850 mV. -/
def State.setVolt (s : State) (d : Int) : State :=
  let v := (clampI 1300 1700 ((s.pwr.vset : Int) + d)).toNat
  let old := s.pwr.vset
  let s := { s with pwr := { s.pwr with vset := v } }
  let s := ((s.wr F.CLK_AVS_STAT_VSET (v / 2)).wrB F.CLK_AVS_STAT_AT_MAX (v == 1700)).wrB F.CLK_AVS_STAT_AT_MIN (v == 1300)
  if old < v then s.count 0x008 else if v < old then s.count 0x009 else s

/-- 0x0B4 (R478). -/
def State.coreVolt (s : State) : State := s.live 0x0B4 (s.pwr.coreBad || s.pwr.critLow)

/-- A reading of the 16 critical-path monitors, of which S is the smallest; the regulator's answer and the
voltage it reads back, mV. The loop acts once every PER x 100 us, and on S below CRIT at once. -/
def avsPeriod (ack : Bool) (mons : List Nat) (vmeas : Nat) (t : Time) (s : State) : State :=
  let s := s.advance t
  if !s.rdB F.CLK_AVS_CFG_EN then s
  else
    let slack := mons.foldl min 255
    let due := decide (s.pwr.avsAt + ns (100000 * clampN 1 255 (s.rd F.CLK_AVS_CFG_PER)) ≤ s.clk.now)
    let s := if due then { s with pwr := { s.pwr with avsAt := s.clk.now } } else s
    let s := s.wr F.CLK_AVS_MON_SLACK slack
    let crit := decide (slack < s.rd F.CLK_AVS_MON_CRIT)
    let s := ({ s with pwr := { s.pwr with critLow := crit } }).coreVolt
    if !due && !crit then s
    else if !ack then s.wrB F.CLK_AVS_STAT_NOREG true
    else
      let s := (s.wrB F.CLK_AVS_STAT_NOREG false).wr F.CLK_AVS_STAT_VMEAS vmeas
      let step : Int := 5 * clampN 1 15 (s.rd F.CLK_AVS_CFG_STEP)
      let tgt := s.rd F.CLK_AVS_CFG_TGT
      let hys := s.rd F.CLK_AVS_CFG_HYS
      if crit then s.setVolt (4 * step)
      else if slack + hys < tgt then s.setVolt step
      else if tgt + hys < slack then s.setVolt (-step)
      else s

/-- The on-die sensor measures VDD_CORE, mV: outside 630 to 870 mV since `since`, for 10 us, or inside. -/
def coreVoltageOutOfRange (mv : Nat) (since t : Time) (s : State) : State :=
  let s := s.advance t
  let out := decide (mv < 630) || decide (870 < mv)
  let s := { s with pwr := { s.pwr with coreBad := out && (s.pwr.coreBad || decide (since + ns 10000 ≤ t)) } }
  if s.pwr.held then s else s.coreVolt

/-- The die temperature sensor reads (Table 9). -/
def dieTemperature (c : Int) (t : Time) (s : State) : State :=
  let s := s.advance t
  let s := s.wrI F.CLK_TEMP_TEMP c
  let s := if s.rdI F.CLK_TEMP_MAX < c then s.wrI F.CLK_TEMP_MAX c else s
  s.live 0x0B6 (decide (s.rdI F.CLK_TEMP_HI < c))

/-! Island clocks (R29). The sources of the 39 islands are 0x080 + n, n below 32 or from 0x20 to 0x26. -/

def islandClockFault (n : Nat) (t : Time) (s : State) : State :=
  let s := s.advance t
  let s := { s with pwr := { s.pwr with noClock := s.pwr.noClock.filter (fun x => x != n) ++ [n] } }
  if s.pwr.held then s else s.live (0x080 + n) true
def islandClockReturn (n : Nat) (t : Time) (s : State) : State :=
  let s := s.advance t
  let s := { s with pwr := { s.pwr with noClock := s.pwr.noClock.filter (fun x => x != n) } }
  if s.pwr.held then s else s.live (0x080 + n) false

/-! Boot (R489 to R492). -/

/-- `n` bytes of an image from byte `i`, little-endian. -/
def imgNum (l : List Byte) (i n : Nat) : Nat :=
  ((l.drop i).take n).foldr (fun b a => b.toNat + 256 * a) 0

/-- `n` bytes of an image from byte `i`. -/
def imgPart (l : List Byte) (i n : Nat) : List Byte := (l.drop i).take n

/-- RESULT of the check of an image: 0 valid, 1 header, 2 key hash, 4 security version, 3 signature, in the order of
R490. -/
def imgCheck (fuse key : Nat) (l : List Byte) : Nat :=
  let len := imgNum l 4 4
  let entry := imgNum l 12 4
  if imgNum l 0 4 ≠ 0x31485841 ∨ len % 64 ≠ 0 ∨ 16776704 < len ∨ 0x1000000 ≤ entry ∨ entry % 4 ≠ 0 ∨ imgNum l 8 2 = 0 then 1
  else if sha384 (imgPart l 0x10 97) ≠ key then 2
  else if imgNum l 10 1 < fuse then 4
  else if !sec1Verify (imgPart l 0x10 97) (imgPart l 0x80 96) (sha384 (imgPart l 0 0x80 ++ imgPart l 0x200 len)) then 3
  else 0

/-- Core 0 starts at ENTRY of the image. -/
def State.bootStart (s : State) (l : List Byte) : State :=
  let s := { s with pwr := { s.pwr with entry := imgNum l 12 4 } }
  let s := ((s.wrB F.GEN_BOOT_STAT_DONE true).wr F.GEN_BOOT_STAT_VER (imgNum l 8 2)).wr F.GEN_BOOT_SVN_SVN (imgNum l 10 1)
  s.startCore 0

/-- One slot is tried: its bytes go to core memory address 0; the flag tells that it is valid. -/
def State.trySlot (s : State) (b : Bool) (x : Option (List Byte)) : State × Bool :=
  match x with
  | none => (s.wr F.GEN_BOOT_STAT_RESULT 5, false)
  | some i =>
    let s := { s with coreMem := writeBytes s.coreMem 0 i.length (imgNum i 0 i.length) }
    let r := imgCheck (s.rd F.GEN_BOOT_SVN_FUSE_SVN) s.pwr.fuseKey i
    let s := s.wr F.GEN_BOOT_STAT_RESULT r
    let s := s.wrB (if b then F.GEN_BOOT_STAT_VB else F.GEN_BOOT_STAT_VA) (r == 0)
    if r = 0 then ((s.wrB F.GEN_BOOT_STAT_SLOT_USED b).bootStart i, true) else (s, false)

/-- BOOT_VERIFY: the boot engine tries the slots of the flash, whose bytes are `a` and `b`, `none` where the flash does not
answer (R491). -/
def bootVerify (a b : Option (List Byte)) (s : State) : State :=
  if s.pwr.held || s.rdB F.GEN_BOOT_STAT_SRC || s.rdB F.GEN_BOOT_STAT_DONE then s
  else
    let first := s.rdB F.GEN_BOOT_CFG_SLOT
    let pick (x : Bool) : Option (List Byte) := if x then b else a
    let r := s.trySlot first (pick first)
    if r.2 then r.1
    else
      let q := if r.1.rdB F.GEN_BOOT_CFG_FALLBACK_EN then r.1.trySlot (!first) (pick (!first)) else r
      if q.2 then q.1 else q.1.wrB F.GEN_BOOT_STAT_FAIL true

/-- GO: the image that the host has placed in core memory is verified (R492), under the strap or once no slot has passed
(R489, R491). -/
def bootGo (go : Bool) (key : Nat) (s : State) : State :=
  if !go || key != 0x47 || s.rdB F.GEN_BOOT_STAT_DONE || !(s.rdB F.GEN_BOOT_STAT_SRC || s.rdB F.GEN_BOOT_STAT_FAIL) then s
  else
    let head := byteList s.coreMem 0 (0x200 + min 16776704 (readBytes s.coreMem 4 4))
    let r := imgCheck (s.rd F.GEN_BOOT_SVN_FUSE_SVN) s.pwr.fuseKey head
    let s := s.wr F.GEN_BOOT_STAT_RESULT r
    if r = 0 then s.bootStart head else s

/-! Debug access (R493 to R496). -/

/-- CHAL: a new random challenge, every word a free value. -/
def dbgChal (key : Nat) (s : State) : State :=
  if key != 0xD1 || 3 ≤ s.rd F.GEN_DBG_STAT_FAILS then s
  else
    let s := (List.range 8).foldl (fun (s : State) n => (s.setReg (R.GEN_DBG_CHAL n) (BitVec.ofNat 32 s.free)).tick) s
    s.wrB F.GEN_DBG_STAT_CHAL_V true

/-- The bytes of words, each word's lowest byte first (R5). -/
def wordBytes (l : List Word) : List Byte := l.flatMap (fun w => (List.range 4).map (fun i => BitVec.ofNat 8 (w.toNat >>> (8 * i))))

/-- The challenge as bytes, word 0 first (log entry 79). -/
def State.challenge (s : State) : List Byte := wordBytes ((List.range 8).map (fun n => s.reg (R.GEN_DBG_CHAL n)))

/-- SUBMIT: the check starts, and the challenge is consumed. -/
def dbgSubmit (key : Nat) (s : State) : State :=
  if key != 0xD1 || s.rdB F.GEN_DBG_STAT_BUSY then s
  else
    let c := if s.rdB F.GEN_DBG_STAT_CHAL_V then some s.challenge else none
    let s := { s with pwr := { s.pwr with chal := c } }
    (s.wrB F.GEN_DBG_STAT_CHAL_V false).wrB F.GEN_DBG_STAT_BUSY true

/-- `n` 32-bit words of `GEN_DBG_BUF` from byte offset `off`. -/
def State.dbgNum (s : State) (off n : Nat) : Nat :=
  wordsNat ((List.range n).map (fun i => s.reg (R.GEN_DBG_BUF 0 + off + 4 * i)))

/-- The bytes of `GEN_DBG_BUF`. -/
def State.dbgBytes (s : State) (off n : Nat) : List Byte :=
  ((wordBytes ((List.range 256).map (fun i => s.reg (R.GEN_DBG_BUF i)))).drop off).take n

/-- The keys and signatures of the certificate and of the response to challenge `c` are good (R494, Table 7). -/
def State.dbgSigned (s : State) (c : List Byte) : Bool :=
  let root := s.dbgBytes 0 97
  sha384 root == s.pwr.fuseDbg && sec1Verify root (s.dbgBytes 0xD8 96) (sha384 (s.dbgBytes 0x61 0x77)) &&
    sec1Verify (s.dbgBytes 0x61 97) (s.dbgBytes 0x138 96) (sha384 c)

/-- The check ends (R494). -/
def dbgCheckDone (s : State) : State :=
  if !s.rdB F.GEN_DBG_STAT_BUSY then s
  else
    let s := s.wrB F.GEN_DBG_STAT_BUSY false
    let uid := (s.reg R.GEN_UIDL).toNat + 2 ^ 32 * (s.reg R.GEN_UIDH).toNat
    let signed := match s.pwr.chal with | some c => s.dbgSigned c | none => false
    let ok := s.dbgNum 0xC8 2 == uid && decide (hallS s.clk.hall ≤ s.dbgNum 0xD0 2) && signed
    if ok then
      ((s.wrB F.GEN_DBG_STAT_OPEN true).wrB F.GEN_DBG_STAT_FAIL false).wr F.GEN_DBG_STAT_SCOPE (s.dbgNum 0xC4 1)
    else (s.wrB F.GEN_DBG_STAT_FAIL true).incSat F.GEN_DBG_STAT_FAILS

/-- CLOSE. -/
def dbgClose (key : Nat) (s : State) : State :=
  if key != 0xD1 then s else (s.wrB F.GEN_DBG_STAT_OPEN false).wr F.GEN_DBG_STAT_SCOPE 0

/-- The open lock grants bit `b` of Table 7's SCOPE. -/
def State.dbgScope (s : State) (b : Nat) : Bool := s.rdB F.GEN_DBG_STAT_OPEN && bitOf (s.rd F.GEN_DBG_STAT_SCOPE) b

/-- A JTAG instruction is loaded: leaving one that drives balls starts a chip reset (R495). -/
def jtagInstruction (op : JtagOp) (t : Time) (x : StartIn) (s : State) : State :=
  let s := s.advance t
  let was := s.pwr.jtagDrives
  if op = JtagOp.drive then
    if s.dbgScope 2 && !s.anyDeblocked then { s with pwr := { s.pwr with jtagDrives := true } } else s
  else if was then (s.resetChip 0).startWith x
  else s

/-- JTAG reaches a register: one of the `GEN_DBG` registers always, any other under scope bit 1, those of the safety
island never (R493, R495). -/
def State.jtagMay (s : State) (off : Nat) : Bool :=
  (R.GEN_DBG_STAT ≤ off && off < R.GEN_DBG_BUF 0 + 0x400) || (s.dbgScope 1 && !(0x380000 ≤ off && off < 0x3C0000))

end Sys2Proof.Machine
end

