-- ==== Sys2Proof/Machine/Arms.lean ====
section
/-!
DEFINITION. Machine/Arms.lean: blocking and deblocking of arms (R417 to R420, Table 9 of spec/13) and what the cycle
start does with the requests.
-/

namespace Sys2Proof.Machine

/-- The active bank has an ARMOUT block for arm `a` (R135). -/
def State.armoutOf (s : State) (a : Nat) : Bool :=
  (List.range 256).any (fun b => dType (s.bank true) b == 12 && dArm (s.bank true) b == a)

/-- A latch whose reaction covers arm `a` is set (R325). -/
def State.armCovered (s : State) (a : Nat) : Bool := s.flt.reactions.any (fun r => bitOf r.arms a)

/-- The causes of Table 9 that are present for arm `a`, bit by bit. -/
def State.armCauses (s : State) (a : Nat) : Nat :=
  let rings := s.ringsOf a
  ofBits ((List.range 13).filter (fun b =>
    match b with
    | 0 => !s.armOn a
    | 1 => !s.modeOk
    | 2 => s.stk.lenBad && !s.isNewel
    | 3 => !s.rdB F.GEN_CYC_STAT_FIT
    | 4 => rings.any (fun r => s.rdB (F.RP_STAT_LOWRATE r))
    | 5 => rings.any (fun r => s.pst r != 3)
    | 6 => s.rdB F.HT_STAT_ALIGNING
    | 7 => !s.divNominal
    | 8 => s.safState != 2 || s.overrideCause || s.lockOpen
    | 9 => s.armCovered a
    | 10 => s.rdB F.FLT_STAT_HALL_BLK
    | 11 => s.dupMode == 2 && !s.unitEmits
    | _ => !s.armoutOf a))

/-- `HQ_ARM_STATa.CAUSE`, from the first cycle start on (Table 12 of spec/13). -/
def State.shownCauses (s : State) (a : Nat) : Nat := if s.clk.started then s.armCauses a else 0

/-- Arm `a` is blocked: its command block is set (R417), and the maximum of R57 starts again. -/
def State.blockArm (s : State) (a : Nat) : State :=
  let was := s.deblocked a
  let s := (s.wrB (F.HQ_ARM_STAT_DEBLOCKED a) false).wrB (F.HQ_ARM_STAT_CMD_BLK a) true
  if was then (s.basePorts a).foldl State.freshDelivery s else s

def State.deblockArm (s : State) (a : Nat) : State :=
  (s.wrB (F.HQ_ARM_STAT_DEBLOCKED a) true).wrB (F.HQ_ARM_STAT_CMD_BLK a) false

/-- What blocks arm `a` at the present cycle start whatever has been requested: a reaction, a stack-wide block, the token
path of a ring, a hub without the emitting role (R325, R326, R342, R367, R398). -/
def State.armForced (s : State) (a : Nat) : Bool :=
  let t := s.clk.tk
  (s.acting t).any (fun r => bitOf r.arms a) || s.stackBlock t ||
    (s.basePorts a).any (fun q => s.tokenBlock q t) || (s.dupMode == 2 && !s.unitEmits) || !s.armOn a

/-- The arms at a cycle start: requests that were executed 100 ns before it take effect, a block over a deblock (R418,
R419). -/
def State.armsAtStart (s : State) : State :=
  let due := s.host.armReq.filter (fun r => decide (r.2.2 + margin ≤ s.clk.tk))
  let mask (d : Bool) : Nat := due.foldl (fun m r => if r.1 == d then m ||| r.2.1 else m) 0
  let s := { s with host := { s.host with armReq := s.host.armReq.filter (fun r => !decide (r.2.2 + margin ≤ s.clk.tk)) } }
  (List.range 6).foldl (fun s a =>
    if bitOf (mask false) a || s.armForced a then s.blockArm a
    else if bitOf (mask true) a then s.deblockArm a
    else s) s

/-- Number of the first cycle that starts at instant `t` or later, after the present one. -/
def State.cycFrom (s : State) (t : Time) : Nat :=
  let m := max 1 (ceilDiv (t - s.clk.tk) (max 1 s.cycT))
  (s.cyc + m - (if s.clk.started then 0 else 1)) % 2 ^ 32

/-- RESULT of a refused ARM_DEBLOCK of the arms in `mask`, 0 when no cause holds (R418). -/
def State.deblockRefusal (s : State) (mask : Nat) : Nat :=
  let bad := (List.range 6).filter (fun a => bitOf mask a && s.armCauses a != 0)
  match bad with
  | [] => 0
  | a :: _ => s.armCauses a + ofBits bad * 2 ^ 26

/-- ARM_DEBLOCK of a mask; a refusal while FIT is 0 raises 0x005 (R76). -/
def State.askDeblock (s : State) (mask : Nat) : State :=
  if s.deblockRefusal mask = 0 then
    { s with host := { s.host with armReq := s.host.armReq ++ [(true, mask % 64, s.clk.now)] } }
  else if (List.range 6).any (fun a => bitOf mask a && bitOf (s.armCauses a) 3) then (s.showLive 0x005 true).raise 0x005
  else s

def State.askBlock (s : State) (mask : Nat) : State :=
  { s with host := { s.host with armReq := s.host.armReq ++ [(false, mask % 64, s.clk.now)] } }

/-- Commit frames and carrier duties whose first cycle is the present one (R420). -/
def State.commitsAtStart (s : State) : State :=
  let us := ns 1000
  let commits := s.host.commits.map (fun (c : Nat × Option Nat × Time) =>
    if c.2.1.isNone && decide (c.2.2 + us ≤ s.clk.tk) then (c.1, some s.cyc, c.2.2) else c)
  let due := s.host.dutyReq.filter (fun d => decide (d.2.2.2 + us ≤ s.clk.tk))
  let duty := due.foldl (fun (m : Store (Nat × Nat)) d => Store.ins (Store.del m d.1) d.1 (d.2.1, d.2.2.1)) s.host.duty
  { s with host := { s.host with commits := commits, duty := duty,
                                 dutyReq := s.host.dutyReq.filter (fun d => !decide (d.2.2.2 + us ≤ s.clk.tk)) } }

/-- Commit requests of cycles that have begun are done. -/
def State.commitsDone (s : State) : State :=
  { s with host := { s.host with commits := s.host.commits.filter (fun c =>
      match c.2.1 with | some k => serialLt s.cyc k | none => true) } }

end Sys2Proof.Machine
end

