-- ==== Sys2Proof/Machine/HostCmd.lean ====
section
/-!
DEFINITION. Machine/HostCmd.lean: the host interface (spec/13): resets, doorbells and ring registers, the command engine
with the commands that reach no register, Ethernet, carts of the cart rings, MSI-X. The content of a descriptor comes as
the operands of its command.
-/

namespace Sys2Proof.Machine

/-! The command engine (R408, R410 to R413). -/

/-- The ring is a command ring, or a cart ring. -/
def isCmdRing (n : Nat) : Bool := n < 16
def isCartRing (n : Nat) : Bool := 56 ≤ n && n < 60
/-- The ring is written by the host (Table 4). -/
def hostWritten (n : Nat) : Bool := isCmdRing n || isCartRing n || n == 60 || n == 62

/-- Ring `n` has a descriptor at its head and no command in progress: it is on, neither stopped nor being disabled. -/
def State.hasEntry (s : State) (n : Nat) : Bool :=
  s.ringOn n && !(s.hring n).closing && !s.rdB (F.HQ_RING_STAT_ERR n) &&
    (match (s.hring n).wait with | .idle => true | _ => false) && s.rd (F.HQ_RING_STAT_HUB_IDX n) != (s.hring n).hostIdx

/-- The ready command ring that the engine serves next: in rotation from the ring after the one it served last (R412). -/
def State.nextRing (s : State) : Option Nat :=
  let last := match s.host.served with | some x => x.1 | none => 15
  ((List.range 16).map (fun i => (last + 1 + i) % 16)).find? (fun m => s.hasEntry m && s.cqRoom m)

/-- The engine serves command ring `n`, one command per clock of the host island, 4 ns (R412). -/
def State.serveRing (s : State) (n : Nat) : State :=
  let s := match s.host.served with
    | some x => if s.clk.now < x.2 + ns 4 then s.advance (x.2 + ns 4) else s
    | none => s
  let now := s.clk.now
  { s with host := { s.host with served := some (n, now) } }

/-- A descriptor of ring `n` is at its head and the engine takes it: `f` is run on the state in which it has been read.
A ring that is off, stopped, empty or busy has none; without Bus Master Enable, or without room in its completion ring,
it stalls; a command ring waits for its turn. -/
def State.take (s : State) (n : Nat) (f : State → State) : State :=
  if !(isCmdRing n || isCartRing n) || !s.hasEntry n then s
  else if !s.rdB F.HQ_STAT_BME then (s.wrB (F.HQ_RING_STAT_STALL n) true).hqErr F.HQ_ERR_BME_OFF
  else if !s.cqRoom n then (if s.rdB (F.HQ_RING_STAT_STALL n) then s else s.stall n)
  else if isCmdRing n && s.nextRing != some n then s
  else
    let s := if isCmdRing n then s.serveRing n else s
    f (((s.consume n).wrB (F.HQ_RING_STAT_STALL n) false).wrB (F.HQ_RING_STAT_ACTIVE n) true)

/-- A command of a command ring; on a cart ring it is a bad opcode (Table 8). -/
def State.cmd (s : State) (n cid : Nat) (f : State → State) : State :=
  s.take n (fun s => if isCmdRing n then f s else s.finish n cid 1 0 s.cyc)

/-- The command waits, and its ring stalls (R412). -/
def State.waitOn (s : State) (n : Nat) (w : RingWait) : State :=
  (s.updHring n (fun h => { h with wait := w })).wrB (F.HQ_RING_STAT_STALL n) true

/-- NOP, and every reserved opcode. -/
def hostNop (n opc cid : Nat) (t : Time) (s : State) : State :=
  let s := s.advance t
  if opc = 0 then s.cmd n cid (fun s => s.finish n cid 0 0 s.cyc)
  else s.take n (fun s => s.finish n cid 1 0 s.cyc)

/-! MBX_COMMIT (R416). -/

/-- P0 to P3 go to the host's staging area and are committed. -/
def State.mbxPresent (s : State) (n cid m : Nat) (words : List Word) : State :=
  let st := (List.range 4).foldl (fun (x : Store Word) i => Store.put x 0 (16 + i) (nth words i 0)) s.ace.staging
  let s := { s with ace := { s.ace with staging := st } }
  (s.commitMbx 4 m words).waitOn n (.mbxGrant cid m)

def hostMbxCommit (n cid m : Nat) (words : List Word) (t : Time) (s : State) : State :=
  (s.advance t).cmd n cid (fun s =>
    if bitOf (s.stgStat 4) 0 then s.waitOn n (.mbxFree cid (m % 64) words) else s.mbxPresent n cid (m % 64) words)

/-- The host's commit has been granted: its command completes, and the next one of the host is presented. -/
def State.hostGrants (s : State) : State :=
  if bitOf (s.stgStat 4) 0 then s
  else
    let s := (List.range 16).foldl (fun s n =>
      match (s.hring n).wait with
      | .mbxGrant cid _ => s.finish n cid 0 0 ((s.cyc + 1) % 2 ^ 32)
      | _ => s) s
    match (List.range 16).find? (fun n => match (s.hring n).wait with | .mbxFree _ _ _ => true | _ => false) with
    | none => s
    | some n =>
      match (s.hring n).wait with
      | .mbxFree cid m words => s.mbxPresent n cid m words
      | _ => s

/-- A mailbox grant (R131), with the completion of a host command that it ends. -/
def mailboxGrant (m : Nat) (s : State) : State := (mailboxCommitGrant m s).hostGrants

/-! Arms, commits, duties, cycles (R412, R418 to R420). -/

def hostDeblock (n cid mask : Nat) (t : Time) (s : State) : State :=
  (s.advance t).cmd n cid (fun s =>
    let r := s.deblockRefusal (mask % 64)
    let k := s.cycFrom (s.clk.now + margin)
    let s := s.askDeblock (mask % 64)
    if r = 0 then s.finish n cid 0 0 k else s.finish n cid 3 r s.cyc)

def hostBlock (n cid mask : Nat) (t : Time) (s : State) : State :=
  (s.advance t).cmd n cid (fun s => (s.askBlock (mask % 64)).finish n cid 0 0 (s.cycFrom (s.clk.now + margin)))

def hostRingCommit (n cid mask k : Nat) (next : Bool) (t : Time) (s : State) : State :=
  (s.advance t).cmd n cid (fun s =>
    let us := ns 1000
    if next then
      let s := { s with host := { s.host with commits := s.host.commits ++ [(mask, none, s.clk.now)] } }
      s.finish n cid 0 mask (s.cycFrom (s.clk.now + us))
    else
      let d := (k + 2 ^ 32 - s.cyc) % 2 ^ 32
      if !serialLt s.cyc k || s.clk.tk + d * s.cycT < s.clk.now + us then s.finish n cid 4 0 k
      else
        ({ s with host := { s.host with commits := s.host.commits ++ [(mask, some k, s.clk.now)] } }).finish n cid 0 mask k)

/-- CAR_DUTY: only for a cell of an arm in carrier mode (R175, R420). -/
def hostCarDuty (n cid i d on : Nat) (t : Time) (s : State) : State :=
  (s.advance t).cmd n cid (fun s =>
    let ok := match s.armOf (i % 1024 / 32) with | some a => s.carrierMode a | none => false
    if ok then
      let k := s.cycFrom (s.clk.now + ns 1000)
      let q := (i % 1024, d % 2 ^ 19, on % 4, s.clk.now)
      ({ s with host := { s.host with dutyReq := s.host.dutyReq ++ [q] } }).finish n cid 0 0 k
    else s.finish n cid 3 0 s.cyc)

def hostWaitCycle (n cid k : Nat) (t : Time) (s : State) : State :=
  (s.advance t).cmd n cid (fun s => if serialLt s.cyc k then s.waitOn n (.cycle cid k) else s.finish n cid 4 0 k)

/-- Commands that wait for a cycle complete at its start. -/
def State.hostCycle (s : State) : State :=
  (List.range 16).foldl (fun s n =>
    match (s.hring n).wait with
    | .cycle cid k => if serialLt s.cyc k then s else s.finish n cid 0 0 k
    | _ => s) s

/-! Ethernet (R244, R245, R421, R422). -/

/-- `n` bytes from `i`, the first byte highest (network order). -/
def netNum (l : List Byte) (i n : Nat) : Nat := ((l.drop i).take n).foldl (fun a b => 256 * a + b.toNat) 0

/-- The MAC time-stamps the frame: TS_EN, and a PTP event message over the enabled transports, with or without one VLAN tag
(R244). -/
def State.ptpEvent (s : State) (port : Nat) (l : List Byte) : Bool :=
  let o := if netNum l 12 2 = 0x8100 then 4 else 0
  let ty := netNum l (12 + o) 2
  let ev (i : Nat) : Bool := netNum l i 1 % 16 < 4
  s.rdB (F.HT_ETH_CFG_TS_EN port) &&
    (if ty = 0x88F7 then s.rdB (F.HT_ETH_CFG_L2 port) && ev (14 + o)
     else if ty = 0x0800 then
       let u := 14 + o + 4 * (netNum l (14 + o) 1 % 16)
       s.rdB (F.HT_ETH_CFG_UDP port) && netNum l (23 + o) 1 == 17 &&
         (netNum l (u + 2) 2 == 319 || netNum l (u + 2) 2 == 320) && ev (u + 8)
     else false)

/-- ETH_TX of a frame without its FCS. -/
def hostEthTx (n cid port : Nat) (ts : Bool) (tsid : Nat) (frame : List Byte) (t : Time) (s : State) : State :=
  (s.advance t).cmd n cid (fun s =>
    if frame.isEmpty || decide (1522 < frame.length) then s.finish n cid 2 0 s.cyc
    else s.waitOn n (.eth cid (port % 2) ts tsid frame))

/-- The frame of ring `n` has left; `age`: ns since its start-of-frame delimiter. The MAC stamps an event message that
asks for it (R244, R246). -/
def ethTxComplete (n age : Nat) (t : Time) (s : State) : State :=
  let s := s.advance t
  match (s.hring n).wait with
  | .eth cid port ts tsid frame =>
    let s := if ts && s.ptpEvent port frame then s.txqPush port tsid (s.clk.hall - ns age) else s
    s.finish n cid 0 (tsid % 65536) s.cyc
  | _ => s

def State.rxbufs (s : State) (port : Nat) : List RxBuf := if port = 0 then s.host.rxbuf0 else s.host.rxbuf1
def State.setRxbufs (s : State) (port : Nat) (l : List RxBuf) : State :=
  if port = 0 then { s with host := { s.host with rxbuf0 := l } } else { s with host := { s.host with rxbuf1 := l } }

def hostEthRxbuf (n cid port addr len : Nat) (t : Time) (s : State) : State :=
  (s.advance t).cmd n cid (fun s =>
    if len < 1536 then s.finish n cid 2 0 s.cyc
    else
      let l := s.rxbufs (port % 2)
      if 256 ≤ l.length then s.finish n cid 3 0 s.cyc
      else (s.setRxbufs (port % 2) (l ++ [⟨cid, addr, len⟩])).finish n cid 0 0 s.cyc)


/-- The port's filter passes the destination. -/
def State.ethAccept (s : State) (port : Nat) (l : List Byte) : Bool :=
  let dst := netNum l 0 6
  let own := s.rd (F.HQ_ETH_MACH_ADDR port) * 2 ^ 32 + s.rd (F.HQ_ETH_MACL_ADDR port)
  dst == own || dst == 0xFFFFFFFFFFFF || dst == 0x011B19000000 || dst == 0x0180C200000E ||
    (bitOf (netNum l 0 1) 0 && s.rdB (F.HQ_ETH_CFG_MCAST_ALL port)) || s.rdB (F.HQ_ETH_CFG_PROMISC port)

/-- A frame is dropped and counted. -/
def State.ethDrop (s : State) (port : Nat) : State :=
  (s.incSat (if port = 0 then F.HQ_ETH_CNT_DROP0 else F.HQ_ETH_CNT_DROP1)).hqErr F.HQ_ERR_ETH_DROP

/-- A frame arrives without its FCS; `fcsOk`: the FCS was right; `age`: ns since its start-of-frame delimiter. -/
def ethReceive (port : Nat) (bytes : List Byte) (fcsOk : Bool) (age : Nat) (t : Time) (s : State) : State :=
  let s := s.advance t
  let ring := 32 + s.rd (if port = 0 then F.HQ_EV_ROUTE_ETH0_RING else F.HQ_EV_ROUTE_ETH1_RING)
  let en := s.rdB (if port = 0 then F.HQ_EV_ROUTE_ETH0_EN else F.HQ_EV_ROUTE_ETH1_EN)
  if !s.rdB (F.HQ_ETH_CFG_EN port) || !s.ethAccept port bytes then s
  else if !en || !s.ringOn ring || s.ringFull ring then s.ethDrop port
  else if !fcsOk || 1522 < bytes.length then s.ethDrop port
  else
    match s.rxbufs port with
    | [] => s.ethDrop port
    | b :: r =>
      let s := s.setRxbufs port r
      let s := { s with hostMem := writeBytes s.hostMem b.addr bytes.length (imgNum bytes 0 bytes.length) }
      let tsv := s.ptpEvent port bytes
      let h := if tsv then s.clk.hall - ns age - s.rd (F.HT_ETH_RXLAT_LAT port) * 256 else s.clk.hall
      let body := bytes.length + port * 2 ^ 16 + b2n tsv * 2 ^ 17 + b.cid * 2 ^ 32
      let e := eventEntry 0x02 (s.hring ring).seq h body
      (s.updHring ring (fun x => { x with seq := (x.seq + 1) % 65536 })).ringWrite ring e

/-! Carts (R414). -/

/-- A cart descriptor of ring `n`; on a command ring it is a bad opcode. A LINK or RATE cart to a ring whose arm is
deblocked is refused (R208). -/
def hostCartCmd (n cid r op pos arg data raddr : Nat) (t : Time) (s : State) : State :=
  let s := s.advance t
  if isCartRing n && 64 ≤ (s.hring n).flight.length then s
  else
    s.take n (fun s =>
      if isCmdRing n then s.finish n cid 1 0 s.cyc
      else if op = 0 ∨ 8 < op ∨ raddr % 16 ≠ 0 then
        (s.putCompl n cid 2 0 s.cyc).wrB (F.HQ_RING_STAT_ACTIVE n) (!(s.hring n).flight.isEmpty)
      else
        let h := s.hring n
        let x : CartFlight := { seq := h.cartSeq, port := r, head := s.rd (F.HQ_RING_STAT_HUB_IDX n) }
        let put (res : Option (Nat × Nat × Nat × Nat × Slot × Nat)) : State :=
          s.setHring n { h with flight := h.flight ++ [{ x with res := res }], cartSeq := h.cartSeq + 1 }
        if s.cartRefused r op then ((put (some (cid, 3, 0, s.cyc, 0, 0))).raise 0x00B).drainCarts 64 n r
        else
          (put none).presentCarts r [{ who := .cartRing (Fin.ofNat 4 (n - 56)), op := op, pos := pos, arg := arg, data := data,
                                       cid := cid, raddr := raddr, seq := h.cartSeq }])

/-! Doorbells and interrupts (R408, R423). -/

/-- Rings bound to completion ring `q` that stalled for space go on (R410). -/
def State.unstall (s : State) (q : Nat) : State :=
  (List.range 64).foldl (fun s m =>
    let idle := match (s.hring m).wait with | .idle => true | _ => false
    if (isCmdRing m || isCartRing m) && s.ringOn m && s.cqOf m == q && idle && s.cqRoom m then
      s.wrB (F.HQ_RING_STAT_STALL m) false
    else s) s

/-- What the hub writes to ring `n` once it has room. -/
def State.serve (s : State) (n a b : Nat) : State :=
  if n < 16 then s
  else if n < 32 then ((s.drainCompl ((s.hring n).held.length + 1) n).unstall n)
  else if n < 48 then s.drainEvents ((s.hring n).held.length + 2) n
  else if n < 56 then s.freeAreas n a b
  else if n = 61 ∨ n = 63 then s.canDeliver 128 ((n - 61) / 2)
  else s

def doorbell (n idx : Nat) (t : Time) (s : State) : State :=
  let s := s.advance t
  if s.ringSize n ≤ idx then (s.hqErr F.HQ_ERR_DB_RANGE).raise 0x0E1
  else
    let old := (s.hring n).hostIdx
    let s := s.updHring n (fun h => { h with hostIdx := idx })
    if hostWritten n then s
    else
      let left := s.rd (F.HQ_RING_STAT_HUB_IDX n) != idx
      let s := if left then s.updHring n (fun h => { h with timer := some s.clk.now }) else s
      s.serve n old idx

/-- MOD_TMR after the first entry, or after the doorbell that restarted it (R423). -/
def moderationTimer (n : Nat) (t : Time) (s : State) : State :=
  let s := s.advance t
  let tmr := s.rd (F.HQ_RING_MOD_MOD_TMR n)
  match (s.hring n).timer with
  | none => s
  | some t0 =>
    if tmr = 0 || !s.ringOn n || !s.rdB (F.HQ_RING_CFG_VEC_EN n) || s.clk.now < t0 + ns (1000 * tmr) then s
    else (s.updHring n (fun h => { h with timer := none, sinceMsg := 0 })).msix (s.rd (F.HQ_RING_CFG_VEC n))

/-- Pending messages whose vectors are unmasked leave. -/
def State.msixPending (s : State) : State :=
  if !s.rdB F.HQ_STAT_MSIX_EN || !s.rdB F.HQ_STAT_BME then s
  else
    (List.range 128).foldl (fun s v =>
      let p : Fld := ⟨0x478000 + 4 * (v / 32), v % 32, 1⟩
      if s.rdB p && !(bitOf (s.reg (0x470000 + 16 * v + 12)).toNat 0) then (s.wr p 0).msix v else s) s

/-! Ring registers (R407, R424). -/

/-- A ring is enabled: both indices 0, phase 1; without Bus Master Enable it stalls (R407, R411). -/
def State.enableRing (s : State) (n : Nat) : State :=
  ((s.setHring n {}).setReg (R.HQ_RING_STAT n) 0x00010000).wrB (F.HQ_RING_STAT_STALL n) (!s.rdB F.HQ_STAT_BME)

/-- A write of BASEL (0), BASEH (1), CFG (2) or MOD (3) of ring `n`. -/
def ringConfigWrite (n which : Nat) (v : Word) (s : State) : State :=
  let on := s.ringOn n
  let w := v.toNat
  if which = 0 then
    if on then s.wrB F.HQ_ERR_CFG_WR true |>.errVec else s.setReg (R.HQ_RING_BASEL n) (v &&& 0xFFFFF000)
  else if which = 1 then
    if on then s.hqErr F.HQ_ERR_CFG_WR else s.setReg (R.HQ_RING_BASEH n) v
  else if which = 2 then
    let same := bits w 1 5 == s.rd (F.HQ_RING_CFG_LOG2SIZE n) && bits w 8 4 == s.rd (F.HQ_RING_CFG_CQ n)
    let s :=
      if !on then (s.wr (F.HQ_RING_CFG_LOG2SIZE n) (bits w 1 5)).wr (F.HQ_RING_CFG_CQ n) (bits w 8 4)
      else if same then s else s.hqErr F.HQ_ERR_CFG_WR
    let s := ((s.wr (F.HQ_RING_CFG_VEC_EN n) (bits w 12 1)).wr (F.HQ_RING_CFG_VEC n) (bits w 13 7)).wr
      (F.HQ_RING_CFG_MOD_CNT n) (bits w 20 8)
    if bitOf w 0 then
      if on then s.updHring n (fun h => { h with closing := false })
      else (s.wrB (F.HQ_RING_CFG_EN n) true).enableRing n
    else if !on then s
    else
      let busy := match (s.hring n).wait with | .idle => !(s.hring n).flight.isEmpty | _ => true
      if busy then s.updHring n (fun h => { h with closing := true }) else s.wrB (F.HQ_RING_CFG_EN n) false
  else s.setReg (R.HQ_RING_MOD n) (v &&& 0xFFFF)

/-- A descriptor or buffer read fails (R411). -/
def readFail (n : Nat) (t : Time) (s : State) : State :=
  let s := s.advance t
  if !s.ringOn n then s
  else ((s.wrB (F.HQ_RING_STAT_ERR n) true).hqErr F.HQ_ERR_RD_FAIL).raise 0x0E1

/-- The command register's Bus Master Enable, and MSI-X Enable (R411, R423). -/
def busMasterWrite (bme msix : Bool) (s : State) : State :=
  let s := ((s.wrB F.HQ_STAT_BME bme).wrB F.HQ_STAT_MSIX_EN msix).msixPending
  if bme then
    let s := (List.range 64).foldl (fun s n =>
      let idle := match (s.hring n).wait with | .idle => true | _ => false
      if s.ringOn n && idle then s.wrB (F.HQ_RING_STAT_STALL n) false else s) s
    (List.range 64).foldl (fun s n => if s.ringOn n then s.serve n 0 0 else s) s
  else
    let s := (List.range 64).foldl (fun s n => if s.ringOn n then s.wrB (F.HQ_RING_STAT_STALL n) true else s) s
    s.hqErr F.HQ_ERR_BME_OFF

/-! Link and resets (R401, R403). -/

/-- The data link layer is active at a speed code and a width. -/
def pcieLinkUp (speed width : Nat) (t : Time) (s : State) : State :=
  let s := s.advance t
  let was := s.rdB F.HQ_STAT_LINK_UP
  let s := ((s.wr F.HQ_STAT_SPEED speed).wr F.HQ_STAT_WIDTH width).wrB F.HQ_STAT_LINK_UP true
  let s := s.live 0x0E0 false
  if was then s else s.errVec

/-- A register of the host island that a reset of it resets: the HQ_ registers but for the live fields of `HQ_STAT` and
the block state of the arms, and the CAN registers. -/
def hostIslandReg (off : Nat) : Bool :=
  (0x400000 ≤ off && off < 0x480000 && off != R.HQ_STAT && !(R.HQ_ARM_STAT 0 ≤ off && off < R.HQ_ARM_STAT 6)) ||
    (0x4C0000 ≤ off && off < 0x500000)

/-- Carts of the cart rings: those not yet placed are abandoned, the others complete without a completion. -/
def Port.hostReset (p : Port) : Port :=
  let host (c : CartReq) : Bool := match c.who with | .cartRing _ => !c.own | _ => false
  let mute (c : CartReq) : CartReq := if host c then { c with mute := true } else c
  { p with carts := (p.carts.filter (fun c => !(host c && c.tries == 0))).map mute,
           merge := p.merge.map (fun x => (mute x.1, x.2)),
           sent := p.sent.map (fun (x : SentFrame) => { x with carts := x.carts.map (fun c => c.map mute) }) }

/-- A function level reset, hot reset, D3hot to D0, or (`lost`) the loss of the data link layer. -/
def hostReset (lost : Bool) (t : Time) (s : State) : State :=
  let s := s.advance t
  let s := (s.canHostReset 0).canHostReset 1
  let pend := (List.range 16).any (fun n => match (s.hring n).wait with | .mbxGrant _ _ => true | _ => false)
  let s := if pend then
      let s := { s with ace := { s.ace with waiting := s.ace.waiting.filter (fun c => c.who != 4) } }
      s.setStgStat 4 (setBits (s.stgStat 4) 0 1 0)
    else s
  let s := { s with regs := s.regs.filter (fun p => !hostIslandReg p.1), can := [],
                    ports := s.ports.map (fun (p : Nat × Port) => (p.1, p.2.hostReset)),
                    host := { armReq := s.host.armReq, commits := s.host.commits, duty := s.host.duty,
                              dutyReq := s.host.dutyReq } }
  if lost then
    (((s.wr F.HQ_STAT_SPEED 0).wr F.HQ_STAT_WIDTH 0).wrB F.HQ_STAT_LINK_UP false).live 0x0E0 true
  else s

/-! BAR2 and unaligned accesses (R402, R404). -/

/-- A write of bytes through BAR2. -/
def bar2Write (off : Nat) (bytes : List Byte) (s : State) : State :=
  if !s.rdB F.HQ_CTRL_BAR2_WE then s
  else
    let l := bytes.take (0x1800000 - off)
    { s with coreMem := writeBytes s.coreMem off l.length (imgNum l 0 l.length) }

end Sys2Proof.Machine
end

