-- ==== Sys2Proof/Machine/Bus.lean ====
section
/-!
DEFINITION. Machine/Bus.lean: the register space as a requester reaches it (R6 to R9, R404, R540 and the write rules of
each block): what each offset reads, what a read does, what a write does; the registers and windows that are computed
when they are read; the accesses that a command ring makes (R415); the grants of register writes (R36 to R39).
-/

namespace Sys2Proof.Machine

/-- A requester reaches an offset: the host block is not there for a core (R427), the core-local page of a core for that
core alone, JTAG only where R493 and R495 say so. -/
def State.reaches (s : State) (who : Requester) (off : Nat) : Bool :=
  match who with
  | .core c => !(0x400000 ≤ off && off < 0x480000) && (off < 0x1000000 || off / 0x1000 == 0x10000 + c.val)
  | .jtag => off < 0x1000000 && s.jtagMay off
  | _ => off < 0x1000000

/-! Views. -/

/-- Reserved bits of descriptor word `w` (Table 31 of spec/04). -/
def dMask (w : Nat) : Word := if w = 0 then 0x3FF7F else if w = 1 ∨ w = 2 then 0x3FF03FF else if w = 3 then 0x3FF else 0xFFFFFFFF

/-- The key in a bank of an offset of the descriptor or the gain-set window, from the window's start (`AceSt`). -/
def winKey (gain : Bool) (o : Nat) : Nat := if gain then 4096 + o / 4 else o / 4

/-- Word `w` of the state of block `b` (Table 32 of spec/04). -/
def State.blkWord (s : State) (b w : Nat) : Nat :=
  let x := s.blk b
  let ty := dType (s.bank true) b
  if w = 0 then x.y
  else if w = 1 then (if ty = 2 ∨ ty = 3 ∨ ty = 4 ∨ ty = 7 ∨ ty = 9 then x.s1 else 0)
  else if w = 2 then (if ty = 3 then x.s2 else 0)
  else b2n x.hi + 2 * b2n x.lo + 4 * b2n x.meas + 8 * b2n x.numf + 16 * x.set

/-- The windows of the engine, from 0x9_0000 (spec/04, Table 10). -/
def State.aceWindow (s : State) (off : Nat) : Word :=
  if off < 0x94000 then Store.get (s.bank false) 0 (winKey false (off - 0x90000))
  else if 0xA0000 ≤ off ∧ off < 0xB0000 then Store.get (s.bank false) 0 (winKey true (off - 0xA0000))
  else if 0xB0000 ≤ off ∧ off < 0xB4000 then Store.get (s.bank true) 0 (winKey false (off - 0xB0000))
  else if 0xC0000 ≤ off ∧ off < 0xD0000 then Store.get (s.bank true) 0 (winKey true (off - 0xC0000))
  else if 0xD0000 ≤ off ∧ off < 0xD1000 then BitVec.ofNat 32 (s.blkWord ((off - 0xD0000) / 16) (off / 4 % 4))
  else 0

/-- The staging area of a requester (R130, R497). -/
def stgOf (who : Requester) : Option Nat :=
  match who with
  | .core c => some c.val
  | .host => some 4
  | .jtag => some 4
  | _ => none

/-- The PW bits of a severity register of R343 read the safety island's. -/
def State.sevView (s : State) (src : Nat) : Nat :=
  let v := (s.reg (R.FLT_SEV src)).toNat
  let v := if srcSafety src then setBits v 0 3 (s.sevOf src) else v
  setBits (setBits v 10 1 (b2n (s.liveBit src))) 11 1 (b2n (s.latchBit src))

/-- `FLT_IQ_STATq` with the level. -/
def State.iqStat (s : State) (q : Nat) : Nat :=
  let n := (s.iqSeen q).items.length
  setBits (setBits (s.reg (R.FLT_IQ_STAT q)).toNat 0 11 n) 11 1 (b2n (n == 0))

/-- `SAF_STAT` (R344, R345). -/
def State.safStat (s : State) : Nat :=
  if s.saf.held then 4
  else s.safState + 4 * b2n s.overrideCause + ((List.range 4).map (fun n => b2n (s.liveBit (0x70 + n)) * 2 ^ (3 + n))).sum
    + 128 * b2n s.sldActive

/-- The views by block: a register whose value is not only its storage. -/
def State.viewFlt (s : State) (off : Nat) : Option Nat :=
  if R.FLT_SEV 0 ≤ off ∧ off < R.FLT_SEV 0x220 then some (s.sevView ((off - R.FLT_SEV 0) / 4))
  else if R.FLT_IQ_RDL 0 ≤ off ∧ off < R.FLT_IQ_RDL 48 then
    let q := (off - R.FLT_IQ_RDL 0) / 16
    if off % 16 = 12 then some (s.iqStat q)
    else if off % 16 = 0 then
      match (s.iqSeen q).items with
      | x :: _ => some (x.toNat % 2 ^ 32)
      | [] => some (if s.rdB (F.FLT_IQ_CFG_FALLBACK q) then (s.iq q).last.toNat % 2 ^ 32 else 0)
    else none
  else none

def State.viewCan (s : State) (who : Requester) (off : Nat) : Option Nat :=
  let n := (off - 0x4C0000) / 0x1000
  let o := off % 0x1000
  if n ≥ 2 then none
  else if 0x40 ≤ o ∧ o < 0xA0 then
    match stgOf who with
    | some q => some (Store.get (s.canSt n).txs 0 (32 * q + (o - 0x40) / 4)).toNat
    | none => some 0
  else if 0x200 ≤ o ∧ o < 0x300 ∧ o % 128 < 0x60 then some (s.rxWindow n ((o - 0x200) / 128) (o % 128 / 4)).toNat
  else none

def State.viewSch (s : State) (off : Nat) : Option Nat :=
  if off = R.SCH_STAT then some s.schStat
  else if off = R.SCH_TICKL then some s.schTick
  else if R.SCH_NEXT 0 ≤ off ∧ off % 0x1000 = 0xC then some (s.schNext ((off - R.SCH_NEXT 0) / 0x1000))
  else if R.SCH_NEXT 0 ≤ off ∧ off % 0x1000 = 0x14 then some (s.schSelf ((off - R.SCH_NEXT 0) / 0x1000))
  else none

def State.viewEvc (s : State) (off : Nat) : Option Nat :=
  if off < R.EVC_SEL 64 then
    let c := Store.get s.evc {} ((off - R.EVC_SEL 0) / 4)
    some (c.src % 512 + b2n c.wrap * 2 ^ 31)
  else if R.EVC_CNTL 0 ≤ off ∧ off < R.EVC_CNTL 64 ∧ off % 8 = 0 then
    some (Store.get s.evc {} ((off - R.EVC_CNTL 0) / 8)).count
  else none

def State.viewPrb (s : State) (off : Nat) : Option Nat :=
  if off = R.PRB_STAT then some (setBits (setBits (s.reg off).toNat 0 1 (b2n s.prbPend)) 1 7 s.prbLevel)
  else if R.PRB_WEAR 0 ≤ off ∧ off < R.PRB_WEAR 64 then
    let n := s.wearOf ((off - R.PRB_WEAR 0) / 4)
    some (n + b2n (decide (90000000 ≤ n)) * 2 ^ 30 + b2n (decide (100000000 ≤ n)) * 2 ^ 31)
  else none

def State.viewHq (s : State) (off : Nat) : Option Nat :=
  if R.HQ_ARM_STAT 0 ≤ off ∧ off < R.HQ_ARM_STAT 6 then
    some (setBits (s.reg off).toNat 0 13 (s.shownCauses ((off - R.HQ_ARM_STAT 0) / 4)))
  else if (0x470000 ≤ off ∧ off < 0x470800) ∨ (0x478000 ≤ off ∧ off < 0x478010) then some (s.reg off).toNat
  else none

def State.viewSaf (s : State) (off : Nat) : Option Nat :=
  if off = R.SAF_STAT then some s.safStat
  else if s.lockOpen && paramRegs.contains off then some (Store.get s.saf.shadow 0 off).toNat
  else none

/-- The computed value of an offset, none where it is only storage. -/
def State.view (s : State) (who : Requester) (off : Nat) : Option Nat :=
  let b := off / 0x10000
  if b = 0x8 then
    if off = R.ACE_STG_STAT then some (match stgOf who with | some q => s.stgStat q | none => 0)
    else if R.ACE_STG_W 0 ≤ off ∧ off < R.ACE_STG_W 4 then
      some (match stgOf who with | some q => (nth (s.stgWords q) ((off - R.ACE_STG_W 0) / 4) 0).toNat | none => 0)
    else none
  else if 0x9 ≤ b ∧ b ≤ 0xD then some (s.aceWindow off).toNat
  else if b = 0x30 then (if off = R.STK_CFGDIG then some s.cfgDig else none)
  else if b = 0x38 then s.viewSaf off
  else if b = 0x3C then s.viewFlt off
  else if 0x40 ≤ b ∧ b ≤ 0x47 then s.viewHq off
  else if b = 0x48 then (if off = R.REC_SEGLEN then some s.segLen else none)
  else if 0x49 ≤ b ∧ b ≤ 0x4A then some (s.segWord ((off - 0x490000) / 32) (off / 4 % 8))
  else if b = 0x4C then s.viewCan who off
  else if b = 0x50 ∨ b = 0x1000 then s.viewSch off
  else if b = 0x54 then s.viewEvc off
  else if b = 0x58 then s.viewPrb off
  else if 0x60 ≤ b ∧ b ≤ 0x63 then
    some (if off % 256 < 64 && s.cellInfo ((off - 0x600000) / 256) != 0 then (Store.get s.cellWin 0 ((off - 0x600000) / 256 * 16 + off % 256 / 4)).toNat else 0)
  else none

/-- What a read of an aligned word returns (R8, R9); it has no side effect. -/
def State.peek (s : State) (who : Requester) (off : Nat) : Word :=
  if !s.reaches who off then 0
  else
    match s.view who off with
    | some v => BitVec.ofNat 32 v
    | none =>
      match regRow off with
      | some r => s.reg off &&& BitVec.ofNat 32 r.rd
      | none => 0

/-! Reads (R6, R9, R229, R246, R336, R337, R470). -/

/-- A read of `FLT_IQ_RDLq`: the oldest item leaves; `ecc` is what SECDED finds in it: 0 nothing, 1 corrected, 2
uncorrectable (R335 to R337). -/
def iqRead (q ecc : Nat) (s : State) : State :=
  let x := s.iqSeen q
  let s := if ecc = 1 && !x.items.isEmpty then s.incSat (F.FLT_IQ_STAT_CORR q) else s
  let bad := ecc == 2 && !x.items.isEmpty
  let s := if bad then
      (((s.setIq q { x with items := x.items.drop 1 }).incSat (F.FLT_IQ_STAT_LOST q)).count (0x110 + q)).raise 0x0C6
    else s
  let x := s.iqSeen q
  let put (s : State) (v : Nat) : State := { s.setReg (R.FLT_IQ_RDH q) (BitVec.ofNat 32 (v / 2 ^ 32)) with rdata := BitVec.ofNat 32 v }
  match x.items with
  | it :: r => put (s.setIq q { x with items := r, last := it }) it.toNat
  | [] =>
    if s.rdB (F.FLT_IQ_CFG_FALLBACK q) then put (s.wrB (F.FLT_IQ_STAT_UNDERRUN q) true) x.last.toNat
    else put s (2 ^ 63)

/-- The clear-on-read fields of a register are cleared, but for the events of the present clock (R9). -/
def State.clearRc (s : State) (off mask : Nat) : State :=
  let v := (rcSplit (s.reg off) (s.before off) (BitVec.ofNat 32 mask)).2
  let s := s.setReg off v
  { s with clk := { s.clk with before := Store.put s.clk.before (hubReset off) off v } }

/-- What a read does beside returning its value: RC fields clear (R9), a low word latches its high word (R6), a mailbox
locks and unlocks (R470). -/
def State.readEffect (s : State) (off : Nat) : State :=
  let b := off / 0x10000
  if off = R.SCH_TICKL then s.setReg R.SCH_TICKH (BitVec.ofNat 32 (s.schTick / 2 ^ 32))
  else if R.EVC_CNTL 0 ≤ off ∧ off < R.EVC_CNTL 64 ∧ off % 8 = 0 then
    let n := (off - R.EVC_CNTL 0) / 8
    s.setReg (R.EVC_CNTH n) (BitVec.ofNat 32 ((Store.get s.evc {} n).count / 2 ^ 32))
  else if b = 0x4C ∧ 0x400 ≤ off % 0x1000 ∧ off % 0x1000 < 0x600 ∧ (off - 0x4C0000) / 0x1000 < 2 then
    let n := (off - 0x4C0000) / 0x1000
    let m := (off % 0x1000 - 0x400) / 128
    if off % 128 = 0 then smbLock n m s
    else if off % 128 = 92 then smbUnlock n m s
    else if off % 128 = 0x60 then s.clearRc off 0xFFFF0000
    else s
  else
    match regRow off with
    | some r => if r.rc = 0 then s else s.clearRc off r.rc
    | none => s

/-- What a read returns: beside `peek`, a clear-on-read field as it stood before the present clock (R9). -/
def State.seen (s : State) (who : Requester) (off : Nat) : Word :=
  match s.view who off, regRow off with
  | none, some r => if r.rc = 0 then s.peek who off
      else (rcSplit (s.peek who off) (s.before off) (BitVec.ofNat 32 r.rc)).1
  | _, _ => s.peek who off

/-- A read of a register with a PW word that is not committed is held back: it returns after the commit (R91, R499). -/
def State.heldBack (s : State) (off : Nat) : Bool :=
  (s.prb.busy.any (fun w => w.off == off)) || s.prb.queue.any (fun w => w.off == off) ||
    (s.waiting 0).any (fun w => w.off == off) || s.prb.backlog.any (fun w => w.off == off)

/-- A read of an aligned word by a requester. -/
def hubRead (who : Requester) (off : Nat) (s : State) : State :=
  if !s.reaches who off then { s with rdata := 0 }
  else if R.FLT_IQ_RDL 0 ≤ off ∧ off < R.FLT_IQ_RDL 48 ∧ off % 16 = 0 then iqRead ((off - R.FLT_IQ_RDL 0) / 16) 0 s
  else if off = R.HT_TIME_FR then timeRead s.clk.now s
  else if 0x200040 ≤ off ∧ off < 0x220000 ∧ off % 0x1000 = 0x40 then
    let s := s.adaptEq ((off - 0x200000) / 0x1000)
    { s with rdata := s.seen who off }
  else if off = R.HT_ETH_TXQ_ID 0 then txqRead 0 s
  else if off = R.HT_ETH_TXQ_ID 1 then txqRead 1 s
  else if s.heldBack off then { s with prb := { s.prb with reads := s.prb.reads ++ [(who, off)] } }
  else { s.readEffect off with rdata := s.seen who off }

/-! Writes. -/

/-- A write under the access codes alone (R9, R540); a bit that the hardware has set in the same clock stays 1. -/
def State.plain (s : State) (who : Requester) (off : Nat) (v : Word) (tag : Nat := 0) : State :=
  match regRow off with
  | none => s
  | some r =>
    let m (n : Nat) : Word := BitVec.ofNat 32 n
    let s := if r.rw = 0 ∧ r.w1c = 0 then s else
        let old := s.reg off
        s.setReg off (((old &&& ~~~ (m r.rw)) ||| (v &&& m r.rw)) &&& ~~~ (v &&& m r.w1c &&& s.before off))
    let s := if r.lrw = 0 then s else s.lrwWrite off v
    if r.pw = 0 then s else s.presentPw who off (v &&& m r.pw) tag

def writeGen (who : Requester) (off : Nat) (v : Word) (tag : Nat) (s : State) : State :=
  let w := v.toNat
  let key := bits w 8 8
  if off = R.GEN_BOOT_CMD then
    bootGo (bitOf w 0) key s
  else if off = R.GEN_DBG_CMD then
    let s := if bitOf w 0 then dbgChal key s else s
    let s := if bitOf w 1 then dbgSubmit key s else s
    if bitOf w 2 then dbgClose key s else s
  else s.plain who off v tag

def writeClk (who : Requester) (off : Nat) (v : Word) (tag : Nat) (s : State) : State :=
  let w := v.toNat
  if off = R.CLK_CMD then
    let s := if bitOf w 0 then clkApply s else s
    if bitOf w 1 then syncArm s else s
  else if off = R.CLK_RST_CMD then chip (bitOf w 0) (bits w 8 8) s.clk.now s.clk.now s.pwr.start s
  else s.plain who off v tag

def writeHt (who : Requester) (off : Nat) (v : Word) (tag : Nat) (s : State) : State :=
  if off = R.HT_CMD then (if bitOf v.toNat 0 then htStep s else s)
  else if off = R.HT_OFFS_FR then s.setReg off (v &&& 0xFFFF)
  else if off = R.HT_OFFS_NS then s.setReg off (v &&& 0x3FFFFFFF)
  else if off = R.HT_OFFS_S then offsetCommit s.clk.now v s
  else s.plain who off v tag

def writeMi (who : Requester) (off : Nat) (v : Word) (tag : Nat) (s : State) : State :=
  if off = R.MI_CMD then
    let s := if bitOf v.toNat 0 then scaleApply s else s
    if bitOf v.toNat 1 then realign s else s
  else s.plain who off v tag

/-- Writes of the engine's registers. Of one write of `ACE_INJ_CMD` or `ACE_CAP_CMD` with START and STOP, START acts first and
then STOP (DESIGN CHOICE, log entry 73). -/
def writeAce (who : Requester) (off : Nat) (v : Word) (tag : Nat) (s : State) : State :=
  let w := v.toNat
  if 0x90000 ≤ off ∧ off < 0x94000 then
    let k := winKey false (off - 0x90000)
    s.editWrite k (v &&& dMask (k % 16))
  else if 0xA0000 ≤ off ∧ off < 0xB0000 then s.editWrite (winKey true (off - 0xA0000)) v
  else if off = R.ACE_LIST_CMD then s.aceListCmd w
  else if off = R.ACE_NUM_STAT then
    (if bitOf w 0 && (s.rdB F.ACE_NUM_STAT_NUMF && bitOf (s.before off).toNat 0) then s.setReg off 0 else s)
  else if R.ACE_STG_W 0 ≤ off ∧ off < R.ACE_STG_W 4 then
    match stgOf who with
    | some q => { s with ace := { s.ace with staging := Store.put s.ace.staging 0 (4 * q + (off - R.ACE_STG_W 0) / 4) v } }
    | none => s
  else if off = R.ACE_STG_COMMIT then
    match stgOf who with
    | some q => stgCommit q (w % 64) s
    | none => s
  else if off = R.ACE_INJ_CMD then
    let s := if bitOf w 0 then injectStart s else s
    if bitOf w 1 then injectStop s else s
  else if off = R.ACE_CAP_CMD then
    let s := if bitOf w 0 then captureStart s else s
    if bitOf w 1 then captureStop s else s
  else s.plain who off v tag

def writeRp (who : Requester) (off : Nat) (v : Word) (tag : Nat) (s : State) : State :=
  let q : Ring := Fin.ofNat 32 ((off - 0x200000) / 0x1000)
  let o := off % 0x1000
  let w := v.toNat
  if o = 0 then rpConfigWrite q v s
  else if o = 4 then
    let s := if bitOf w 0 then rpEnum q s else s
    let s := if bitOf w 1 then rejoin q s else s
    if bitOf w 2 then rate q s else s
  else if o = 0x20 then rpAdmit q v s
  else s.plain who off v tag

def writeStk (who : Requester) (off : Nat) (v : Word) (tag : Nat) (s : State) : State :=
  let w := v.toNat
  if off = R.STK_CMD then
    let s := if bitOf w 4 then stkAdmit (Fin.ofNat 16 (bits w 0 4)) s else s
    if bitOf w 5 then resign (bits w 8 8) s else s
  else s.plain who off v tag

/-- A write of `SAF_LOCK` with neither CLOSE nor ABANDON is a write of KEY. -/
def writeSaf (who : Requester) (off : Nat) (v : Word) (tag : Nat) (s : State) : State :=
  let w := v.toNat
  if s.saf.held then s
  else if off = R.SAF_LOCK then
    if bitOf w 9 then lockClose s
    else if bitOf w 10 then lockAbandon s
    else lockKey (bits w 0 8) s.clk.now s
  else if off = R.SAF_CMD then
    let s := if bits w 0 8 = 0 then s else dclr (bits w 0 8) s
    let s := if bitOf w 8 then sboRel (bits w 16 8) s else s
    if bitOf w 9 then safTest s else s
  else s.plain who off v tag

/-- The cell's cause of Table 6 of spec/10 for bit `b` of its `FLT_CELL`. -/
def State.cellHeld (s : State) (i b : Nat) : Bool :=
  let r := i / 32
  let p := i % 32
  let up := (Store.get s.uplinks 0 i).toNat
  let above (q : Nat) : Bool := Store.get (s.port q).terr 0 p != 0
  if b < 16 then bits up 32 12 != 0 || bitOf up 30
  else if b = 17 then above r || (s.dupMode == 1 && above (r + 1)) || above (32 + r)
  else if b = 20 then s.cellInfo i == 3
  else if b = 21 then s.rdB (F.GAL_CELL_STAT_HEALTH i)
  else false

def State.clearCells (s : State) (i : Nat) (v : Word) : State :=
  (bitList v.toNat 22).foldl (fun s b => s.clearCellBit i b (s.cellHeld i b)) s

def State.clearLatches (s : State) (j : Nat) (v : Word) : State :=
  (bitList v.toNat 32).foldl (fun s b => s.clearLatch (32 * j + b)) s

/-- A write of `FLT_SEVs` (R321, R343). -/
def State.sevWrite (s : State) (who : Requester) (src : Nat) (v : Word) (tag : Nat) : State :=
  if srcSafety src then s.raise 0x00F else s.plain who (R.FLT_SEV src) v tag

def writeFlt (who : Requester) (off : Nat) (v : Word) (tag : Nat) (s : State) : State :=
  if R.FLT_SEV 0 ≤ off ∧ off < R.FLT_SEV 0x220 then s.sevWrite who ((off - R.FLT_SEV 0) / 4) v tag
  else if R.FLT_LATCH 0 ≤ off ∧ off < R.FLT_LATCH 17 then s.clearLatches ((off - R.FLT_LATCH 0) / 4) v
  else if R.FLT_CELL 0 ≤ off ∧ off < R.FLT_CELL 1024 then s.clearCells ((off - R.FLT_CELL 0) / 4) v
  else s.plain who off v tag

/-- A word of the MSI-X table: address low without its two low bits, address high, data, the mask bit. -/
def State.msixWrite (s : State) (off : Nat) (v : Word) : State :=
  let m : Word := if off % 16 = 0 then 0xFFFFFFFC else if off % 16 = 12 then 1 else 0xFFFFFFFF
  (s.setReg off (v &&& m)).msixPending

def writeHq (who : Requester) (off : Nat) (v : Word) (tag : Nat) (s : State) : State :=
  if 0x400100 ≤ off ∧ off < 0x400900 ∧ off % 32 < 16 then ringConfigWrite ((off - 0x400100) / 32) (off % 32 / 4) v s
  else if 0x410000 ≤ off ∧ off < 0x450000 then
    if off % 0x1000 = 0 then doorbell ((off - 0x410000) / 0x1000) (v.toNat % 65536) s.clk.now s else s
  else if 0x470000 ≤ off ∧ off < 0x470800 then s.msixWrite off v
  else s.plain who off v tag

def writeRec (who : Requester) (off : Nat) (v : Word) (tag : Nat) (s : State) : State :=
  let w := v.toNat
  if off = R.REC_CTRL then recEnable v s
  else if off = R.REC_CMD then
    let s := if bitOf w 0 then recTrig s else s
    let s := if bitOf w 1 then recStop s else s
    if bitOf w 2 then recFree (bits w 16 12) s else s
  else if off = R.REC_MEM ∨ off = R.REC_SEG ∨ off = R.REC_PP then
    if s.rdB F.REC_CTRL_EN then s.wrB F.REC_ERR_CFG_WR true else (s.plain who off v tag).showSegs
  else if off = R.REC_HBASEL ∨ off = R.REC_HBASEH ∨ off = R.REC_HSIZE then
    let copy := match s.recd.full with | j :: _ => (s.seg j).st == 4 | [] => false
    let v := if off = R.REC_HBASEH then v else v &&& 0xFFFFFFC0
    if copy then { s with recd := { s.recd with hbPend := Store.ins (Store.del s.recd.hbPend off) off v } }
    else s.setReg off v
  else s.plain who off v tag

def writeCan (who : Requester) (off : Nat) (v : Word) (tag : Nat) (s : State) : State :=
  let n := (off - 0x4C0000) / 0x1000
  let o := off % 0x1000
  let cfg := o == 0x14 || o == 0x18 || (0x100 ≤ o && o < 0x200) || o == 0x260 || o == 0x2E0
  if 2 ≤ n then s
  else if o = 0 then canCtrl n v s
  else if o = 8 then canCmd n who v s
  else if (cfg || o == 0x10) && !s.rdB (F.CAN_CTRL_INIT n) then s.canCfgWr n
  else if o = 0x10 then canNbt n v s
  else if 0x40 ≤ o ∧ o < 0xA0 then
    match stgOf who with
    | some q =>
      let c := s.canSt n
      s.setCan n { c with txs := Store.put c.txs 0 (32 * q + (o - 0x40) / 4) v }
    | none => s
  else if o = 0x268 then rxqAck n 0 s
  else if o = 0x2E8 then rxqAck n 1 s
  else if 0x400 ≤ o ∧ o < 0x600 ∧ o % 128 = 0x64 then (if bitOf v.toNat 0 then smbUnlock n ((o - 0x400) / 128) s else s)
  else s.plain who off v tag

def writeSch (who : Requester) (off : Nat) (v : Word) (tag : Nat) (s : State) : State :=
  let w := v.toNat
  if R.SCH_CORE_CTRL 0 ≤ off ∧ off < R.SCH_CORE_CTRL 4 then coreRun ((off - R.SCH_CORE_CTRL 0) / 4) (bitOf w 0) s
  else if R.SCH_THR_CFG 0 ≤ off ∧ off < R.SCH_THR_CFG 256 then
    if s.thrState ((off - R.SCH_THR_CFG 0) / 4) = 0 then s.plain who off v tag else s
  else if off = R.SCH_HOP then schOp none v s
  else if R.SCH_OP 0 ≤ off then
    let c := (off - R.SCH_OP 0) / 0x1000
    if off % 0x1000 = 0 then schOp (some c) v s
    else if off % 0x1000 = 0x10 then schSwitch c (bits w 0 8) (bitOf w 8) s
    else s.plain who off v tag
  else s.plain who off v tag

/-- A write of `EVC_SELn` (R509). -/
def evcSelect (n src : Nat) (clear : Bool) (s : State) : State :=
  let c := Store.get s.evc {} n
  { s with evc := Store.put s.evc {} n { src := src % 512, count := 0, wrap := c.wrap && !clear } }

def writeEvc (who : Requester) (off : Nat) (v : Word) (tag : Nat) (s : State) : State :=
  if off < R.EVC_SEL 64 then evcSelect ((off - R.EVC_SEL 0) / 4) (bits v.toNat 0 9) (bitOf v.toNat 31) s
  else s.plain who off v tag

/-- A write of an aligned word by a requester; `tag` marks the command ring whose REG_WR it is. -/
def hubWrite (who : Requester) (off : Nat) (v : Word) (s : State) (tag : Nat := 0) : State :=
  let b := off / 0x10000
  if !s.reaches who off then s
  else if b = 0 then writeGen who off v tag s
  else if b = 1 then writeClk who off v tag s
  else if b = 2 then writeHt who off v tag s
  else if b = 4 then writeMi who off v tag s
  else if 8 ≤ b ∧ b ≤ 0xD then writeAce who off v tag s
  else if b = 0x10 ∨ b = 0x11 then galleryWrite off v s
  else if b = 0x20 ∨ b = 0x21 then writeRp who off v tag s
  else if b = 0x30 then writeStk who off v tag s
  else if b = 0x38 then writeSaf who off v tag s
  else if b = 0x3C then writeFlt who off v tag s
  else if 0x40 ≤ b ∧ b ≤ 0x47 then writeHq who off v tag s
  else if b = 0x48 then writeRec who off v tag s
  else if b = 0x4C then writeCan who off v tag s
  else if b = 0x50 ∨ b = 0x1000 then writeSch who off v tag s
  else if b = 0x54 then writeEvc who off v tag s
  else s.plain who off v tag

/-- Reads that were held back return: those of whose register no word waits any more, of a requester or of the command
ring whose REG_RD it is (R91, R415, R499). -/
def State.readsReturn (s : State) : State :=
  let due := s.prb.reads.filter (fun x => !s.heldBack x.2)
  let s := { s with prb := { s.prb with reads := s.prb.reads.filter (fun x => s.heldBack x.2) } }
  let s := due.foldl (fun s x => hubRead x.1 x.2 s) s
  (List.range 16).foldl (fun s n =>
    match (s.hring n).wait with
    | .rd cid off =>
      if s.heldBack off then s
      else
        let s := hubRead .host off s
        s.finish n cid 0 s.rdata.toNat s.cyc
    | _ => s) s

/-! Accesses of the command rings and of BAR0 (R404, R415). -/

/-- REG_WR: ARG `off`, P0 `v`, P1 `mask`. The result is the previous value, read without a side effect (log entry 66). A
write of a PW register completes with its commit (R499). -/
def hostRegWr (n cid off : Nat) (v mask : Word) (t : Time) (s : State) : State :=
  (s.advance t).cmd n cid (fun s =>
    if off % 4 ≠ 0 ∨ 0x1000000 ≤ off then s.finish n cid 2 0 s.cyc
    else if 0x400000 ≤ off ∧ off < 0x480000 then s.finish n cid 5 0 s.cyc
    else
      let old := s.peek .host off
      let new := (old &&& ~~~ mask) ||| (v &&& mask)
      let pw := match regRow off with | some r => r.pw != 0 && !(R.FLT_SEV 0 ≤ off && off < R.FLT_SEV 0x220 &&
        srcSafety ((off - R.FLT_SEV 0) / 4)) | none => false
      if pw then hubWrite .host off new (s.waitOn n (.pw cid off old)) (n + 1)
      else (hubWrite .host off new s).finish n cid 0 old.toNat s.cyc)

/-- REG_RD: ARG `off`. -/
def hostRegRd (n cid off : Nat) (t : Time) (s : State) : State :=
  (s.advance t).cmd n cid (fun s =>
    if off % 4 ≠ 0 ∨ 0x1000000 ≤ off then s.finish n cid 2 0 s.cyc
    else if 0x400000 ≤ off ∧ off < 0x480000 then s.finish n cid 5 0 s.cyc
    else
      if s.heldBack off then s.waitOn n (.rd cid off)
      else
        let s := hubRead .host off s
        s.finish n cid 0 s.rdata.toNat s.cyc)

/-- BAD_ACC: a BAR0 access of `n` bytes at byte offset `off` that is not an aligned word (R404): a read returns the bytes
of the aligned word from the lowest byte on. -/
def badAccess (write : Bool) (off n : Nat) (s : State) : State :=
  if write then s.hqErr F.HQ_ERR_BAD_ACC
  else
    let w := (s.peek .host (off - off % 4)).toNat
    { s with rdata := BitVec.ofNat 32 (bits w (8 * (off % 4)) (8 * min n (4 - off % 4))) }

/-! Grants (R36 to R39). -/

/-- A granted request acts: a register write at the resources 0, 1 and 11; the other resources only keep the order and the
count here, what they grant acts in its own command. -/
def State.granted (s : State) (res : Nat) (r : WaitReq) : State :=
  if res = 1 ∨ res = 11 then hubWrite r.who r.off r.val s r.tag else s

/-- One grant slot of resource `res` of Table 6 of spec/01, with the requests newly presented in it: one of those that
wait is granted, in order, at resource 11 one for each register; each new one that is not is counted (R36, R37, R39). The order within a row is by requester,
then by `key`: the ring at resource 7, the kind of message or of traffic at 5 and 6. At resource 0 the words go through
the PRB write port (R499). -/
def resourceGrant (res : Nat) (news : List WaitReq) (s : State) : State :=
  if res = 0 then s.prbSlot (news.map WaitReq.word)
  else
    let l := slotOrder WaitReq.isSafety WaitReq.lt (s.waiting res) news
    let x := if res = 11 then firstEach (fun a => a.2.off) l else (l.take 1, l.drop 1)
    let s := s.setWaiting res (x.2.map (fun a => a.2))
    x.1.foldl (fun s a => s.granted res a.2) (s.defer res (lateNews x.2))

/-- REQUEST_WITHDRAWAL: a waiting request leaves without a grant (R38): a mailbox commit, a cart at ring port `key` that
no frame has taken, or a request with that key. -/
def requestWithdrawal (res : Nat) (who : Requester) (key : Nat) (s : State) : State :=
  let s := s.setWaiting res ((s.waiting res).filter (fun r => !(r.who == who && r.key == key)))
  if res = 2 then
    match stgOf who with
    | some q =>
      let gone := s.ace.waiting.any (fun c => c.who == q)
      let s := { s with ace := { s.ace with waiting := s.ace.waiting.filter (fun c => c.who != q) } }
      if gone then s.setStgStat q (setBits (s.stgStat q) 0 1 0) else s
    | none => s
  else if res = 3 then
    s.updPort key (fun p => { p with carts := p.carts.filter (fun c => c.own || c.who != who || c.tries != 0) })
  else s

end Sys2Proof.Machine
end

