-- ==== Sys2Proof/Machine/Cycle.lean ====
section
/-!
DEFINITION. Machine/Cycle.lean: the cycle start (R48 to R52, R75, R227, R228): when it comes, the cycle number, what
takes effect at it, and the frames that leave.
-/

namespace Sys2Proof.Machine

/-- The instant of the cycle start, its cycle number, and the copies of registers that take effect at it. -/
def State.beginCycle (s : State) : State :=
  let h := s.nextStart
  let s := s.advanceHall h
  let k := if !s.clk.started then 0
    else
      match s.stk.setCyc with
      | some n => if s.anyDeblocked then s.cyc + 1 else n + 1
      | none => s.cyc + 1
  let tk := s.clk.now - (s.clk.hall - h)
  let k := k % 2 ^ 32
  let old := s.cycNs
  let first := !s.clk.started
  let s := { s with eff := s.regs }
  let moved := s.cycNs != old
  let since := if first || moved then 0 else min 1024 (s.clk.sinceT + 1)
  let s := { s with clk := { s.clk with tk := tk, tkHall := h, started := true, sinceT := since,
                                        starts := ((k, tk, h) :: s.clk.starts).take 320 },
                    stk := { s.stk with setCyc := none } }
  let s := ((s.wr F.GEN_CYC_NUM_NUM k).wrB F.HT_STAT_ALIGNING (h % max 1 s.cycT != 0)).count 0x001
  if first then s.firstAlign else s

/-- What the topology in effect shows: MODE_OK, UNIT, the rings per arm, source 0x001, and the action bases of a
whole-unit hub (R20, R22, R45, R369). -/
def State.showTopology (s : State) : State :=
  let s := (s.wrB F.GEN_TOPO_MODE_OK s.modeOk).wrB F.GEN_TOPO_UNIT (s.dupMode == 2 && s.rd F.GEN_TOPO_HUB_ID % 2 == 1)
  let s := (List.range 5).foldl (fun (s : State) a => s.wr ⟨R.GEN_ARM_RINGS, 6 * a, 6⟩ (s.ringsOf a).length) s
  let s := s.live 0x001 (!s.modeOk || (List.range 32).any s.badRingField)
  let s := if s.dupMode = 2 then (List.range 32).foldl (fun (s : State) r => s.wr (F.GEN_RING_DLV_BASE_J r) 6) s else s
  s.updLeads

/-- The first frame of a takeover (R382 to R384): the hub is ACTIVE, and each carried arm is deblocked unless a cause
other than 3 and 11 holds. -/
def State.firstFrame (s : State) (x : Take) : State :=
  let carry := s.stk.carry
  let k := s.cyc
  let s := s.setRed 1
  let s := (s.setReg R.STK_HO_CYC (BitVec.ofNat 32 k)).wr F.STK_RED_STAT_LAST_GAP (min 127 (s.since x.kf))
  let s := (if x.revert then s.incSat F.STK_HO_CNT_REVERTS else s.incSat F.STK_HO_CNT_TAKEOVERS).count 0x005
  let s := { s with stk := { s.stk with take := none, carry := 0, resumeAt := some k, base := none, jrnl := [], seen := [] } }
  let s := (List.range 6).foldl (fun s a =>
    if bitOf carry a && (setBits (setBits (s.armCauses a) 3 1 0) 11 1 0 == 0) then s.deblockArm a else s) s
  s.raise 0x06B

/-- A newer epoch seen in a mode that does not fence is written with 1 added (R378). -/
def State.epochWrite (s : State) : State :=
  match s.stk.newEpoch with
  | some e => ({ s with stk := { s.stk with newEpoch := none } }).presentPw .hubHw R.STK_EPOCH (BitVec.ofNat 32 e)
  | none => s

/-- The frames of resume carriages have left. -/
def State.resumeOver (s : State) : State :=
  match s.stk.resumeAt with
  | some k => if 2 < s.since k then { s with stk := { s.stk with resumeAt := none } } else s
  | none => s

/-- The named cycle of a resignation has come: the hub is a standby (R383). -/
def State.resignDue (s : State) : State :=
  if s.redSt == 1 && s.stk.resignAt == some s.cyc then
    ({ s with stk := { s.stk with resignAt := none, base := none, jrnl := [], seen := [] } }).setRed 2
  else s

/-- The takeover in progress goes on: its next phase, or the first frame. -/
def State.takeGoesOn (s : State) : State :=
  match s.stk.take with
  | some x => if x.phase = 6 then s.firstFrame x else s.takePhase
  | none => s

/-- Whole-unit mode at the cycle start (Table 1, Table 4 of spec/12): the standby of an odd hub, resignation, fencing, a
planned takeover, the phases of a takeover. -/
def State.unitStart (s : State) : State :=
  let s := if s.redSt == 0 && s.hubId % 2 == 1 then s.setRed 2 else s
  let s := if s.redSt == 0 then s.wrB F.GEN_TOPO_ACTIVE false else s
  let s := s.resignDue
  let s := if s.redSt == 1 && s.stk.fence then s.setRed 4 else s
  let s := if s.redSt == 2 && s.stk.takeAt == some s.cyc then s.takeOver s.cyc s.stk.reverting else s
  s.takeGoesOn

/-- Redundancy at the cycle start. -/
def State.redundancy (s : State) : State :=
  let s := s.epochWrite.resumeOver
  if s.dupMode = 2 then s.unitStart
  else (if s.redSt = 0 then s else s.setRed 0).wrB F.GEN_TOPO_ACTIVE true

/-- R75: the rings of the enabled arms fit the cycle. -/
def State.fits (s : State) : Bool :=
  decide (1024 ≤ s.clk.sinceT) && (List.range 6).all (fun a => !s.armOn a || (s.basePorts a).all (fun q =>
    decide (s.rd (F.GEN_RING_RET_RET_MAX q) + 475 ≤ 2 * s.cycNs) && !s.rdB (F.GEN_RING_DLV_OVER q)))

/-- FIT_UPDATE: `GEN_CYC_STAT` and source 0x005 (R75, R76). Of two rings with the same largest RET_MAX, WORST_RING names the
lower (DESIGN CHOICE, log entry 78). -/
def State.fitUpdate (s : State) : State :=
  let qs := (List.range 6).flatMap (fun a => if s.armOn a then s.basePorts a else [])
  let ret (q : Nat) : Nat := s.rd (F.GEN_RING_RET_RET_MAX q)
  let worst := (List.range 32).foldl (fun (w : Option Nat) q =>
    if !qs.contains q then w
    else match w with
      | none => some q
      | some b => if ret b < ret q then some q else some b) none
  let m : Int := 2 * s.cycNs - 450 - ret (worst.getD 0)
  let was := s.rdB F.GEN_CYC_STAT_FIT
  let now := s.fits
  let s := (s.wrB F.GEN_CYC_STAT_FIT now).wr F.GEN_CYC_STAT_WORST_RING (worst.getD 0)
  let s := s.wr F.GEN_CYC_STAT_MARGIN (satField 16 m)
  if now then s.live 0x005 false else if was && s.anyDeblocked then s.live 0x005 true else s

/-- The hub emits the frames of its arms: in whole-unit mode only with the emitting role. -/
def State.emits (s : State) : Bool := s.dupMode != 2 || s.rdB F.GEN_TOPO_ACTIVE

/-- The frames of the cycle leave: the gallery's record follows them (R145, R154, R383), the recorder notes the arm words
(Table 1 of spec/15). `off`: emission of each port after t_k, at most 6 ns (R52). -/
def State.emitFrames (s : State) (off : List Nat) : State :=
  if !s.emits then s.noteFrame (fun _ => true)
  else
    let s := s.noteFrame (fun a => !s.deblocked a)
    let s := (List.range 32).foldl (State.emitRing (fun q => min (ns 6) (nth off q 0))) s
    (List.range 6).foldl (fun s a =>
      if s.resuming && s.deblocked a then
        let s := s.recordResume a
        if s.stk.resumeAt == some s.cyc then s else s.resumeCount a
      else s.recordArm a (!s.deblocked a)) s

/-- CYCLE_START. -/
def cycleStart (off : List Nat) (s : State) : State :=
  let s := if s.clk.started then s.sendJournal s.cyc else s
  let s := s.beginCycle.showTopology.redundancy
  let s := (List.range 32).foldl State.roleChange s
  let s := (List.range 32).foldl (fun (s : State) q => if s.pst q = 0 then s.portStep q else s) s
  let s := (List.range 32).foldl (fun (s : State) q =>
    match (s.port q).rateAt with | some (k, _) => if k = s.cyc then s.rateSwitch q else s | none => s) s
  let s := (s.splitDue).commitMailboxes.hostGrants
  let s := (s.applyScales.bankSwitch).ageBlocks
  let s := s.determineNewel.exchange.sendTime
  let s := s.showHubs.showLats.checkJournal.checkSnap.showReady
  let s := s.fitUpdate.armsAtStart.commitsAtStart
  let s := s.emitFrames off
  (s.endOwed.commitsDone.hostCycle).wakeCycle

end Sys2Proof.Machine
end

