-- ==== Sys2Proof/Machine/Reach.lean ====
section
/-!
DEFINITION. Machine/Reach.lean: what a command reaches. The hub, its safety island and each Tread are separate parts: a
command acts on one of them, and only frames, lanes and pins carry anything between them. A hub whose chip reset holds
its islands takes no command (R480, R486); its safety island runs on (R480), and so do its Treads. A Tread without supply
takes none (R523). No command touches the queue of waiting commands. Beside the gates stand the small operations that
several meanings share.
-/

namespace Sys2Proof.Machine

/-! Gates. -/

/-- A command of the hub: the Treads, core memory and the queue stay. -/
def State.onChip (s : State) (f : State → State) : State :=
  { f s with treads := s.treads, coreMem := s.coreMem, pending := s.pending }

/-- A command of the hub's islands. -/
def State.onHub (s : State) (f : State → State) : State :=
  if s.pwr.held then s else s.onChip f

def State.onHubAt (s : State) (t : Time) (f : State → State) : State := s.onHub (fun s => f (s.advance t))

/-- A command that writes core memory. -/
def State.onHubMem (s : State) (f : State → State) : State :=
  if s.pwr.held then s else { f s with treads := s.treads, pending := s.pending }

/-- A pass of the engine, with the words that it stores in core memory. -/
def State.onPass (s : State) (f : State → State × List (Nat × Nat)) : State :=
  if s.pwr.held then s
  else
    let r := f s
    { s.onChip (fun _ => r.1) with coreMem := r.2.foldl (fun m p => writeBytes m p.1 4 p.2) s.coreMem }

/-- A command of the safety island. While the chip is held in reset it reaches its own registers and state and the
conditions that it reports, and the causes of the reset (R480, R338). -/
def State.onSafety (s : State) (f : State → State) : State :=
  if s.pwr.held then s.whileHeld f else s.onChip f

def State.onSafetyAt (s : State) (t : Time) (f : State → State) : State := s.onSafety (fun s => f (s.advance t))

/-- A command of Tread `i`. -/
def State.onTread (s : State) (i : Cell) (f : Tread → Tread) : State :=
  if (s.tread i).powered then s.updTread i f else s

def State.onTreadAt (s : State) (i : Cell) (t : Time) (f : Tread → Tread) : State :=
  s.onTread i (fun d => (d.advance t).supplied f)

/-- An event on a lane of Tread `i`: nothing else of what `f` does is taken. -/
def State.onTreadLane (s : State) (i : Cell) (t : Time) (f : State → State) : State :=
  s.onTreadAt i t (fun d => (f (s.setTread i d)).tread i)

/-- An event on a receive lane at instant `t`: of a port of the hub, or of a Tread. -/
def State.onLane (s : State) (l : Lane) (t : Time) (f : Lane → State → State) : State :=
  match l with
  | .port r => s.onHubAt t (f (.port r))
  | .tit n => s.onHubAt t (f (.tit n))
  | .near i => s.onTreadLane i t (f (.near i))
  | .far i => s.onTreadLane i t (f (.far i))

/-- A register write: of the hub, or by the firmware of Tread `i` in its own space. -/
def State.onBus (s : State) (tgt : Option Cell) (t : Time) (f : State → State) (g : Tread → Tread) : State :=
  match tgt with
  | none => s.onHubAt t f
  | some i => s.onTreadAt i t g

/-- A register read: of the hub, or by the firmware of Tread `i`. -/
def State.readBus (s : State) (tgt : Option Cell) (t : Time) (f : State → State) (g : Tread → Tread × Word) : State :=
  match tgt with
  | none => s.onHubAt t f
  | some i =>
    if (s.tread i).powered then
      let r := g ((s.tread i).advance t)
      { s.setTread i r.1 with rdata := r.2 }
    else s

/-- A grant slot at instant `t`: of a resource of the hub, or of a Tread's registers (Table 6 of spec/01). -/
def State.grantSlot (s : State) (g : Grant) (t : Time) : State :=
  match g with
  | .hub res asks => s.onHubAt t (resourceGrant res (asks.map (fun a => { who := a.who, key := a.key, off := a.off, val := a.val })))
  | .tread i asks => s.onTreadAt i t (fun d => d.grantSlot asks)

/-! Small operations. -/

/-- The registers of R43. -/
def topoReg (which : Fin 11) : Nat :=
  if which.val = 0 then R.GEN_TOPO else if which.val < 7 then R.GEN_ARM_CFG (which.val - 1) else R.GEN_RING_ARM (which.val - 7)

/-- A word of the edit windows (R134); a reserved bit of a descriptor is not stored. -/
def State.editWord (s : State) (w : EditWord) (v : Word) : State :=
  match w with
  | .desc k => s.editWrite k (v &&& dMask (k.val % 16))
  | .gain k => s.editWrite (4096 + k.val) v

/-- A request cart (Table 10 of spec/06). -/
def reqCart (op tag pos arg data : Nat) : Slot := mkCart op tag pos false arg data

/-- ARG of RD, WR and BWR (Table 11 of spec/06). -/
def waddr (word : Fin 1024) (two : Bool) : Nat := word.val + 1024 * b2n two

/-- A write of `T_BYP_CMD` (R281). -/
def Tread.bypCmd (d : Tread) (v : Word) : Tread :=
  if bitOf v.toNat 0 && bits v.toNat 8 8 == 0x5A then d.release.1 else d

/-- BYP_CONF goes high (R279). -/
def Tread.bypConf (d : Tread) : Tread := (d.wrB F.T_BYP_STAT_CONF true).confirm

/-- `T_FW_CMD.SWITCH` with its key (R302). -/
def Tread.fwSwitchKey (d : Tread) (key : Nat) : Tread := if key = 0xA5 then d.fwSwitch.1 else d

/-- The core of an operation, none for the host. -/
def coreOf (who : Option CoreNo) : Option Nat := who.map (fun c => c.val)

/-- A cart that a requester gives to ring port `r`: a descriptor of cart ring `n` (R414), or a cart of the safety island
or a core (R208). -/
def cartCommand (who : Requester) (n : HRing) (cid : Nat) (r : Ring) (op pos arg data raddr : Nat) (t : Time) (s : State) :
    State :=
  match who with
  | .cartRing m => hostCartCmd (56 + m.val) cid r op pos arg data raddr t s
  | .host => hostCartCmd n cid r op pos arg data raddr t s
  | .jtag => hostCartCmd n cid r op pos arg data raddr t s
  | w =>
    if s.cartRefused r op then
      let x := (s.raise 0x00B).tick.iqPush r s.free
      if x.2 then x.1.raise 0x0C7 else x.1
    else s.presentCarts r [{ who := w, op := op, pos := pos, arg := arg, data := data, cid := cid, raddr := 0 }]

/-- `EVC_CTRL.FREEZE` (R510). -/
def evcFreeze (v : Bool) (s : State) : State := s.wrB F.EVC_CTRL_FREEZE v

/-- REF25_IN is lost (R253); a start-up that is held then waits for it (R486). -/
def refGone (t : Time) (s : State) : State :=
  let s := s.advance t
  if s.pwr.held then { s with clk := { s.clk with refOk := false } } else refLoss s

end Sys2Proof.Machine
end

