-- ==== Sys2Proof/Machine/CmdArchitecture.lean ====
section
/-!
DEFINITION. Machine/CmdArchitecture.lean: the meanings of the commands of registers, grants and island clocks (spec/01).
-/

namespace Sys2Proof.Machine

/-- `REGISTER_WRITE` (R9): A write to a register that has no row of its own takes effect under its access code and the
write rules of its block. -/
def execRegisterWrite (who : Requester) (tgt : Option Cell) (off : Nat) (v : Word) (t : Time) (s : State) : Host.Outcome
    State Fault Refusal :=
  .next (s.onBus tgt t (hubWrite who off v) (fun d => (d.writeReg off v false).1))

/-- `RC_READ` (R9): A read of an RC field returns the value and then clears the field; an event in the same clock is
kept for the next read. -/
def execRcRead (who : Requester) (tgt : Option Cell) (off : Nat) (t : Time) (s : State) : Host.Outcome State Fault
    Refusal :=
  .next (s.readBus tgt t (hubRead who off) (fun d => d.readReg off))

/-- `COUNTER_LOW_READ` (R6): A read of the low word of a 48-bit or 64-bit counter latches the high word for the next
read of the high word. -/
def execCounterLowRead (who : Requester) (n : Option (Fin 64)) (t : Time) (s : State) : Host.Outcome State Fault Refusal
    :=
  .next (s.onHubAt t (fun s => hubRead who (match n with | some n => R.EVC_CNTL n | none => R.SCH_TICKL) s))

/-- `PW_COMMIT` (R499): The PRB commit engine completes the commit of a queued PW word, after which the new value
governs behaviour and the write is acknowledged. -/
def execPwCommit (t : Time) (s : State) : Host.Outcome State Fault Refusal :=
  .next (s.onHubAt t (fun s => (pwCommit s).readsReturn))

/-- `TOPOLOGY_WRITE` (R43): A write to GEN_TOPO.DUP_MODE, GEN_ARM_CFGn or GEN_RING_ARMn is ignored with a topology-write
fault while an arm is deblocked, and otherwise takes effect at the next cycle start. -/
def execTopologyWrite (who : Requester) (which : Fin 11) (v : Word) (t : Time) (s : State) : Host.Outcome State Fault
    Refusal :=
  .next (s.onHubAt t (fun s => hubWrite who (topoReg which) v s))

/-- `RESOURCE_GRANT` (R36): In each grant slot a shared resource grants one waiting request in the fixed order of Table
6 and counts deferred requests. -/
def execResourceGrant (g : Grant) (t : Time) (s : State) : Host.Outcome State Fault Refusal :=
  .next (s.grantSlot g t)

/-- `REQUEST_WITHDRAWAL` (R38): A requester withdraws a waiting request, which leaves the queue without moving any other
request. -/
def execRequestWithdrawal (res : Fin 12) (who : Requester) (key : Nat) (t : Time) (s : State) : Host.Outcome State Fault
    Refusal :=
  .next (s.onHubAt t (fun s => requestWithdrawal res who key s))

/-- `ISLAND_CLOCK_FAULT` (R29): An island's clock stops or leaves its band, and the clock monitor raises that island's
clock fault source within 2 µs. -/
def execIslandClockFault (n : Fin 39) (t : Time) (s : State) : Host.Outcome State Fault Refusal :=
  .next (s.onChip (fun s => islandClockFault n t s))

end Sys2Proof.Machine
end

