-- ==== Sys2Proof/Machine/CmdBoot.lean ====
section
/-!
DEFINITION. Machine/CmdBoot.lean: the meanings of the commands of boot and debug access (spec/17).
-/

namespace Sys2Proof.Machine

/-- `BOOT_VERIFY` (R491): The boot engine reads and verifies a flash slot and starts core 0 or sets FAIL. -/
def execBootVerify (a : Option (List Byte)) (b : Option (List Byte)) (t : Time) (s : State) : Host.Outcome State Fault
    Refusal :=
  .next (s.onHubMem (fun s => bootVerify a b (s.advance t)))

/-- `GO` (R492): GEN_BOOT_CMD.GO with KEY 0x47 starts verification of a host-loaded image. -/
def execGo (go : Bool) (key : Byte) (t : Time) (s : State) : Host.Outcome State Fault Refusal :=
  .next (s.onHubAt t (fun s => bootGo go key.toNat s))

/-- `CHAL` (R494): GEN_DBG_CMD.CHAL with KEY 0xD1 generates a new debug challenge. -/
def execChal (key : Byte) (t : Time) (s : State) : Host.Outcome State Fault Refusal :=
  .next (s.onHubAt t (fun s => dbgChal key.toNat s))

/-- `SUBMIT` (R494): GEN_DBG_CMD.SUBMIT with KEY 0xD1 starts checking the debug certificate and response. -/
def execSubmit (key : Byte) (t : Time) (s : State) : Host.Outcome State Fault Refusal :=
  .next (s.onHubAt t (fun s => dbgSubmit key.toNat s))

/-- `DEBUG_CHECK_DONE` (R494): The debug check completes, opening the lock or counting a failure. -/
def execDebugCheckDone (t : Time) (s : State) : Host.Outcome State Fault Refusal :=
  .next (s.onHubAt t (fun s => dbgCheckDone s))

/-- `DEBUG_CLOSE` (R496): GEN_DBG_CMD.CLOSE with KEY 0xD1 closes the debug lock. -/
def execDebugClose (key : Byte) (t : Time) (s : State) : Host.Outcome State Fault Refusal :=
  .next (s.onHubAt t (fun s => dbgClose key.toNat s))

end Sys2Proof.Machine
end

