-- ==== Sys2Proof/Machine/CmdCan.lean ====
section
/-!
DEFINITION. Machine/CmdCan.lean: the meanings of the commands of the CAN FD controllers (spec/16).
-/

namespace Sys2Proof.Machine

/-- `CAN_INIT_WRITE` (R459): A write of CAN_CTRL.INIT stops the controller and discards its frames, or starts bus
integration. -/
def execCanInitWrite (n : Fin 2) (v : Bool) (t : Time) (s : State) : Host.Outcome State Fault Refusal :=
  .next (s.onHubAt t (fun s => canInitWrite n v s))

/-- `CAN_INTEGRATION_DONE` (R459): After 11 recessive bits the controller becomes error active. -/
def execCanIntegrationDone (n : Fin 2) (t : Time) (s : State) : Host.Outcome State Fault Refusal :=
  .next (s.onHubAt t (fun s => canIntegrationDone n s))

/-- `PUSH` (R460): CAN_CMD.PUSH appends the staged frame to the transmit queue, or is refused when full. -/
def execPush (n : Fin 2) (who : Requester) (t : Time) (s : State) : Host.Outcome State Fault Refusal :=
  .next (s.onHubAt t (fun s => canPush n who s))

/-- `URGENT` (R460): CAN_CMD.URGENT copies the staged frame into the urgent buffer, or is refused when busy. -/
def execUrgent (n : Fin 2) (who : Requester) (t : Time) (s : State) : Host.Outcome State Fault Refusal :=
  .next (s.onHubAt t (fun s => canUrgent n who s))

/-- `CANCEL` (R463): CAN_CMD.CANCEL removes a waiting frame or the urgent frame. -/
def execCancel (n : Fin 2) (urg : Bool) (tag : Fin 65536) (t : Time) (s : State) : Host.Outcome State Fault Refusal :=
  .next (s.onHubAt t (fun s => canCancel n urg tag s))

/-- `RECOVER` (R465): CAN_CMD.RECOVER starts bus-off recovery. -/
def execRecover (n : Fin 2) (t : Time) (s : State) : Host.Outcome State Fault Refusal :=
  .next (s.onHubAt t (fun s => canRecover n s))

/-- `CAN_RING_FETCH` (R460): The controller fetches a frame from its transmit ring into the queue. -/
def execCanRingFetch (n : Fin 2) (words : List Word) (t : Time) (s : State) : Host.Outcome State Fault Refusal :=
  .next (s.onHubAt t (fun s => canRingFetch n words s))

/-- `CAN_START_OF_FRAME` (R461): At a start of frame the controller offers the urgent frame or the queue head to
arbitration. -/
def execCanStartOfFrame (n : Fin 2) (t : Time) (s : State) : Host.Outcome State Fault Refusal :=
  .next (s.onHubAt t (fun s => canStartOfFrame n s))

/-- `CAN_TX_DONE` (R464): A frame leaves with its outcome, retried on error up to RETRY. -/
def execCanTxDone (n : Fin 2) (e : CanEnd) (delay : Nat) (tec : Nat) (rec : Nat) (t : Time) (s : State) : Host.Outcome
    State Fault Refusal :=
  .next (s.onHubAt t (fun s => canTxDone n e delay tec rec s))

/-- `CAN_BUS_OFF` (R465): The transmit error counter passes 255 and the controller enters bus-off. -/
def execCanBusOff (n : Fin 2) (t : Time) (s : State) : Host.Outcome State Fault Refusal :=
  .next (s.onHubAt t (fun s => canBusOff n s))

/-- `CAN_RECOVERY_DONE` (R465): After 128 recessive idle sequences recovery ends with error counters 0. -/
def execCanRecoveryDone (n : Fin 2) (t : Time) (s : State) : Host.Outcome State Fault Refusal :=
  .next (s.onHubAt t (fun s => canRecoveryDone n s))

/-- `CAN_RECEIVE` (R467): A correct received frame is filtered and routed to a queue or mailbox. -/
def execCanReceive (n : Fin 2) (f : CanFrame) (ok : Bool) (age : Nat) (tec : Nat) (rec : Nat) (t : Time) (s : State) :
    Host.Outcome State Fault Refusal :=
  .next (s.onHubAt t (fun s => canReceive n f ok age tec rec t s))

/-- `RXQ_ACK` (R468): A write of CAN_RXQq_ACK removes the head entry of a receive queue. -/
def execRxqAck (n : Fin 2) (q : Fin 2) (t : Time) (s : State) : Host.Outcome State Fault Refusal :=
  .next (s.onHubAt t (fun s => rxqAck n q s))

/-- `SMB_LOCK_READ` (R470): A read of word 0 of a safety mailbox locks it. -/
def execSmbLockRead (who : Requester) (n : Fin 2) (m : Fin 4) (t : Time) (s : State) : Host.Outcome State Fault Refusal
    :=
  .next (s.onHubAt t (fun s => hubRead who (R.CAN_SMB n m 0) s))

/-- `SMB_UNLOCK_READ` (R470): A read of word 23 of a safety mailbox unlocks it and promotes a pending frame. -/
def execSmbUnlockRead (who : Requester) (n : Fin 2) (m : Fin 4) (t : Time) (s : State) : Host.Outcome State Fault
    Refusal :=
  .next (s.onHubAt t (fun s => hubRead who (R.CAN_SMB n m 23) s))

/-- `UNLOCK` (R470): CAN_SMBm_CMD.UNLOCK unlocks a safety mailbox. -/
def execUnlock (n : Fin 2) (m : Fin 4) (t : Time) (s : State) : Host.Outcome State Fault Refusal :=
  .next (s.onHubAt t (fun s => smbUnlock n m s))

/-- `CAN_PROTOCOL_EXCEPTION` (R456): A recessive res bit in an FD frame makes the controller start bus integration and
increment CAN_CNT.PEXC. -/
def execCanProtocolException (n : Fin 2) (t : Time) (s : State) : Host.Outcome State Fault Refusal :=
  .next (s.onHubAt t (fun s => canProtocolException n s))

end Sys2Proof.Machine
end

