-- ==== Sys2Proof/Machine/CmdCores.lean ====
section
/-!
DEFINITION. Machine/CmdCores.lean: the meanings of the commands of cores and the thread scheduler (spec/14).
-/

namespace Sys2Proof.Machine

/-- `SCH_READY` (R436): READY ends a thread's WAIT or sets its pending signal. -/
def execSchReady (who : Option CoreNo) (th : Fin 256) (t : Time) (s : State) : Host.Outcome State Fault Refusal :=
  .next (s.onHubAt t (fun s => schOp (coreOf who) (opWord 1 th 0 0) s))

/-- `SCH_WAIT` (R436): WAIT blocks the caller for a signal with an optional time-out. -/
def execSchWait (who : Option CoreNo) (t : Time) (s : State) : Host.Outcome State Fault Refusal :=
  .next (s.onHubAt t (fun s => schOp (coreOf who) (opWord 2 0 0 0) s))

/-- `SCH_SLEEP` (R434): SLEEP makes the caller ready after ARG ticks. -/
def execSchSleep (who : Option CoreNo) (t : Time) (s : State) : Host.Outcome State Fault Refusal :=
  .next (s.onHubAt t (fun s => schOp (coreOf who) (opWord 3 0 0 0) s))

/-- `SCH_PRIO` (R434): PRIO sets a thread's priority and may preempt. -/
def execSchPrio (who : Option CoreNo) (th : Fin 256) (prio : Fin 32) (t : Time) (s : State) : Host.Outcome State Fault
    Refusal :=
  .next (s.onHubAt t (fun s => schOp (coreOf who) (opWord 4 th prio 0) s))

/-- `SCH_SUSPEND` (R439): SUSPEND takes a thread out of any wait into SUSPENDED, abandoning its ticket. -/
def execSchSuspend (who : Option CoreNo) (th : Fin 256) (t : Time) (s : State) : Host.Outcome State Fault Refusal :=
  .next (s.onHubAt t (fun s => schOp (coreOf who) (opWord 5 th 0 0) s))

/-- `SCH_RESUME` (R434): RESUME makes a suspended thread ready with SUSP set. -/
def execSchResume (who : Option CoreNo) (th : Fin 256) (t : Time) (s : State) : Host.Outcome State Fault Refusal :=
  .next (s.onHubAt t (fun s => schOp (coreOf who) (opWord 6 th 0 0) s))

/-- `WAIT_Q` (R434): WAIT_Q blocks the caller until an inner queue holds an item or the time-out. -/
def execWaitQ (who : Option CoreNo) (q : Fin 256) (t : Time) (s : State) : Host.Outcome State Fault Refusal :=
  .next (s.onHubAt t (fun s => schOp (coreOf who) (opWord 7 q 0 0) s))

/-- `WAIT_CYC` (R437): WAIT_CYC blocks the caller until a named cycle starts, or returns LATE. -/
def execWaitCyc (who : Option CoreNo) (t : Time) (s : State) : Host.Outcome State Fault Refusal :=
  .next (s.onHubAt t (fun s => schOp (coreOf who) (opWord 8 0 0 0) s))

/-- `FLOW_ENTER` (R438): FLOW_ENTER gives the caller the next ticket of a flow, waiting when 64 are outstanding. -/
def execFlowEnter (who : Option CoreNo) (f : Fin 16) (t : Time) (s : State) : Host.Outcome State Fault Refusal :=
  .next (s.onHubAt t (fun s => schOp (coreOf who) (opWord 9 0 0 f) s))

/-- `FLOW_RELEASE` (R439): FLOW_RELEASE releases the caller's ticket once every earlier ticket is released. -/
def execFlowRelease (who : Option CoreNo) (f : Fin 16) (t : Time) (s : State) : Host.Outcome State Fault Refusal :=
  .next (s.onHubAt t (fun s => schOp (coreOf who) (opWord 10 0 0 f) s))

/-- `EXIT` (R434): EXIT makes the caller DORMANT and abandons its ticket. -/
def execExit (who : Option CoreNo) (t : Time) (s : State) : Host.Outcome State Fault Refusal :=
  .next (s.onHubAt t (fun s => schOp (coreOf who) (opWord 11 0 0 0) s))

/-- `START` (R434): START makes a DORMANT or FAULTED thread ready. -/
def execStart (who : Option CoreNo) (th : Fin 256) (t : Time) (s : State) : Host.Outcome State Fault Refusal :=
  .next (s.onHubAt t (fun s => schOp (coreOf who) (opWord 12 th 0 0) s))

/-- `SCH_TIMEOUT` (R437): A wait's time-out tick falls due and the thread becomes ready with TIMEOUT. -/
def execSchTimeout (t : Time) (s : State) : Host.Outcome State Fault Refusal :=
  .next (s.onHubAt t (fun s => schTimeout t s))

/-- `DISPATCH` (R432): A dispatch slot offers a ready thread to a core and raises its dispatch interrupt. -/
def execDispatch (t : Time) (s : State) : Host.Outcome State Fault Refusal :=
  .next (s.onHubAt t (fun s => dispatch t s))

/-- `SCH_SWITCH` (R433): A write of SCH_SWITCH confirms the offered thread or idle, or is refused. -/
def execSchSwitch (c : CoreNo) (th : Fin 256) (idle : Bool) (t : Time) (s : State) : Host.Outcome State Fault Refusal :=
  .next (s.onHubAt t (fun s => schSwitch c th idle s))

/-- `SCH_RES_READ` (R435): A read of SCH_RES stalls until the core's latest operation has executed. -/
def execSchResRead (c : CoreNo) (t : Time) (s : State) : Host.Outcome State Fault Refusal :=
  .next (s.onHubAt t (fun s => hubRead (.core c) (R.SCH_RES c) s))

/-- `LOCKSTEP_MISMATCH` (R426): The halves of a logical core disagree, halting the core and faulting its thread. -/
def execLockstepMismatch (c : CoreNo) (t : Time) (s : State) : Host.Outcome State Fault Refusal :=
  .next (s.onHubAt t (fun s => lockstepMismatch c t s))

/-- `CORE_RUN` (R441): A write of RUN = 1 starts a core at its vector unless its lockstep latch is set. -/
def execCoreRun (c : CoreNo) (v : Bool) (t : Time) (s : State) : Host.Outcome State Fault Refusal :=
  .next (s.onHubAt t (fun s => coreRun c v s))

/-- `UNCORRECTABLE_ECC_ERROR` (R428): An uncorrectable ECC error is detected in core memory, staging, gallery tables,
ring buffers or LPDDR5, raising its source 0x0C0 to 0x0C4 and faulting the accessing core where one made the access. -/
def execUncorrectableEccError (src : Fin 5) (t : Time) (s : State) : Host.Outcome State Fault Refusal :=
  .next (s.onHubAt t (fun s => uncorrectableEcc (0x0C0 + src) t s))

end Sys2Proof.Machine
end

