-- ==== Sys2Proof/Machine/CmdCycle.lean ====
section
/-!
DEFINITION. Machine/CmdCycle.lean: the meanings of the commands of the control cycle (spec/02).
-/

namespace Sys2Proof.Machine

/-- `CYCLE_START` (R48): At t_k the cycle number increments and every ring port begins emitting frame k, with pending
configuration taking effect. -/
def execCycleStart (off : List Nat) (s : State) : Host.Outcome State Fault Refusal :=
  .next (s.onHub (fun s => cycleStart off s))

/-- `CYCLE_LENGTH_WRITE` (R49): A write to GEN_CYC_LEN is ignored with a cycle-write fault when out of range or while an
arm is deblocked, and otherwise takes effect at the next cycle start. -/
def execCycleLengthWrite (who : Requester) (v : Word) (t : Time) (s : State) : Host.Outcome State Fault Refusal :=
  .next (s.onHubAt t (fun s => hubWrite who R.GEN_CYC_LEN v s))

/-- `CYCLE_CONTROL_WRITE` (R80): A write to GEN_CYC_CTRL sets the late-train limit from the next cycle start. -/
def execCycleControlWrite (who : Requester) (v : Word) (t : Time) (s : State) : Host.Outcome State Fault Refusal :=
  .next (s.onHubAt t (fun s => hubWrite who R.GEN_CYC_CTRL v s))

/-- `TRAIN_ARRIVAL` (R62): A ring port receives the inbound frame and writes the train of uplink carriages into the
gallery island. -/
def execTrainArrival (r : Ring) (f : Frame) (tIn : Time) (t : Time) (s : State) : Host.Outcome State Fault Refusal :=
  .next (s.onHub (fun s => trainArrival r f tIn t s))

/-- `GALLERY_DEADLINE` (R64): At t_k + 2T − 450 ns every incomplete train is marked late and its cells use stale data,
with late counts and the late-train limit checked. -/
def execGalleryDeadline (s : State) : Host.Outcome State Fault Refusal :=
  .next (s.onHub (fun s => galleryDeadline s))

/-- `LATE_TRAIN_COMPLETE` (R65): A late train completes and goes to the fault collector, servo, recorder and journal but
not to the gallery. -/
def execLateTrainComplete (r : Ring) (f : Frame) (tIn : Time) (t : Time) (s : State) : Host.Outcome State Fault Refusal
    :=
  .next (s.onHub (fun s => trainArrival r f tIn t s))

end Sys2Proof.Machine
end

