-- ==== Sys2Proof/Machine/CmdEngine.lean ====
section
/-!
DEFINITION. Machine/CmdEngine.lean: the meanings of the commands of the arm control engine (spec/04).
-/

namespace Sys2Proof.Machine

/-- `ENGINE_PASS` (R105): At t_j − 900 ns the arm control engine latches its sources and executes the active block list
once, delivering arm output records by t_j − 600 ns. -/
def execEnginePass (s : State) : Host.Outcome State Fault Refusal :=
  .next (s.onPass enginePass)

/-- `STG_COMMIT` (R131): A write of ACE_STG_COMMIT copies the requester's staging words into a commit for a mailbox, or
is refused while a commit is pending. -/
def execStgCommit (who : Requester) (m : Fin 64) (t : Time) (s : State) : Host.Outcome State Fault Refusal :=
  .next (s.onHubAt t (fun s => (match stgOf who with | some q => stgCommit q m s | none => s)))

/-- `MAILBOX_COMMIT_GRANT` (R131): A waiting mailbox commit is granted, one per mailbox per cycle, and its words become
active at the next cycle start. -/
def execMailboxCommitGrant (m : Fin 64) (t : Time) (s : State) : Host.Outcome State Fault Refusal :=
  .next (s.onHubAt t (fun s => mailboxGrant m s))

/-- `EDIT_BANK_WRITE` (R134): A write to the descriptor or gain-set edit window changes the edit bank and clears OK, or
is ignored with IGN during a pending switch or a busy command. -/
def execEditBankWrite (w : EditWord) (v : Word) (t : Time) (s : State) : Host.Outcome State Fault Refusal :=
  .next (s.onHubAt t (fun s => s.editWord w v))

/-- `COPY` (R135): ACE_LIST_CMD.COPY starts copying the active bank into the edit bank. -/
def execCopy (t : Time) (s : State) : Host.Outcome State Fault Refusal :=
  .next (s.onHubAt t (fun s => aceCopy s))

/-- `COPY_DONE` (R135): A copy completes, clearing BUSY and OK. -/
def execCopyDone (t : Time) (s : State) : Host.Outcome State Fault Refusal :=
  .next (s.onHubAt t (fun s => aceCopyDone s))

/-- `CHECK` (R135): ACE_LIST_CMD.CHECK starts the load check of the edit bank. -/
def execCheck (t : Time) (s : State) : Host.Outcome State Fault Refusal :=
  .next (s.onHubAt t (fun s => aceCheck s))

/-- `CHECK_DONE` (R135): The load check completes and sets OK or reports the first failure in ERR, BLOCK and KIND. -/
def execCheckDone (t : Time) (s : State) : Host.Outcome State Fault Refusal :=
  .next (s.onHubAt t (fun s => aceCheckDone s))

/-- `SWITCH` (R136): ACE_LIST_CMD.SWITCH requests the bank exchange at the next cycle start, or is ignored with a
list-switch fault. -/
def execSwitch (t : Time) (s : State) : Host.Outcome State Fault Refusal :=
  .next (s.onHubAt t (fun s => aceSwitch s))

/-- `INJECT_START` (R140): ACE_INJ_CMD.START starts the generator from IDLE, or is refused. -/
def execInjectStart (t : Time) (s : State) : Host.Outcome State Fault Refusal :=
  .next (s.onHubAt t (fun s => injectStart s))

/-- `INJECT_STOP` (R140): ACE_INJ_CMD.STOP ends RUN into fade-out or IDLE. -/
def execInjectStop (t : Time) (s : State) : Host.Outcome State Fault Refusal :=
  .next (s.onHubAt t (fun s => injectStop s))

/-- `CAPTURE_START` (R141): ACE_CAP_CMD.START starts a capture into RUN or ARMED. -/
def execCaptureStart (t : Time) (s : State) : Host.Outcome State Fault Refusal :=
  .next (s.onHubAt t (fun s => captureStart s))

/-- `CAPTURE_STOP` (R141): ACE_CAP_CMD.STOP aborts a running or armed capture. -/
def execCaptureStop (t : Time) (s : State) : Host.Outcome State Fault Refusal :=
  .next (s.onHubAt t (fun s => captureStop s))

/-- `DFT_DONE` (R142): The DFT bins complete within 2 ms of a capture's DONE and set DFT_DONE. -/
def execDftDone (t : Time) (s : State) : Host.Outcome State Fault Refusal :=
  .next (s.onHubAt t (fun s => dftDone s))

end Sys2Proof.Machine
end

