-- ==== Sys2Proof/Machine/CmdFaultPath.lean ====
section
/-!
DEFINITION. Machine/CmdFaultPath.lean: the meanings of the commands of severities, latches and inner queues (spec/10).
-/

namespace Sys2Proof.Machine

/-- `SEVERITY_WRITE` (R321): A write of FLT_SEVs.SEV stores the severity, limited by the floor, for the next raise. -/
def execSeverityWrite (who : Requester) (src : Fin 544) (v : Word) (t : Time) (s : State) : Host.Outcome State Fault
    Refusal :=
  .next (s.onHubAt t (fun s => s.sevWrite who src v 0))

/-- `LATCH_CLEAR` (R331): A 1 written to a fault latch or cell bit clears it unless its cause persists. -/
def execLatchClear (who : Requester) (cell : Option Cell) (j : Fin 17) (v : Word) (t : Time) (s : State) : Host.Outcome
    State Fault Refusal :=
  .next (s.onHubAt t (fun s => hubWrite who (match cell with | some i => R.FLT_CELL i | none => R.FLT_LATCH j) v s))

/-- `T_FLT_CLR` (R333): A write to T_FLT_CLR with KEY 0x3C clears the Tread's latched local faults whose cause has
ended. -/
def execTFltClr (cell : Cell) (v : Word) (t : Time) (s : State) : Host.Outcome State Fault Refusal :=
  .next (s.onTreadAt cell t (fun d => (d.fltClr v.toNat).1))

/-- `IQ_READ` (R337): A read of FLT_IQ_RDLq removes the oldest item of an inner queue and latches its high word. -/
def execIqRead (q : Fin 48) (ecc : Nat) (t : Time) (s : State) : Host.Outcome State Fault Refusal :=
  .next (s.onHubAt t (fun s => iqRead q ecc s))

end Sys2Proof.Machine
end

