-- ==== Sys2Proof/Machine/CmdGallery.lean ====
section
/-!
DEFINITION. Machine/CmdGallery.lean: the meanings of the commands of the gallery (spec/05).
-/

namespace Sys2Proof.Machine

/-- `GALLERY_RANKING` (R157): Once the on-time trains and engine records are present, the gallery ranks the cells,
selects the set, places edges and hands carriage contents to the ring ports. -/
def execGalleryRanking (done : Nat) (stored : Bool) (s : State) : Host.Outcome State Fault Refusal :=
  .next (s.onHub (fun s => (galleryRanking done s).handOff stored))

/-- `BAND_ADAPT` (R158): At the end of every 1,024 deblocked cycles an adapting arm adjusts its band half-width from the
measured edge rate. -/
def execBandAdapt (a : Arm) (s : State) : Host.Outcome State Fault Refusal :=
  .next (s.onHub (fun s => bandAdapt a s))

/-- `ESTIMATOR_WINDOW` (R171): The capacitance estimator takes or rejects a window of two consecutive fresh uplinks and
updates its sums and confidence. -/
def execEstimatorWindow (cell : Cell) (s : State) : Host.Outcome State Fault Refusal :=
  .next (s.onHub (fun s => estimatorWindow cell s))

/-- `HEALTH_CHECK` (R172): Every 2^PER_SH cycles the gallery compares each arm's cell estimates with their median and
sets HEALTH flags. -/
def execHealthCheck (a : Arm) (s : State) : Host.Outcome State Fault Refusal :=
  .next (s.onHub (fun s => healthCheck a s))

/-- `GALLERY_WRITE` (R177): A write to gallery arm or cell control registers takes effect at the next cycle start, with
protected fields refused while deblocked. -/
def execGalleryWrite (off : Fin 0x20000) (v : Word) (t : Time) (s : State) : Host.Outcome State Fault Refusal :=
  .next (s.onHubAt t (fun s => galleryWrite (0x100000 + off) v s))

/-- `ESTIMATE_LOAD` (R178): A write to GAL_CELL_ESTA, ESTB or ESTE loads a binary64 sum and sets NACC to 64, or is
refused while the cell is in service. -/
def execEstimateLoad (cell : Cell) (which : Fin 3) (v : Word) (t : Time) (s : State) : Host.Outcome State Fault Refusal
    :=
  .next (s.onHubAt t (fun s => estimateLoad cell which v s))

end Sys2Proof.Machine
end

