-- ==== Sys2Proof/Machine/CmdHallTime.lean ====
section
/-!
DEFINITION. Machine/CmdHallTime.lean: the meanings of the commands of hall time and the clock generator (spec/07).
-/

namespace Sys2Proof.Machine

/-- `OFFSET_COMMIT` (R231): A write of HT_OFFS_S commits an offset, and the servo updates its rates, steps or holds. -/
def execOffsetCommit (t : Time) (secs : Word) (s : State) : Host.Outcome State Fault Refusal :=
  .next (s.onHubAt t (fun s => offsetCommit t secs s))

/-- `PPS_IN_EDGE` (R247): A rising edge of PPS_IN is time-stamped and, with SRC = 2, delivers an offset to the servo. -/
def execPpsInEdge (t : Time) (s : State) : Host.Outcome State Fault Refusal :=
  .next (s.onHubAt t (fun s => ppsInEdge t s))

/-- `SOURCE_LOSS` (R232): The time source is lost and the hub enters holdover. -/
def execSourceLoss (t : Time) (s : State) : Host.Outcome State Fault Refusal :=
  .next (s.onHubAt t (fun s => sourceLoss s))

/-- `STEP` (R234): HT_CMD.STEP makes a pending hall-time step while every arm of the hall is blocked. -/
def execStep (t : Time) (s : State) : Host.Outcome State Fault Refusal :=
  .next (s.onHubAt t (fun s => htStep s))

/-- `HALL_STEP` (R235): At the named cycle start every hub steps hall time by −θ, records it and realigns its channels.
-/
def execHallStep (s : State) : Host.Outcome State Fault Refusal :=
  .next (s.onHub (fun s => hallStep s))

/-- `TIME_READ` (R229): A read of HT_TIME_FR latches the whole present hall time for the other time words. -/
def execTimeRead (t : Time) (s : State) : Host.Outcome State Fault Refusal :=
  .next (s.onHubAt t (fun s => timeRead t s))

/-- `RTT_BROADCAST` (R238): Every 256 cycles the emitting port sends R̄ to its Treads by a BWR cart in a free position.
-/
def execRttBroadcast (q : Ring) (s : State) : Host.Outcome State Fault Refusal :=
  .next (s.onHub (fun s => rttBroadcast q s))

/-- `TXQ_READ` (R246): A read of HT_ETHn_TXQ_ID removes the oldest transmit time-stamp and latches its time. -/
def execTxqRead (n : Fin 2) (t : Time) (s : State) : Host.Outcome State Fault Refusal :=
  .next (s.onHubAt t (fun s => txqRead n s))

/-- `PPS_OUT_PULSE` (R248): PPS_OUT rises ODLY before each whole second of hall time for WIDTH ms. -/
def execPpsOutPulse (s : State) : Host.Outcome State Fault Refusal :=
  .next (s.onHub (fun s => ppsOutPulse s))

/-- `PLL_LOCK` (R250): A PLL declares lock after CNT reference cycles inside WIN. -/
def execPllLock (p : Fin 3) (n : Nat) (err : Time) (t : Time) (s : State) : Host.Outcome State Fault Refusal :=
  .next (s.onChip (fun s => startPllLock p n err t s))

/-- `PLL_LOCK_LOSS` (R250): A PLL loses lock, sets its error bit and raises its lock fault source, moving core domains
to the safe clock. -/
def execPllLockLoss (p : Fin 3) (n : Nat) (err : Time) (t : Time) (s : State) : Host.Outcome State Fault Refusal :=
  .next (s.onHubAt t (fun s => pllLockLoss p n err s))

/-- `APPLY` (R252): CLK_CMD.APPLY moves the core PLL domains to the safe clock and takes the new multiplier and
dividers, or is refused. -/
def execApply (t : Time) (s : State) : Host.Outcome State Fault Refusal :=
  .next (s.onHubAt t (fun s => clkApply s))

/-- `APPLY_COMPLETE` (R252): The core PLL relocks and the trees switch to the new outputs. -/
def execApplyComplete (t : Time) (s : State) : Host.Outcome State Fault Refusal :=
  .next (s.onHubAt t (fun s => applyComplete s))

/-- `APPLY_TIMEOUT` (R252): No lock within 1 ms of APPLY sets TIMEOUT and raises the core PLL lock source. -/
def execApplyTimeout (t : Time) (s : State) : Host.Outcome State Fault Refusal :=
  .next (s.onHubAt t (fun s => applyTimeout s))

/-- `REF_LOSS` (R253): REF25_IN is lost and the DPLL moves to its fallback reference or holds frequency. -/
def execRefLoss (t : Time) (s : State) : Host.Outcome State Fault Refusal :=
  .next (s.onChip (fun s => refGone t s))

/-- `SYNC_ARM` (R254): CLK_CMD.SYNC_ARM arms the CLK_SYNC input while every arm is blocked. -/
def execSyncArm (t : Time) (s : State) : Host.Outcome State Fault Refusal :=
  .next (s.onHubAt t (fun s => syncArm s))

/-- `CLK_SYNC_EDGE` (R254): The first CLK_SYNC edge after arming restarts the DPLL output dividers and records its hall
time. -/
def execClkSyncEdge (t : Time) (s : State) : Host.Outcome State Fault Refusal :=
  .next (s.onHubAt t (fun s => clkSyncEdge t s))

end Sys2Proof.Machine
end

