-- ==== Sys2Proof/Machine/CmdHost.lean ====
section
/-!
DEFINITION. Machine/CmdHost.lean: the meanings of the commands of the host interface (spec/13).
-/

namespace Sys2Proof.Machine

/-- `HOST_RESET` (R403): A function-level, hot or link reset resets the host island and both CAN controllers only. -/
def execHostReset (lost : Bool) (t : Time) (s : State) : Host.Outcome State Fault Refusal :=
  .next (s.onHubAt t (fun s => hostReset lost t s))

/-- `BAR2_WRITE` (R402): A BAR2 write reaches core memory only while BAR2_WE is 1. -/
def execBar2Write (off : Nat) (bytes : List Byte) (t : Time) (s : State) : Host.Outcome State Fault Refusal :=
  .next (s.onHubMem (fun s => bar2Write off bytes (s.advance t)))

/-- `BAD_ACC` (R404): A misaligned BAR0 write is discarded and sets BAD_ACC. -/
def execBadAcc (write : Bool) (off : Nat) (n : Nat) (t : Time) (s : State) : Host.Outcome State Fault Refusal :=
  .next (s.onHubAt t (fun s => badAccess write off n s))

/-- `DOORBELL` (R408): A write of HQ_DBn hands entries to the hub or returns device-written entries. -/
def execDoorbell (n : HRing) (idx : Nat) (t : Time) (s : State) : Host.Outcome State Fault Refusal :=
  .next (s.onHubAt t (fun s => doorbell n idx t s))

/-- `RING_CONFIG_WRITE` (R424): A write to a ring's configuration enables or disables it, or is refused for an enabled
ring's layout fields. -/
def execRingConfigWrite (n : HRing) (which : Fin 8) (v : Word) (t : Time) (s : State) : Host.Outcome State Fault Refusal
    :=
  .next (s.onHubAt t (fun s => ringConfigWrite n which v s))

/-- `READ_FAIL` (R411): A descriptor or buffer read returns an error and the ring stops. -/
def execReadFail (n : HRing) (t : Time) (s : State) : Host.Outcome State Fault Refusal :=
  .next (s.onHubAt t (fun s => readFail n t s))

/-- `NOP` (R412): NOP completes with no action. -/
def execNop (n : HRing) (opc : Nat) (cid : Nat) (t : Time) (s : State) : Host.Outcome State Fault Refusal :=
  .next (s.onHubAt t (fun s => hostNop n opc cid t s))

/-- `REG_WR` (R415): REG_WR performs a masked register write and returns the previous value. -/
def execRegWr (n : HRing) (cid : Nat) (off : Nat) (v : Word) (mask : Word) (t : Time) (s : State) : Host.Outcome State
    Fault Refusal :=
  .next (s.onHubAt t (fun s => hostRegWr n cid off v mask t s))

/-- `REG_RD` (R415): REG_RD reads a register with its side effects. -/
def execRegRd (n : HRing) (cid : Nat) (off : Nat) (t : Time) (s : State) : Host.Outcome State Fault Refusal :=
  .next (s.onHubAt t (fun s => hostRegRd n cid off t s))

/-- `MBX_COMMIT` (R416): MBX_COMMIT stages four words in the host area and commits them to a mailbox. -/
def execMbxCommit (n : HRing) (cid : Nat) (m : Nat) (words : List Word) (t : Time) (s : State) : Host.Outcome State
    Fault Refusal :=
  .next (s.onHubAt t (fun s => hostMbxCommit n cid m words t s))

/-- `ARM_DEBLOCK` (R418): ARM_DEBLOCK deblocks every arm of its mask at the next qualifying cycle start, or refuses all
with their causes. -/
def execArmDeblock (n : HRing) (cid : Nat) (mask : Nat) (t : Time) (s : State) : Host.Outcome State Fault Refusal :=
  .next (s.onHubAt t (fun s => hostDeblock n cid mask t s))

/-- `ARM_BLOCK` (R419): ARM_BLOCK sets BLOCK = 1 in every frame of the arms in its mask. -/
def execArmBlock (n : HRing) (cid : Nat) (mask : Nat) (t : Time) (s : State) : Host.Outcome State Fault Refusal :=
  .next (s.onHubAt t (fun s => hostBlock n cid mask t s))

/-- `RING_COMMIT` (R420): RING_COMMIT sets COMMIT = 1 in a named or next frame of the masked rings. -/
def execRingCommit (n : HRing) (cid : Nat) (mask : Nat) (k : Nat) (next : Bool) (t : Time) (s : State) : Host.Outcome
    State Fault Refusal :=
  .next (s.onHubAt t (fun s => hostRingCommit n cid mask k next t s))

/-- `CAR_DUTY` (R420): CAR_DUTY makes a carrier-mode cell's carriages carry a new duty. -/
def execCarDuty (n : HRing) (cid : Nat) (cell : Nat) (duty : Nat) (on : Nat) (t : Time) (s : State) : Host.Outcome State
    Fault Refusal :=
  .next (s.onHubAt t (fun s => hostCarDuty n cid cell duty on t s))

/-- `WAIT_CYCLE` (R412): WAIT_CYCLE stalls its command ring until the named cycle starts. -/
def execWaitCycle (n : HRing) (cid : Nat) (k : Nat) (t : Time) (s : State) : Host.Outcome State Fault Refusal :=
  .next (s.onHubAt t (fun s => hostWaitCycle n cid k t s))

/-- `ETH_TX` (R422): ETH_TX sends an Ethernet frame, optionally time-stamped. -/
def execEthTx (n : HRing) (cid : Nat) (port : Nat) (ts : Bool) (tsid : Nat) (frame : List Byte) (t : Time) (s : State) :
    Host.Outcome State Fault Refusal :=
  .next (s.onHubAt t (fun s => hostEthTx n cid port ts tsid frame t s))

/-- `ETH_TX_COMPLETE` (R422): An Ethernet transmission ends and its completion is written. -/
def execEthTxComplete (n : HRing) (age : Nat) (t : Time) (s : State) : Host.Outcome State Fault Refusal :=
  .next (s.onHubAt t (fun s => ethTxComplete n age t s))

/-- `ETH_RXBUF` (R422): ETH_RXBUF posts a receive buffer for a port. -/
def execEthRxbuf (n : HRing) (cid : Nat) (port : Nat) (addr : Nat) (len : Nat) (t : Time) (s : State) : Host.Outcome
    State Fault Refusal :=
  .next (s.onHubAt t (fun s => hostEthRxbuf n cid port addr len t s))

/-- `ETH_RECEIVE` (R422): A MAC receives a frame, filters it, fills a posted buffer and writes an event. -/
def execEthReceive (port : Fin 2) (bytes : List Byte) (fcsOk : Bool) (age : Nat) (t : Time) (s : State) : Host.Outcome
    State Fault Refusal :=
  .next (s.onHubAt t (fun s => ethReceive port bytes fcsOk age t s))

/-- `CART` (R414): A cart descriptor queues a cart at a ring port and completes with its reply. -/
def execCart (who : Requester) (n : HRing) (cid : Nat) (r : Ring) (op : Nat) (pos : Nat) (arg : Nat) (data : Nat) (raddr
    : Nat) (t : Time) (s : State) : Host.Outcome State Fault Refusal :=
  .next (s.onHubAt t (fun s => cartCommand who n cid r op pos arg data raddr t s))

/-- `MODERATION_TIMER` (R423): MOD_TMR µs after the first unsignalled entry the ring sends its MSI-X vector. -/
def execModerationTimer (n : HRing) (t : Time) (s : State) : Host.Outcome State Fault Refusal :=
  .next (s.onHubAt t (fun s => moderationTimer n t s))

/-- `PCIE_LINK_UP` (R423): The PCI Express data link layer becomes active, which sets HQ_STAT.LINK_UP, ends source 0x0E0
and sends the error vector when it is enabled. -/
def execPcieLinkUp (speed : Nat) (width : Nat) (t : Time) (s : State) : Host.Outcome State Fault Refusal :=
  .next (s.onHubAt t (fun s => pcieLinkUp speed width t s))

/-- `BUS_MASTER_ENABLE_WRITE` (R411): A configuration write changes Bus Master Enable, and clearing it stalls every ring
and sets HQ_ERR.BME_OFF. -/
def execBusMasterEnableWrite (bme : Bool) (msix : Bool) (t : Time) (s : State) : Host.Outcome State Fault Refusal :=
  .next (s.onHubAt t (fun s => busMasterWrite bme msix s))

end Sys2Proof.Machine
end

