-- ==== Sys2Proof/Machine/CmdMeasurement.lean ====
section
/-!
DEFINITION. Machine/CmdMeasurement.lean: the meanings of the commands of measurement inputs (spec/03).
-/

namespace Sys2Proof.Machine

/-- `PRESET_OUTPUT` (R93): A preset of a measurement channel completes an output at its output instant, with code, flags
and sequence count. -/
def execPresetOutput (c : Chan) (p : Fin 4) (rise : Nat) (fall : Nat) (per : Time) (t : Time) (s : State) : Host.Outcome
    State Fault Refusal :=
  .next (s.onHub (fun s => presetOutput c p rise fall per t s))

/-- `MI_CLOCK_FAULT` (R84): An external modulator clock goes out of range or has no edge for 400 ns, raising clock-loss
and freezing the channel's outputs. -/
def execMiClockFault (c : Chan) (period : Option Time) (t : Time) (s : State) : Host.Outcome State Fault Refusal :=
  .next (s.onHubAt t (fun s => miClockFault c period s))

/-- `MI_CLOCK_RECOVERY` (R84): After 64 consecutive periods in range the channel's clock fault flag clears. -/
def execMiClockRecovery (c : Chan) (period : Time) (t : Time) (s : State) : Host.Outcome State Fault Refusal :=
  .next (s.onHubAt t (fun s => miClockRecovery c period s))

/-- `MODULATOR_STUCK` (R97): MI_DATc holds one value for 64 modulator periods, setting OVR and the sticky bit and
raising the modulator-stuck source. -/
def execModulatorStuck (c : Chan) (t : Time) (s : State) : Host.Outcome State Fault Refusal :=
  .next (s.onHubAt t (fun s => modulatorStuck c s))

/-- `MODULATOR_STUCK_END` (R97): The first bit of the other value clears MI_STATc.OVR. -/
def execModulatorStuckEnd (c : Chan) (t : Time) (s : State) : Host.Outcome State Fault Refusal :=
  .next (s.onHubAt t (fun s => modulatorStuckEnd c s))

/-- `MI_CONFIG_WRITE` (R103): A write to MI_CTRL.MCLK_DIV or MI_CFGc is ignored with a measurement-write fault while
deblocked or out of range, and otherwise realigns the channels. -/
def execMiConfigWrite (who : Requester) (c : Option Chan) (v : Word) (t : Time) (s : State) : Host.Outcome State Fault
    Refusal :=
  .next (s.onHubAt t (fun s => hubWrite who (match c with | some c => R.MI_CFG c | none => R.MI_CTRL) v s))

/-- `SCALE_APPLY` (R91): A write of MI_CMD.SCALE_APPLY requests that all gain and offset shadows take effect at the next
cycle start. -/
def execScaleApply (t : Time) (s : State) : Host.Outcome State Fault Refusal :=
  .next (s.onHubAt t (fun s => scaleApply s))

/-- `REALIGN` (R94): A write of MI_CMD.REALIGN realigns all hub-clock channels, or is ignored with a fault while an arm
is deblocked. -/
def execRealign (t : Time) (s : State) : Host.Outcome State Fault Refusal :=
  .next (s.onHubAt t (fun s => realign s))

end Sys2Proof.Machine
end

