-- ==== Sys2Proof/Machine/CmdPower.lean ====
section
/-!
DEFINITION. Machine/CmdPower.lean: the meanings of the commands of reset, supplies and island clocks (spec/17).
-/

namespace Sys2Proof.Machine

/-- `POWER_ON_RESET` (R474): The power-on reset releases the chip 2 ms after every rail monitor is good. -/
def execPowerOnReset (t : Time) (x : StartIn) (s : State) : Host.Outcome State Fault Refusal :=
  .next (s.onChip (fun s => powerOnReset t x s))

/-- `RESET_PIN` (R480): RESET_N held low for 1 µs resets the chip. -/
def execResetPin (since : Time) (t : Time) (s : State) : Host.Outcome State Fault Refusal :=
  .next (s.onChip (fun s => resetPin since t s))

/-- `CHIP` (R482): CLK_RST_CMD.CHIP with KEY 0x9D starts a chip reset 1 µs later while every arm is blocked. -/
def execChip (bit : Bool) (key : Byte) (w : Time) (t : Time) (x : StartIn) (s : State) : Host.Outcome State Fault
    Refusal :=
  .next (s.onChip (fun s => chip bit key.toNat w t x s))

/-- `THERMAL_SHUTDOWN` (R483): Die temperature above 135 °C for 1 ms holds the chip in reset until below 110 °C. -/
def execThermalShutdown (since : Time) (t : Time) (s : State) : Host.Outcome State Fault Refusal :=
  .next (s.onChip (fun s => thermalShutdown since t s))

/-- `PFAIL` (R500): PFAIL_N falls, discarding queued and waiting PW writes that have not started. -/
def execPfail (t : Time) (s : State) : Host.Outcome State Fault Refusal :=
  .next (s.onChip (fun s => (pfail t s).readsReturn))

/-- `AVS_PERIOD` (R477): Every PER × 100 µs the AVS loop reads the slack monitors and steps the core voltage. -/
def execAvsPeriod (ack : Bool) (mons : List Nat) (vmeas : Nat) (t : Time) (s : State) : Host.Outcome State Fault Refusal
    :=
  .next (s.onHubAt t (fun s => avsPeriod ack mons vmeas t s))

/-- `ISLAND_CLOCK_RETURN` (R29): A monitored island clock returns to its permitted band, and that island's clock fault
source is no longer live. -/
def execIslandClockReturn (n : Fin 39) (t : Time) (s : State) : Host.Outcome State Fault Refusal :=
  .next (s.onChip (fun s => islandClockReturn n t s))

/-- `RAIL_OUT_OF_RANGE` (R521): A Stairhead rail monitor leaves or re-enters its operating range, changing
CLK_RAIL_STAT.GOOD and source 0x0B5, acting as PFAIL_N low for the PRB, and holding the chip in reset below the reset
threshold. -/
def execRailOutOfRange (rail : Fin 8) (lv : RailLevel) (t : Time) (s : State) : Host.Outcome State Fault Refusal :=
  .next (s.onChip (fun s => (railOutOfRange rail lv t s).readsReturn))

/-- `CORE_VOLTAGE_OUT_OF_RANGE` (R478): The on-die sensor measures VDD_CORE outside 630 to 870 mV for 10 µs, and source
0x0B4 becomes live. -/
def execCoreVoltageOutOfRange (mv : Nat) (since : Time) (t : Time) (s : State) : Host.Outcome State Fault Refusal :=
  .next (s.onChip (fun s => coreVoltageOutOfRange mv since t s))

/-- `DIE_TEMPERATURE_HIGH` (R504): The die temperature rises above or falls to CLK_TEMP.HI, and source 0x0B6 is live or
ends. -/
def execDieTemperatureHigh (c : Int) (t : Time) (s : State) : Host.Outcome State Fault Refusal :=
  .next (s.onHubAt t (fun s => dieTemperature c t s))

/-- `THERMAL_SHUTDOWN_END` (R483): The die temperature falls below 110 °C and the chip leaves its thermal reset and
starts up. -/
def execThermalShutdownEnd (c : Int) (t : Time) (x : StartIn) (s : State) : Host.Outcome State Fault Refusal :=
  .next (s.onChip (fun s => thermalShutdownEnd c t x s))

/-- `RESET_N_RELEASE` (R474): RESET_N rises and the chip leaves reset, starting the sequence of Table 4. -/
def execResetNRelease (t : Time) (x : StartIn) (s : State) : Host.Outcome State Fault Refusal :=
  .next (s.onChip (fun s => resetNRelease t x s))

/-- `PFAIL_N_RISE` (R500): PFAIL_N rises again without a reset, and PW writes presented afterwards commit normally while
PRB_STAT.PFAIL stays set. -/
def execPfailNRise (t : Time) (s : State) : Host.Outcome State Fault Refusal :=
  .next (s.onChip (fun s => pfailNRise t s))

/-- `JTAG_INSTRUCTION` (R495): A JTAG instruction is loaded, which is accepted only within the open debug scope and, for
a ball-driving instruction, only while all arms are blocked; leaving a ball-driving instruction starts a chip reset. -/
def execJtagInstruction (op : JtagOp) (t : Time) (x : StartIn) (s : State) : Host.Outcome State Fault Refusal :=
  .next (s.onChip (fun s => jtagInstruction op t x s))

end Sys2Proof.Machine
end

