-- ==== Sys2Proof/Machine/CmdRecorder.lean ====
section
/-!
DEFINITION. Machine/CmdRecorder.lean: the meanings of the commands of the fault recorder (spec/15).
-/

namespace Sys2Proof.Machine

/-- `TRIG_IN_EDGE` (R447): A filtered TRIG_IN edge fires its recorder trigger and may drive a bus line. -/
def execTrigInEdge (n : Fin 4) (level : Bool) (h : Time) (s : State) : Host.Outcome State Fault Refusal :=
  .next (s.onHub (fun s => trigInEdge n level h s))

/-- `TRIG` (R447): REC_CMD.TRIG fires a software trigger. -/
def execTrig (t : Time) (s : State) : Host.Outcome State Fault Refusal :=
  .next (s.onHubAt t (fun s => recTrig s))

/-- `REC_STOP` (R450): REC_CMD.STOP frees the armed segment. -/
def execRecStop (t : Time) (s : State) : Host.Outcome State Fault Refusal :=
  .next (s.onHubAt t (fun s => recStop s))

/-- `REC_FREE` (R450): REC_CMD.FREE frees a named FULL segment. -/
def execRecFree (j : Fin 4096) (t : Time) (s : State) : Host.Outcome State Fault Refusal :=
  .next (s.onHubAt t (fun s => recFree j s))

/-- `REC_ENABLE` (R445): A write of REC_CTRL.EN enables the recorder or is refused for a bad region or segment size. -/
def execRecEnable (v : Word) (t : Time) (s : State) : Host.Outcome State Fault Refusal :=
  .next (s.onHubAt t (fun s => recEnable v s))

/-- `SEGMENT_FULL` (R450): The POST slices complete, the segment enters FULL and the next segment is armed. -/
def execSegmentFull (t : Time) (s : State) : Host.Outcome State Fault Refusal :=
  .next (s.onHubAt t (fun s => segmentFull s))

/-- `SEGMENT_COPY_DONE` (R453): A FULL segment is copied to the host area and its ring entry written. -/
def execSegmentCopyDone (t : Time) (s : State) : Host.Outcome State Fault Refusal :=
  .next (s.onHubAt t (fun s => segmentCopyDone s))

end Sys2Proof.Machine
end

