-- ==== Sys2Proof/Machine/CmdRing.lean ====
section
/-!
DEFINITION. Machine/CmdRing.lean: the meanings of the commands of the Chiskaha rings, their carts and lanes (spec/06).
-/

namespace Sys2Proof.Machine

/-- `BLOCK_LOCK` (R182): A receiver gains block lock after 64 consecutive valid blocks. -/
def execBlockLock (l : Lane) (t : Time) (s : State) : Host.Outcome State Fault Refusal :=
  .next (s.onLane l t blockLock)

/-- `LOSS_OF_LOCK` (R182): A receiver loses lock when 16 of 64 blocks are invalid, driving LINK_FAULT and role or state
changes. -/
def execLossOfLock (l : Lane) (t : Time) (s : State) : Host.Outcome State Fault Refusal :=
  .next (s.onLane l t lossOfLock)

/-- `LOSS_OF_SIGNAL` (R182): The received amplitude stays below threshold for 100 ns and the receiver declares loss of
signal. -/
def execLossOfSignal (l : Lane) (t : Time) (s : State) : Host.Outcome State Fault Refusal :=
  .next (s.onLane l t lossOfSignal)

/-- `SIGNAL_RETURN` (R182): After 1 µs above threshold the receiver clears loss of signal. -/
def execSignalReturn (l : Lane) (t : Time) (s : State) : Host.Outcome State Fault Refusal :=
  .next (s.onLane l t signalReturn)

/-- `OUTBOUND_FRAME` (R200): A Tread repeats an outbound frame, accepts its header, reads its carriage and carts, and
turns it when it holds the loop-back role. -/
def execOutboundFrame (cell : Cell) (far : Bool) (f : Frame) (ta : Time) (tc : Time) (s : State) : Host.Outcome State
    Fault Refusal :=
  .next (s.onTread cell (fun d => d.outbound far f ta tc))

/-- `INBOUND_FRAME` (R196): On the inbound pass a Tread writes its uplink carriage and its cart replies into the frame.
-/
def execInboundFrame (cell : Cell) (f : Frame) (tb : Time) (s : State) : Host.Outcome State Fault Refusal :=
  .next (s.onTread cell (fun d => d.inbound f tb))

/-- `RD` (R205): A RD cart reads one or two words of the target Tread's register space. -/
def execRd (cell : Cell) (c : Fin 8) (tag : Fin 64) (pos : Pos) (word : Fin 1024) (two : Bool) (s : State) :
    Host.Outcome State Fault Refusal :=
  .next (s.onTread cell (fun d => d.cartNow c (reqCart opRd tag pos (waddr word two) 0)))

/-- `WR` (R205): A WR cart writes one or two words of the target Tread's register space and replies with RSTAT. -/
def execWr (cell : Cell) (c : Fin 8) (tag : Fin 64) (pos : Pos) (word : Fin 1024) (two : Bool) (data : Dword) (s :
    State) : Host.Outcome State Fault Refusal :=
  .next (s.onTread cell (fun d => d.cartNow c (reqCart opWr tag pos (waddr word two) data.toNat)))

/-- `BWR` (R205): A BWR cart writes a word in every admitted Tread and collects a mask reply. -/
def execBwr (cell : Cell) (c : Fin 8) (tag : Fin 64) (word : Fin 1024) (two : Bool) (data : Dword) (s : State) :
    Host.Outcome State Fault Refusal :=
  .next (s.onTread cell (fun d => d.cartNow c (reqCart opBwr tag 0 (waddr word two) data.toNat)))

/-- `FWBLK` (R300): A FWBLK cart writes 8 image bytes into the inactive slot of every update-enabled Tread. -/
def execFwblk (cell : Cell) (c : Fin 8) (tag : Fin 64) (blk : BitVec 16) (data : Dword) (s : State) : Host.Outcome State
    Fault Refusal :=
  .next (s.onTread cell (fun d => d.cartNow c (reqCart opFwblk tag 0 blk.toNat data.toNat)))

/-- `CART_ADMIT` (R215): An ADMIT cart admits the newcomer at its position when its unique identity matches. -/
def execCartAdmit (cell : Cell) (c : Fin 8) (tag : Fin 64) (pos : Pos) (uid : Dword) (s : State) : Host.Outcome State
    Fault Refusal :=
  .next (s.onTread cell (fun d => d.cartNow c (reqCart opAdmit tag pos 0 uid.toNat)))

/-- `LINK_TAKE` (R201): A LINK cart with ARG[0] = 1 makes the target Tread take a commanded loop-back role. -/
def execLinkTake (cell : Cell) (c : Fin 8) (tag : Fin 64) (pos : Pos) (s : State) : Host.Outcome State Fault Refusal :=
  .next (s.onTread cell (fun d => d.cartNow c (reqCart opLink tag pos 1 0)))

/-- `LINK_RELEASE` (R201): A LINK cart with ARG[0] = 0 releases a commanded loop-back role. -/
def execLinkRelease (cell : Cell) (c : Fin 8) (tag : Fin 64) (pos : Pos) (s : State) : Host.Outcome State Fault Refusal
    :=
  .next (s.onTread cell (fun d => d.cartNow c (reqCart opLink tag pos 0 0)))

/-- `RATE_QUERY` (R217): A RATE query cart asks every admitted Tread whether it is ready for the target rate. -/
def execRateQuery (cell : Cell) (c : Fin 8) (tag : Fin 64) (low : Bool) (s : State) : Host.Outcome State Fault Refusal
    :=
  .next (s.onTread cell (fun d => d.cartNow c (reqCart opRate tag 0 (b2n low) 0)))

/-- `RATE_GO` (R217): A RATE go cart names the cycle at which every admitted Tread switches rate. -/
def execRateGo (cell : Cell) (c : Fin 8) (tag : Fin 64) (low : Bool) (cyc : Word) (s : State) : Host.Outcome State Fault
    Refusal :=
  .next (s.onTread cell (fun d => d.cartNow c (reqCart opRate tag 0 (b2n low + 2) cyc.toNat)))

/-- `IDENT` (R205): An IDENT cart returns a 64-bit quarter of the target's ENUM answers. -/
def execIdent (cell : Cell) (c : Fin 8) (tag : Fin 64) (pos : Pos) (quarter : Fin 4) (s : State) : Host.Outcome State
    Fault Refusal :=
  .next (s.onTread cell (fun d => d.cartNow c (reqCart opIdent tag pos quarter 0)))

/-- `RP_CONFIG_WRITE` (R225): A write to RP_CFG that changes EN or LOWRATE is refused while the arm is deblocked, and
otherwise drives the port state machine. -/
def execRpConfigWrite (q : Ring) (v : Word) (t : Time) (s : State) : Host.Outcome State Fault Refusal :=
  .next (s.onHubAt t (fun s => rpConfigWrite q v s))

/-- `ENUM` (R212): RP_CMD.ENUM starts enumeration of the ring while its arm is blocked, or is ignored with a ring-write
fault. -/
def execEnum (q : Ring) (t : Time) (s : State) : Host.Outcome State Fault Refusal :=
  .next (s.onHubAt t (fun s => rpEnum q s))

/-- `ENUM_UNSTABLE` (R212): Enumeration not stable after 64 frames raises the ring-enumeration fault source. -/
def execEnumUnstable (r : Ring) (t : Time) (s : State) : Host.Outcome State Fault Refusal :=
  .next (s.onHubAt t (fun s => enumUnstable r s))

/-- `REJOIN` (R223): RP_CMD.REJOIN ends a split while the arm is blocked and re-enumerates the ring. -/
def execRejoin (q : Ring) (t : Time) (s : State) : Host.Outcome State Fault Refusal :=
  .next (s.onHubAt t (fun s => rejoin q s))

/-- `RATE` (R217): RP_CMD.RATE starts a ring rate change to the rate in RP_CFG.LOWRATE. -/
def execRate (q : Ring) (t : Time) (s : State) : Host.Outcome State Fault Refusal :=
  .next (s.onHubAt t (fun s => rate q s))

/-- `RATE_SWITCH` (R217): At the named cycle start the port and Treads switch lane rate and the port returns through
LINK to RUN. -/
def execRateSwitch (l : Lane) (t : Time) (s : State) : Host.Outcome State Fault Refusal :=
  .next (s.onLane l t rateSwitchAt)

/-- `RP_ADMIT` (R215): A write of RP_ADMIT sends an ADMIT cart to each named newcomer. -/
def execRpAdmit (q : Ring) (mask : Word) (t : Time) (s : State) : Host.Outcome State Fault Refusal :=
  .next (s.onHubAt t (fun s => rpAdmit q mask s))

/-- `FAR_END_MISSING` (R218): No far-end copy of frame k has arrived by t_k + LATEST + 200 ns and the copy is declared
missing. -/
def execFarEndMissing (q : Ring) (k : Word) (s : State) : Host.Outcome State Fault Refusal :=
  .next (s.onHub (fun s => farEndMissing q k.toNat s))

/-- `RING_SPLIT` (R219): At the first cycle start 200 ns after a split trigger both ports serve the ring and the
redundant-path-lost source is raised. -/
def execRingSplit (r : Ring) (t : Time) (s : State) : Host.Outcome State Fault Refusal :=
  .next (s.onHubAt t (fun s => ringSplit r t s))

/-- `LINK_FAULT_RECEIVED` (R541): A receive lane that keeps block lock receives its fourth consecutive LINK_FAULT block
and becomes link-down, taking a Tread into the loop-back role or a ring port into LINK with a split trigger. -/
def execLinkFaultReceived (l : Lane) (t : Time) (s : State) : Host.Outcome State Fault Refusal :=
  .next (s.onLane l t (linkFault true))

/-- `LINK_FAULT_CLEARED` (R541): A link-down lane that kept block lock receives blocks other than LINK_FAULT again and
is no longer link-down, letting a ring port leave LINK. -/
def execLinkFaultCleared (l : Lane) (t : Time) (s : State) : Host.Outcome State Fault Refusal :=
  .next (s.onLane l t (linkFault false))

/-- `FAREND_RECEIVED` (R201): A Tread's downstream receive lane starts carrying FAREND blocks, and the Tread takes the
loop-back role with CAUSE 0b00 and sends far-end copies. -/
def execFarendReceived (l : Lane) (t : Time) (s : State) : Host.Outcome State Fault Refusal :=
  .next (s.onLane l t (farEnd true))

/-- `FAREND_STOPS` (R201): FAREND stops arriving on a Tread's downstream lane and its FAREND loop-back role ends. -/
def execFarendStops (l : Lane) (t : Time) (s : State) : Host.Outcome State Fault Refusal :=
  .next (s.onLane l t (farEnd false))

/-- `FAR_END_COPY_ARRIVAL` (R218): A far-end copy of a frame arrives at a port in FAR, which records its arrival for
LATEST and counts it as far-end evidence of its cycle. -/
def execFarEndCopyArrival (q : Ring) (f : Frame) (t : Time) (s : State) : Host.Outcome State Fault Refusal :=
  .next (s.onHubAt t (fun s => farEndCopyArrival q f t s))

end Sys2Proof.Machine
end

