-- ==== Sys2Proof/Machine/CmdSafety.lean ====
section
/-!
DEFINITION. Machine/CmdSafety.lean: the meanings of the commands of the safety island (spec/11).
-/

namespace Sys2Proof.Machine

/-- `PERMIT_TOKEN` (R342): Every 100 ns without override the safety island writes a permit token to every ring-port
island. -/
def execPermitToken (t : Time) (s : State) : Host.Outcome State Fault Refusal :=
  .next (s.onSafety (fun s => permitToken t s))

/-- `TOKEN_TIMEOUT` (R342): The last permit token becomes older than 400 ns and the ring port sets BLOCK = 1 and LAND =
0. -/
def execTokenTimeout (t : Time) (s : State) : Host.Outcome State Fault Refusal :=
  .next (s.onSafety (fun s => tokenTimeout t s))

/-- `SELFTEST_DONE` (R345): The start tests finish and the island enters SAFE or HALT. -/
def execSelftestDone (pass : Bool) (t : Time) (s : State) : Host.Outcome State Fault Refusal :=
  .next (s.onSafetyAt t (fun s => selftestDone pass s))

/-- `SAFETY_INTERNAL_FAULT` (R345): An internal fault puts the island into HALT with outputs low and raises 0x075. -/
def execSafetyInternalFault (t : Time) (s : State) : Host.Outcome State Fault Refusal :=
  .next (s.onSafetyAt t (fun s => safetyInternalFault s))

/-- `SAF_RESET` (R345): SAF_RESET_N or the safety rail holds the island in reset and returns it to SELFTEST. -/
def execSafReset (held : Bool) (rail : Bool) (a : Fin 256) (b : Fin 256) (t : Time) (s : State) : Host.Outcome State
    Fault Refusal :=
  .next (s.onSafetyAt t (fun s => safReset held rail a b s))

/-- `SAFETY_TRIP` (R345): A trip cause moves the island from PERMIT to SAFE with outputs low within 1 µs. -/
def execSafetyTrip (t : Time) (s : State) : Host.Outcome State Fault Refusal :=
  .next (s.onSafetyAt t (fun s => safetyTrip s))

/-- `SBO_REL` (R346): SAF_CMD.SBO_REL with KEY 0x6B releases the safe block outputs into PERMIT, or is refused. -/
def execSboRel (key : Byte) (t : Time) (s : State) : Host.Outcome State Fault Refusal :=
  .next (s.onSafetyAt t (fun s => sboRel key.toNat s))

/-- `DCLR` (R351): SAF_CMD.DCLR clears the discrepancy latch of consistent pairs, or is refused. -/
def execDclr (mask : Byte) (t : Time) (s : State) : Host.Outcome State Fault Refusal :=
  .next (s.onSafetyAt t (fun s => dclr mask.toNat s))

/-- `TEST` (R348): SAF_CMD.TEST starts one extra pulse test of every enabled output. -/
def execTest (t : Time) (s : State) : Host.Outcome State Fault Refusal :=
  .next (s.onSafetyAt t (fun s => safTest s))

/-- `SBO_PULSE_TEST` (R348): Each TPER an enabled output is pulsed low for PW and its read-back checked. -/
def execSboPulseTest (n : Fin 4) (late : Time) (t : Time) (s : State) : Host.Outcome State Fault Refusal :=
  .next (s.onSafetyAt t (fun s => sboPulseTest n late s))

/-- `READBACK_FAILURE` (R348): A read-back that disagrees longer than RBW sets SBOF, raises 0x074 and is a trip cause.
-/
def execReadbackFailure (n : Fin 4) (rb : Bool) (since : Time) (t : Time) (s : State) : Host.Outcome State Fault Refusal
    :=
  .next (s.onSafetyAt t (fun s => readbackFailure n rb since s))

/-- `SAFETY_INPUT_CHANGE` (R349): A filtered safety input level changes, starting or ending a demand and the discrepancy
timer. -/
def execSafetyInputChange (p : Fin 8) (chB : Bool) (level : Bool) (since : Time) (t : Time) (s : State) : Host.Outcome
    State Fault Refusal :=
  .next (s.onSafety (fun s => safetyInputChange p chB level since t s))

/-- `DISCREPANCY_TIMEOUT` (R350): An inconsistency lasts DISC × 100 µs and the discrepancy latch sets and raises 0x078 +
p. -/
def execDiscrepancyTimeout (p : Fin 8) (t : Time) (s : State) : Host.Outcome State Fault Refusal :=
  .next (s.onSafety (fun s => discrepancyTimeout p t s))

/-- `BALUSTRADE_OUTPUT` (R353): A balustrade channel completes an output, and SLC limits are checked on it. -/
def execBalustradeOutput (c : Fin 8) (rise : Nat) (fall : Nat) (per : Time) (t : Time) (s : State) : Host.Outcome State
    Fault Refusal :=
  .next (s.onSafety (fun s => balustradeOutput c rise fall per t s))

/-- `BALUSTRADE_CLOCK_LOSS` (R354): A balustrade channel clock has no edge for 1 µs and the channel faults. -/
def execBalustradeClockLoss (c : Fin 8) (edge : Time) (t : Time) (s : State) : Host.Outcome State Fault Refusal :=
  .next (s.onSafetyAt t (fun s => balustradeClockLoss c edge s))

/-- `LOCK_KEY` (R364): Writes of SAF_LOCK.KEY with 0xC5 then 0x3A open the safety parameter lock, or raise a lock
violation. -/
def execLockKey (key : Byte) (t : Time) (s : State) : Host.Outcome State Fault Refusal :=
  .next (s.onSafety (fun s => lockKey key.toNat t s))

/-- `CLOSE` (R365): SAF_LOCK.CLOSE activates the shadow parameter set when its CRC matches, else discards it. -/
def execClose (t : Time) (s : State) : Host.Outcome State Fault Refusal :=
  .next (s.onSafetyAt t (fun s => lockClose s))

/-- `ABANDON` (R365): SAF_LOCK.ABANDON discards the shadow set and closes the lock. -/
def execAbandon (t : Time) (s : State) : Host.Outcome State Fault Refusal :=
  .next (s.onSafetyAt t (fun s => lockAbandon s))

/-- `LOCK_TIMEOUT` (R365): 10 minutes after opening the lock closes with ABANDON and sets LOCK_TO. -/
def execLockTimeout (t : Time) (s : State) : Host.Outcome State Fault Refusal :=
  .next (s.onSafety (fun s => lockTimeout t s))

/-- `SAFETY_DIAGNOSTIC` (R361): A periodic diagnostic of the safety island runs at its interval. -/
def execSafetyDiagnostic (d : SafDiag) (ok : Bool) (t : Time) (s : State) : Host.Outcome State Fault Refusal :=
  .next (s.onSafetyAt t (fun s => safetyDiagnostic d ok s))

end Sys2Proof.Machine
end

