-- ==== Sys2Proof/Machine/CmdService.lean ====
section
/-!
DEFINITION. Machine/CmdService.lean: the meanings of the commands of event counters (spec/18).
-/

namespace Sys2Proof.Machine

/-- `EVC_SELECT` (R509): A write of EVC_SELn zeroes the counter and selects its source from the next clock. -/
def execEvcSelect (n : Fin 64) (src : Fin 512) (clear : Bool) (t : Time) (s : State) : Host.Outcome State Fault Refusal
    :=
  .next (s.onHubAt t (fun s => evcSelect n src clear s))

/-- `FREEZE` (R510): A write of EVC_CTRL.FREEZE stops or resumes every event counter. -/
def execFreeze (v : Bool) (t : Time) (s : State) : Host.Outcome State Fault Refusal :=
  .next (s.onHubAt t (fun s => evcFreeze v s))

end Sys2Proof.Machine
end

