-- ==== Sys2Proof/Machine/CmdStack.lean ====
section
/-!
DEFINITION. Machine/CmdStack.lean: the meanings of the commands of redundancy and the stack (spec/12).
-/

namespace Sys2Proof.Machine

/-- `HEARTBEAT_SEND` (R392): At t_k + 100 ns every hub queues its heartbeat. -/
def execHeartbeatSend (s : State) : Host.Outcome State Fault Refusal :=
  .next (s.onHub (fun s => heartbeatSend s))

/-- `HEARTBEAT` (R392): A hub receives a heartbeat, updating presence, newel, hall block and trigger-bus lines. -/
def execHeartbeat (d : Hub) (ringB : Bool) (hops : Nat) (dly : Nat) (hb : Heartbeat) (cyc : Word) (t : Time) (s : State)
    : Host.Outcome State Fault Refusal :=
  .next (s.onHubAt t (fun s => heartbeat d ringB hops dly hb cyc.toNat t s))

/-- `HEARTBEAT_MISSING` (R393): A heartbeat is missing at its deadline, feeding 0x069 and the takeover condition. -/
def execHeartbeatMissing (d : Hub) (k : Word) (s : State) : Host.Outcome State Fault Refusal :=
  .next (s.onHub (fun s => heartbeatMissing d k.toNat s))

/-- `PARTNER_WAIT` (R368): An even whole-unit hub waits 64 cycles after link lock and enters ACTIVE or STANDBY. -/
def execPartnerWait (t : Time) (s : State) : Host.Outcome State Fault Refusal :=
  .next (s.onHubAt t (fun s => partnerWait s))

/-- `NEWEL_CHANGE` (R394): At the cycle start 16 cycles after a new newel names itself the change takes effect and
raises 0x06D. -/
def execNewelChange (t : Time) (s : State) : Host.Outcome State Fault Refusal :=
  .next (s.onHubAt t (fun s => newelChange s))

/-- `TIME` (R395): A hub receives the newel's TIME message and forms its offset θ. -/
def execTime (ringB : Bool) (dep : Time) (len : Nat) (corr : Time) (step : Option (Nat × Int)) (cyc : Word) (delay :
    Time) (t : Time) (s : State) : Host.Outcome State Fault Refusal :=
  .next (s.onHubAt t (fun s => timeMsg ringB dep len corr step cyc.toNat delay t s))

/-- `BLOCK` (R398): A hub receives a stack-wide BLOCK and blocks all its arms while the block holds. -/
def execBlock (d : Hub) (cyc : Word) (t : Time) (s : State) : Host.Outcome State Fault Refusal :=
  .next (s.onHubAt t (fun s => s.stackMsg d false cyc.toNat))

/-- `TRIP_MESSAGE` (R327): A hub receives a stack-wide TRIP, blocks its arms and asserts its safe block outputs. -/
def execTripMessage (d : Hub) (cyc : Word) (t : Time) (s : State) : Host.Outcome State Fault Refusal :=
  .next (s.onHubAt t (fun s => s.stackMsg d true cyc.toNat))

/-- `RESIGN` (R383): STK_CMD.RESIGN with KEY 0x4E sends RESIGN to a READY partner naming the cycle 64 ahead, or is
refused. -/
def execResign (key : Byte) (t : Time) (s : State) : Host.Outcome State Fault Refusal :=
  .next (s.onHubAt t (fun s => resign key.toNat s))

/-- `RESIGN_MESSAGE` (R380): A standby receives RESIGN and meets the takeover condition at the named cycle. -/
def execResignMessage (k : Word) (t : Time) (s : State) : Host.Outcome State Fault Refusal :=
  .next (s.onHubAt t (fun s => resignMessage k.toNat t s))

/-- `REVERT` (R386): An odd partner receives REVERT and takes it as its RESIGN. -/
def execRevert (k : Word) (t : Time) (s : State) : Host.Outcome State Fault Refusal :=
  .next (s.onHubAt t (fun s => revertMessage k.toNat t s))

/-- `REVERT_HOLD` (R386): An even standby has been READY for HOLD × 100 ms and sends REVERT. -/
def execRevertHold (t : Time) (s : State) : Host.Outcome State Fault Refusal :=
  .next (s.onHubAt t (fun s => revertHold t s))

/-- `STK_ADMIT` (R379): STK_CMD.ADMIT at the newel sends ADMIT to a fenced healthy hub, or is refused. -/
def execStkAdmit (d : Hub) (t : Time) (s : State) : Host.Outcome State Fault Refusal :=
  .next (s.onHubAt t (fun s => stkAdmit d s))

/-- `ADMIT` (R379): A fenced hub receives ADMIT, stores the epoch and enters STANDBY. -/
def execAdmit (e : Fin 65536) (t : Time) (s : State) : Host.Outcome State Fault Refusal :=
  .next (s.onHubAt t (fun s => admitMessage e t s))

/-- `RELAY_DN` (R222): The standby receives relayed carriages and carts and emits them on its port. -/
def execRelayDn (r : Ring) (dir : Fin 4) (block : Bool) (commit : Bool) (land : Bool) (pfar : Pos) (hop : Fin 64) (cars
    : List Slot) (carts : List Slot) (epoch : Fin 65536) (k : Word) (t : Time) (s : State) : Host.Outcome State Fault
    Refusal :=
  .next (s.onHubAt t (fun s => relayDn r dir block commit land pfar hop cars carts epoch k.toNat t s))

/-- `RELAY_UP` (R222): The primary receives a relayed train back from the standby. -/
def execRelayUp (r : Ring) (f : Frame) (t : Time) (s : State) : Host.Outcome State Fault Refusal :=
  .next (s.onHubAt t (fun s => relayUp r f t s))

/-- `EXCH` (R399): A hub receives an energy-balance exchange message from another hub. -/
def execExch (d : Hub) (k : Word) (w0 : Word) (w1 : Word) (w2 : Word) (w3 : Word) (t : Time) (s : State) : Host.Outcome
    State Fault Refusal :=
  .next (s.onHubAt t (fun s => exchMsg d k.toNat w0 w1 w2 w3 t s))

/-- `SNAPSHOT` (R371): The standby receives a snapshot and makes it its base when complete and correct. -/
def execSnapshot (x : Snap) (t : Time) (s : State) : Host.Outcome State Fault Refusal :=
  .next (s.onHubAt t (fun s => snapshotMsg x t s))

/-- `JOURNAL` (R372): The standby receives and stores a journal record. -/
def execJournal (j : JRec) (t : Time) (s : State) : Host.Outcome State Fault Refusal :=
  .next (s.onHubAt t (fun s => journalMsg j t s))

/-- `SNAPSHOT_LOAD_DONE` (R381): The base is loaded from LPDDR5 into engine, gallery and ring ports. -/
def execSnapshotLoadDone (t : Time) (s : State) : Host.Outcome State Fault Refusal :=
  .next (s.onHubAt t (fun s => snapshotLoadDone s))

/-- `REPLAY_DONE` (R382): Journal replay completes and the hub writes epoch + 1 and takes the emitting role. -/
def execReplayDone (t : Time) (s : State) : Host.Outcome State Fault Refusal :=
  .next (s.onHubAt t (fun s => replayDone s))

/-- `TITAJOR_MESSAGE_FORWARD` (R389): A hub receives a Titajor message not addressed to it and forwards it with TTL − 1,
or discards it when it returns to its source, when its TTL is 0, or when its CRC or MTYPE fails. -/
def execTitajorMessageForward (m : BitVec 256) (residence : Time) (t : Time) (s : State) : Host.Outcome State Fault
    Refusal :=
  .next (s.onHubAt t (fun s => titajorMessageForward m residence s))

end Sys2Proof.Machine
end

