-- ==== Sys2Proof/Machine/CmdTreadStart.lean ====
section
/-!
DEFINITION. Machine/CmdTreadStart.lean: the meanings of the commands of a Tread's supply, boot, converter and scheduler
(spec/09).
-/

namespace Sys2Proof.Machine

/-- `TREAD_SUPPLY_GOOD` (R290): VDD33 passes the rising threshold and the Tread starts up into self-keep. -/
def execTreadSupplyGood (cell : Cell) (full : Bool) (uv : Nat) (t : Time) (s : State) : Host.Outcome State Fault Refusal
    :=
  .next (s.updTread cell (fun d => (d.advance t).supplyGood full uv))

/-- `TREAD_BOOT_DECISION` (R298): The ROM checks the firmware slots and starts a valid image or the self-keep code. -/
def execTreadBootDecision (cell : Cell) (t : Time) (s : State) : Host.Outcome State Fault Refusal :=
  .next (s.onTreadAt cell t (fun d => d.bootDecision))

/-- `TREAD_SUPPLY_FALL` (R523): VDD33 falls below the falling threshold, driving the outputs low and resetting the
Tread. -/
def execTreadSupplyFall (cell : Cell) (vmin : Bool) (t : Time) (s : State) : Host.Outcome State Fault Refusal :=
  .next (s.onTreadAt cell t (fun d => d.supplyFall vmin))

/-- `OV_SET_MEASURE` (R291): Every 100 ms the guard island remeasures OV_SET and lowers the threshold on a strap fault.
-/
def execOvSetMeasure (cell : Cell) (uv : Nat) (t : Time) (s : State) : Host.Outcome State Fault Refusal :=
  .next (s.onTreadAt cell t (fun d => d.ovSet uv))

/-- `GUARD_TRIP` (R292): VCAP_IN stays above the threshold for 500 ns and the guard starts the bypass sequence. -/
def execGuardTrip (cell : Cell) (t : Time) (s : State) : Host.Outcome State Fault Refusal :=
  .next (s.onTreadAt cell t (fun d => d.guardTrip))

/-- `SUPOK_LOSS` (R296): SUPOK stays low for 1 ms at full rate and the Tread blocks the cell. -/
def execSupokLoss (cell : Cell) (t : Time) (s : State) : Host.Outcome State Fault Refusal :=
  .next (s.onTreadAt cell t (fun d => d.supokLoss))

/-- `VERIFY` (R300): T_FW_CMD.VERIFY starts checking the inactive firmware slot. -/
def execVerify (cell : Cell) (t : Time) (s : State) : Host.Outcome State Fault Refusal :=
  .next (s.onTreadAt cell t (fun d => d.verify))

/-- `VERIFY_DONE` (R300): The slot check completes and sets VRES and RESULT. -/
def execVerifyDone (cell : Cell) (t : Time) (s : State) : Host.Outcome State Fault Refusal :=
  .next (s.onTreadAt cell t (fun d => d.verifyDone))

/-- `FW_SWITCH` (R300): T_FW_CMD.SWITCH with KEY 0xA5 makes the verified slot active and restarts the core island. -/
def execFwSwitch (cell : Cell) (key : Byte) (t : Time) (s : State) : Host.Outcome State Fault Refusal :=
  .next (s.onTreadAt cell t (fun d => d.fwSwitchKey key.toNat))

/-- `ADC_CONVERSION` (R301): The ADC converts VCAP or the next sequencer input at its sampling instant, and the
detectors of that input run. -/
def execAdcConversion (cell : Cell) (num : Int) (den : Nat) (ovf : Bool) (pins : TPins) (t : Time) (s : State) :
    Host.Outcome State Fault Refusal :=
  .next (s.onTreadAt cell t (fun d => d.convert num den ovf pins))

/-- `DESAT_FAULT` (R306): A fault input stays active for 200 ns and both outputs of its leg turn off and latch. -/
def execDesatFault (cell : Cell) (n : Fin 4) (t : Time) (s : State) : Host.Outcome State Fault Refusal :=
  .next (s.onTreadAt cell t (fun d => d.desat n))

/-- `DIGEST_UPDATE` (R312): Within 1 ms of a PW write the Tread updates its configuration digest. -/
def execDigestUpdate (cell : Cell) (t : Time) (s : State) : Host.Outcome State Fault Refusal :=
  .next (s.onTreadAt cell t (fun d => d.digest))

/-- `T_SCH_READY` (R309): Tread scheduler READY makes a waiting or suspended thread ready. -/
def execTSchReady (cell : Cell) (th : Fin 16) (t : Time) (s : State) : Host.Outcome State Fault Refusal :=
  .next (s.onTreadAt cell t (fun d => d.schReady th))

/-- `T_SCH_WAIT` (R309): Tread scheduler WAIT blocks the caller for a READY or a time-out. -/
def execTSchWait (cell : Cell) (t : Time) (s : State) : Host.Outcome State Fault Refusal :=
  .next (s.onTreadAt cell t (fun d => d.schWait))

/-- `T_SCH_SLEEP` (R309): Tread scheduler SLEEP makes the caller ready after ARG ticks. -/
def execTSchSleep (cell : Cell) (t : Time) (s : State) : Host.Outcome State Fault Refusal :=
  .next (s.onTreadAt cell t (fun d => d.schSleep))

/-- `T_SCH_PRIO` (R308): Tread scheduler PRIO sets a thread's priority. -/
def execTSchPrio (cell : Cell) (th : Fin 16) (prio : Fin 8) (t : Time) (s : State) : Host.Outcome State Fault Refusal :=
  .next (s.onTreadAt cell t (fun d => d.schPrio th prio))

/-- `T_SCH_SUSPEND` (R309): Tread scheduler SUSPEND removes a thread from the ready queues and the delay list. -/
def execTSchSuspend (cell : Cell) (th : Fin 16) (t : Time) (s : State) : Host.Outcome State Fault Refusal :=
  .next (s.onTreadAt cell t (fun d => d.schSuspend th))

/-- `T_SCH_WAKE` (R309): A Tread thread's wake tick falls due and it becomes ready. -/
def execTSchWake (cell : Cell) (t : Time) (s : State) : Host.Outcome State Fault Refusal :=
  .next (s.onTreadAt cell t (fun d => d.schWake t))

/-- `T_EVC_SELECT` (R313): A write of T_EVC_SELn selects a source and clears its counter. -/
def execTEvcSelect (cell : Cell) (n : Fin 8) (src : Fin 16) (t : Time) (s : State) : Host.Outcome State Fault Refusal :=
  .next (s.onTreadAt cell t (fun d => d.evcSelect n src))

end Sys2Proof.Machine
end

