-- ==== Sys2Proof/Machine/CmdTreadSwitching.lean ====
section
/-!
DEFINITION. Machine/CmdTreadSwitching.lean: the meanings of the commands of the switching of a Tread (spec/08).
-/

namespace Sys2Proof.Machine

/-- `ACTION_INSTANT` (R259): At the action instant A the Tread executes its carriage command. -/
def execActionInstant (cell : Cell) (s : State) : Host.Outcome State Fault Refusal :=
  .next (s.onTread cell (fun d => d.actionInstant))

/-- `DITHER_EDGE` (R259): At A + DUTY × 250 ps the dither pulse ends and the cell enters the level below STATE. -/
def execDitherEdge (cell : Cell) (s : State) : Host.Outcome State Fault Refusal :=
  .next (s.onTread cell (fun d => d.secondEdge))

/-- `DEAD_TIME_TURN_ON` (R263): The complementary output turns on once dead time has passed and feedback reports off. -/
def execDeadTimeTurnOn (cell : Cell) (leg : Fin 2) (s : State) : Host.Outcome State Fault Refusal :=
  .next (s.onTread cell (fun d => d.deadTimeOver leg))

/-- `GATE_FEEDBACK_OFF` (R265): A device's feedback reports off, giving a turn-off sample to the dead-time filter. -/
def execGateFeedbackOff (cell : Cell) (n : Fin 4) (t : Time) (s : State) : Host.Outcome State Fault Refusal :=
  .next (s.onTreadAt cell t (fun d => d.feedbackOff n))

/-- `GFB_MISMATCH` (R268): A gate feedback disagreement beyond WIN or FILT latches, blocks the cell and forwards the
gate-feedback code. -/
def execGfbMismatch (cell : Cell) (n : Fin 4) (t : Time) (s : State) : Host.Outcome State Fault Refusal :=
  .next (s.onTreadAt cell t (fun d => d.gfbMismatch n))

/-- `CARRIER_EDGE` (R270): The hall-time carrier crosses a duty boundary and the cell changes between ON and level 0. -/
def execCarrierEdge (cell : Cell) (h : Time) (s : State) : Host.Outcome State Fault Refusal :=
  .next (s.onTread cell (fun d => d.carrierEdge h))

/-- `REFRESH_REQUEST` (R275): A high-side on-time timer reaches INTERVAL and the Tread sets its refresh request. -/
def execRefreshRequest (cell : Cell) (leg : Fin 2) (s : State) : Host.Outcome State Fault Refusal :=
  .next (s.onTread cell (fun d => d.refreshRequest leg))

/-- `NOTCH_END` (R276): The refresh notch ends at A + NOTCH and held commands proceed. -/
def execNotchEnd (cell : Cell) (s : State) : Host.Outcome State Fault Refusal :=
  .next (s.onTread cell (fun d => d.notchEnd))

/-- `CARRIER_NOTCH` (R277): In carrier mode the Tread holds the refresh notch around the first qualifying period start.
-/
def execCarrierNotch (cell : Cell) (s : State) : Host.Outcome State Fault Refusal :=
  .next (s.onTread cell (fun d => d.carrierNotch))

/-- `BYP_CONF_RISE` (R279): BYP_CONF goes high during a bypass sequence and BYPASSED sets. -/
def execBypConfRise (cell : Cell) (t : Time) (s : State) : Host.Outcome State Fault Refusal :=
  .next (s.onTreadAt cell t (fun d => d.bypConf))

/-- `BYPASS_GATES_OFF` (R279): 2 µs after confirmation, or 10 µs after firing, all gate outputs turn off. -/
def execBypassGatesOff (cell : Cell) (s : State) : Host.Outcome State Fault Refusal :=
  .next (s.onTread cell (fun d => d.bypassGatesOff))

/-- `BYPASS_CONF_TIMEOUT` (R279): No BYP_CONF within CONF_TO starts THY_FIRE pulses and sets THY and BYPASSED. -/
def execBypassConfTimeout (cell : Cell) (s : State) : Host.Outcome State Fault Refusal :=
  .next (s.onTread cell (fun d => d.bypassTimeout))

/-- `THY_FIRE_PULSE` (R279): A 10 µs THY_FIRE pulse fires every 100 µs while firing continues. -/
def execThyFirePulse (cell : Cell) (s : State) : Host.Outcome State Fault Refusal :=
  .next (s.onTread cell (fun d => d.thyPulse))

/-- `BYPASS_TEST` (R280): Once per TEST_PER the Tread pulses BYP and checks its read-back. -/
def execBypassTest (cell : Cell) (rb1 : Option Nat) (rb2 : Option Nat) (t : Time) (s : State) : Host.Outcome State Fault
    Refusal :=
  .next (s.onTreadAt cell t (fun d => d.bypassTest rb1 rb2))

/-- `BYPASS_RELEASE` (R281): A write to T_BYP_CMD with RELEASE and KEY 0x5A ends a bypass while the cell is blocked by a
command. -/
def execBypassRelease (cell : Cell) (v : Word) (t : Time) (s : State) : Host.Outcome State Fault Refusal :=
  .next (s.onTreadAt cell t (fun d => d.bypCmd v))

/-- `LANDING_ACTION_BASE` (R284): At the landing action base of a missed cycle an armed Tread plays its entry or blocks.
-/
def execLandingActionBase (cell : Cell) (c : Word) (s : State) : Host.Outcome State Fault Refusal :=
  .next (s.onTread cell (fun d => d.landingBase c.toNat))

/-- `FRAME_LOSS_WATCHDOG` (R329): The watchdog expires at the landing action base of cycle k0 + 3, forwarding frame loss
and blocking an unarmed cell. -/
def execFrameLossWatchdog (cell : Cell) (s : State) : Host.Outcome State Fault Refusal :=
  .next (s.onTread cell (fun d => d.frameLoss))

/-- `GUARD_WATCHDOG` (R330): The guard island blocks all outputs when no valid frame has arrived for its RC-timed bound.
-/
def execGuardWatchdog (cell : Cell) (t : Time) (s : State) : Host.Outcome State Fault Refusal :=
  .next (s.onTread cell (fun d => d.guardWatchdog t))

end Sys2Proof.Machine
end

