-- ==== Sys2Proof/Machine/Dispatch.lean ====
section
/-!
DEFINITION. Machine/Dispatch.lean: one arm for each command.
-/

namespace Sys2Proof.Machine

def exec (i : Instr) (s : State) : Host.Outcome State Fault Refusal :=
  match i with
  | .registerWrite who tgt off v t => Sys2Proof.Machine.execRegisterWrite who tgt off v t s
  | .rcRead who tgt off t => Sys2Proof.Machine.execRcRead who tgt off t s
  | .counterLowRead who n t => Sys2Proof.Machine.execCounterLowRead who n t s
  | .pwCommit t => Sys2Proof.Machine.execPwCommit t s
  | .topologyWrite who which v t => Sys2Proof.Machine.execTopologyWrite who which v t s
  | .resourceGrant g t => Sys2Proof.Machine.execResourceGrant g t s
  | .requestWithdrawal res who key t => Sys2Proof.Machine.execRequestWithdrawal res who key t s
  | .islandClockFault n t => Sys2Proof.Machine.execIslandClockFault n t s
  | .cycleStart off => Sys2Proof.Machine.execCycleStart off s
  | .cycleLengthWrite who v t => Sys2Proof.Machine.execCycleLengthWrite who v t s
  | .cycleControlWrite who v t => Sys2Proof.Machine.execCycleControlWrite who v t s
  | .trainArrival r f tIn t => Sys2Proof.Machine.execTrainArrival r f tIn t s
  | .galleryDeadline => Sys2Proof.Machine.execGalleryDeadline s
  | .lateTrainComplete r f tIn t => Sys2Proof.Machine.execLateTrainComplete r f tIn t s
  | .presetOutput c p rise fall per t => Sys2Proof.Machine.execPresetOutput c p rise fall per t s
  | .miClockFault c period t => Sys2Proof.Machine.execMiClockFault c period t s
  | .miClockRecovery c period t => Sys2Proof.Machine.execMiClockRecovery c period t s
  | .modulatorStuck c t => Sys2Proof.Machine.execModulatorStuck c t s
  | .modulatorStuckEnd c t => Sys2Proof.Machine.execModulatorStuckEnd c t s
  | .miConfigWrite who c v t => Sys2Proof.Machine.execMiConfigWrite who c v t s
  | .scaleApply t => Sys2Proof.Machine.execScaleApply t s
  | .realign t => Sys2Proof.Machine.execRealign t s
  | .enginePass => Sys2Proof.Machine.execEnginePass s
  | .stgCommit who m t => Sys2Proof.Machine.execStgCommit who m t s
  | .mailboxCommitGrant m t => Sys2Proof.Machine.execMailboxCommitGrant m t s
  | .editBankWrite w v t => Sys2Proof.Machine.execEditBankWrite w v t s
  | .copy t => Sys2Proof.Machine.execCopy t s
  | .copyDone t => Sys2Proof.Machine.execCopyDone t s
  | .check t => Sys2Proof.Machine.execCheck t s
  | .checkDone t => Sys2Proof.Machine.execCheckDone t s
  | .switch t => Sys2Proof.Machine.execSwitch t s
  | .injectStart t => Sys2Proof.Machine.execInjectStart t s
  | .injectStop t => Sys2Proof.Machine.execInjectStop t s
  | .captureStart t => Sys2Proof.Machine.execCaptureStart t s
  | .captureStop t => Sys2Proof.Machine.execCaptureStop t s
  | .dftDone t => Sys2Proof.Machine.execDftDone t s
  | .galleryRanking done stored => Sys2Proof.Machine.execGalleryRanking done stored s
  | .bandAdapt a => Sys2Proof.Machine.execBandAdapt a s
  | .estimatorWindow cell => Sys2Proof.Machine.execEstimatorWindow cell s
  | .healthCheck a => Sys2Proof.Machine.execHealthCheck a s
  | .galleryWrite off v t => Sys2Proof.Machine.execGalleryWrite off v t s
  | .estimateLoad cell which v t => Sys2Proof.Machine.execEstimateLoad cell which v t s
  | .blockLock l t => Sys2Proof.Machine.execBlockLock l t s
  | .lossOfLock l t => Sys2Proof.Machine.execLossOfLock l t s
  | .lossOfSignal l t => Sys2Proof.Machine.execLossOfSignal l t s
  | .signalReturn l t => Sys2Proof.Machine.execSignalReturn l t s
  | .outboundFrame cell far f ta tc => Sys2Proof.Machine.execOutboundFrame cell far f ta tc s
  | .inboundFrame cell f tb => Sys2Proof.Machine.execInboundFrame cell f tb s
  | .rd cell c tag pos word two => Sys2Proof.Machine.execRd cell c tag pos word two s
  | .wr cell c tag pos word two data => Sys2Proof.Machine.execWr cell c tag pos word two data s
  | .bwr cell c tag word two data => Sys2Proof.Machine.execBwr cell c tag word two data s
  | .fwblk cell c tag blk data => Sys2Proof.Machine.execFwblk cell c tag blk data s
  | .cartAdmit cell c tag pos uid => Sys2Proof.Machine.execCartAdmit cell c tag pos uid s
  | .linkTake cell c tag pos => Sys2Proof.Machine.execLinkTake cell c tag pos s
  | .linkRelease cell c tag pos => Sys2Proof.Machine.execLinkRelease cell c tag pos s
  | .rateQuery cell c tag low => Sys2Proof.Machine.execRateQuery cell c tag low s
  | .rateGo cell c tag low cyc => Sys2Proof.Machine.execRateGo cell c tag low cyc s
  | .ident cell c tag pos quarter => Sys2Proof.Machine.execIdent cell c tag pos quarter s
  | .rpConfigWrite q v t => Sys2Proof.Machine.execRpConfigWrite q v t s
  | .enum q t => Sys2Proof.Machine.execEnum q t s
  | .enumUnstable r t => Sys2Proof.Machine.execEnumUnstable r t s
  | .rejoin q t => Sys2Proof.Machine.execRejoin q t s
  | .rate q t => Sys2Proof.Machine.execRate q t s
  | .rateSwitch l t => Sys2Proof.Machine.execRateSwitch l t s
  | .rpAdmit q mask t => Sys2Proof.Machine.execRpAdmit q mask t s
  | .farEndMissing q k => Sys2Proof.Machine.execFarEndMissing q k s
  | .ringSplit r t => Sys2Proof.Machine.execRingSplit r t s
  | .offsetCommit t secs => Sys2Proof.Machine.execOffsetCommit t secs s
  | .ppsInEdge t => Sys2Proof.Machine.execPpsInEdge t s
  | .sourceLoss t => Sys2Proof.Machine.execSourceLoss t s
  | .step t => Sys2Proof.Machine.execStep t s
  | .hallStep => Sys2Proof.Machine.execHallStep s
  | .timeRead t => Sys2Proof.Machine.execTimeRead t s
  | .rttBroadcast q => Sys2Proof.Machine.execRttBroadcast q s
  | .txqRead n t => Sys2Proof.Machine.execTxqRead n t s
  | .ppsOutPulse => Sys2Proof.Machine.execPpsOutPulse s
  | .pllLock p n err t => Sys2Proof.Machine.execPllLock p n err t s
  | .pllLockLoss p n err t => Sys2Proof.Machine.execPllLockLoss p n err t s
  | .apply t => Sys2Proof.Machine.execApply t s
  | .applyComplete t => Sys2Proof.Machine.execApplyComplete t s
  | .applyTimeout t => Sys2Proof.Machine.execApplyTimeout t s
  | .refLoss t => Sys2Proof.Machine.execRefLoss t s
  | .syncArm t => Sys2Proof.Machine.execSyncArm t s
  | .clkSyncEdge t => Sys2Proof.Machine.execClkSyncEdge t s
  | .actionInstant cell => Sys2Proof.Machine.execActionInstant cell s
  | .ditherEdge cell => Sys2Proof.Machine.execDitherEdge cell s
  | .deadTimeTurnOn cell leg => Sys2Proof.Machine.execDeadTimeTurnOn cell leg s
  | .gateFeedbackOff cell n t => Sys2Proof.Machine.execGateFeedbackOff cell n t s
  | .gfbMismatch cell n t => Sys2Proof.Machine.execGfbMismatch cell n t s
  | .carrierEdge cell h => Sys2Proof.Machine.execCarrierEdge cell h s
  | .refreshRequest cell leg => Sys2Proof.Machine.execRefreshRequest cell leg s
  | .notchEnd cell => Sys2Proof.Machine.execNotchEnd cell s
  | .carrierNotch cell => Sys2Proof.Machine.execCarrierNotch cell s
  | .bypConfRise cell t => Sys2Proof.Machine.execBypConfRise cell t s
  | .bypassGatesOff cell => Sys2Proof.Machine.execBypassGatesOff cell s
  | .bypassConfTimeout cell => Sys2Proof.Machine.execBypassConfTimeout cell s
  | .thyFirePulse cell => Sys2Proof.Machine.execThyFirePulse cell s
  | .bypassTest cell rb1 rb2 t => Sys2Proof.Machine.execBypassTest cell rb1 rb2 t s
  | .bypassRelease cell v t => Sys2Proof.Machine.execBypassRelease cell v t s
  | .landingActionBase cell c => Sys2Proof.Machine.execLandingActionBase cell c s
  | .frameLossWatchdog cell => Sys2Proof.Machine.execFrameLossWatchdog cell s
  | .guardWatchdog cell t => Sys2Proof.Machine.execGuardWatchdog cell t s
  | .treadSupplyGood cell full uv t => Sys2Proof.Machine.execTreadSupplyGood cell full uv t s
  | .treadBootDecision cell t => Sys2Proof.Machine.execTreadBootDecision cell t s
  | .treadSupplyFall cell vmin t => Sys2Proof.Machine.execTreadSupplyFall cell vmin t s
  | .ovSetMeasure cell uv t => Sys2Proof.Machine.execOvSetMeasure cell uv t s
  | .guardTrip cell t => Sys2Proof.Machine.execGuardTrip cell t s
  | .supokLoss cell t => Sys2Proof.Machine.execSupokLoss cell t s
  | .verify cell t => Sys2Proof.Machine.execVerify cell t s
  | .verifyDone cell t => Sys2Proof.Machine.execVerifyDone cell t s
  | .fwSwitch cell key t => Sys2Proof.Machine.execFwSwitch cell key t s
  | .adcConversion cell num den ovf pins t => Sys2Proof.Machine.execAdcConversion cell num den ovf pins t s
  | .desatFault cell n t => Sys2Proof.Machine.execDesatFault cell n t s
  | .digestUpdate cell t => Sys2Proof.Machine.execDigestUpdate cell t s
  | .tSchReady cell th t => Sys2Proof.Machine.execTSchReady cell th t s
  | .tSchWait cell t => Sys2Proof.Machine.execTSchWait cell t s
  | .tSchSleep cell t => Sys2Proof.Machine.execTSchSleep cell t s
  | .tSchPrio cell th prio t => Sys2Proof.Machine.execTSchPrio cell th prio t s
  | .tSchSuspend cell th t => Sys2Proof.Machine.execTSchSuspend cell th t s
  | .tSchWake cell t => Sys2Proof.Machine.execTSchWake cell t s
  | .tEvcSelect cell n src t => Sys2Proof.Machine.execTEvcSelect cell n src t s
  | .severityWrite who src v t => Sys2Proof.Machine.execSeverityWrite who src v t s
  | .latchClear who cell j v t => Sys2Proof.Machine.execLatchClear who cell j v t s
  | .tFltClr cell v t => Sys2Proof.Machine.execTFltClr cell v t s
  | .iqRead q ecc t => Sys2Proof.Machine.execIqRead q ecc t s
  | .permitToken t => Sys2Proof.Machine.execPermitToken t s
  | .tokenTimeout t => Sys2Proof.Machine.execTokenTimeout t s
  | .selftestDone pass t => Sys2Proof.Machine.execSelftestDone pass t s
  | .safetyInternalFault t => Sys2Proof.Machine.execSafetyInternalFault t s
  | .safReset held rail a b t => Sys2Proof.Machine.execSafReset held rail a b t s
  | .safetyTrip t => Sys2Proof.Machine.execSafetyTrip t s
  | .sboRel key t => Sys2Proof.Machine.execSboRel key t s
  | .dclr mask t => Sys2Proof.Machine.execDclr mask t s
  | .test t => Sys2Proof.Machine.execTest t s
  | .sboPulseTest n late t => Sys2Proof.Machine.execSboPulseTest n late t s
  | .readbackFailure n rb since t => Sys2Proof.Machine.execReadbackFailure n rb since t s
  | .safetyInputChange p chB level since t => Sys2Proof.Machine.execSafetyInputChange p chB level since t s
  | .discrepancyTimeout p t => Sys2Proof.Machine.execDiscrepancyTimeout p t s
  | .balustradeOutput c rise fall per t => Sys2Proof.Machine.execBalustradeOutput c rise fall per t s
  | .balustradeClockLoss c edge t => Sys2Proof.Machine.execBalustradeClockLoss c edge t s
  | .lockKey key t => Sys2Proof.Machine.execLockKey key t s
  | .close t => Sys2Proof.Machine.execClose t s
  | .abandon t => Sys2Proof.Machine.execAbandon t s
  | .lockTimeout t => Sys2Proof.Machine.execLockTimeout t s
  | .safetyDiagnostic d ok t => Sys2Proof.Machine.execSafetyDiagnostic d ok t s
  | .heartbeatSend => Sys2Proof.Machine.execHeartbeatSend s
  | .heartbeat d ringB hops dly hb cyc t => Sys2Proof.Machine.execHeartbeat d ringB hops dly hb cyc t s
  | .heartbeatMissing d k => Sys2Proof.Machine.execHeartbeatMissing d k s
  | .partnerWait t => Sys2Proof.Machine.execPartnerWait t s
  | .newelChange t => Sys2Proof.Machine.execNewelChange t s
  | .timeMessage ringB dep len corr step cyc delay t => Sys2Proof.Machine.execTime ringB dep len corr step cyc delay t s
  | .blockMessage d cyc t => Sys2Proof.Machine.execBlock d cyc t s
  | .tripMessage d cyc t => Sys2Proof.Machine.execTripMessage d cyc t s
  | .resign key t => Sys2Proof.Machine.execResign key t s
  | .resignMessage k t => Sys2Proof.Machine.execResignMessage k t s
  | .revert k t => Sys2Proof.Machine.execRevert k t s
  | .revertHold t => Sys2Proof.Machine.execRevertHold t s
  | .stkAdmit d t => Sys2Proof.Machine.execStkAdmit d t s
  | .admitMessage e t => Sys2Proof.Machine.execAdmit e t s
  | .relayDn r dir block commit land pfar hop cars carts epoch k t => Sys2Proof.Machine.execRelayDn r dir block commit land pfar hop cars carts epoch k t s
  | .relayUp r f t => Sys2Proof.Machine.execRelayUp r f t s
  | .exch d k w0 w1 w2 w3 t => Sys2Proof.Machine.execExch d k w0 w1 w2 w3 t s
  | .snapshot x t => Sys2Proof.Machine.execSnapshot x t s
  | .journal j t => Sys2Proof.Machine.execJournal j t s
  | .snapshotLoadDone t => Sys2Proof.Machine.execSnapshotLoadDone t s
  | .replayDone t => Sys2Proof.Machine.execReplayDone t s
  | .powerOnReset t x => Sys2Proof.Machine.execPowerOnReset t x s
  | .resetPin since t => Sys2Proof.Machine.execResetPin since t s
  | .chip bit key w t x => Sys2Proof.Machine.execChip bit key w t x s
  | .thermalShutdown since t => Sys2Proof.Machine.execThermalShutdown since t s
  | .pfail t => Sys2Proof.Machine.execPfail t s
  | .avsPeriod ack mons vmeas t => Sys2Proof.Machine.execAvsPeriod ack mons vmeas t s
  | .bootVerify a b t => Sys2Proof.Machine.execBootVerify a b t s
  | .go go key t => Sys2Proof.Machine.execGo go key t s
  | .chal key t => Sys2Proof.Machine.execChal key t s
  | .submit key t => Sys2Proof.Machine.execSubmit key t s
  | .debugCheckDone t => Sys2Proof.Machine.execDebugCheckDone t s
  | .debugClose key t => Sys2Proof.Machine.execDebugClose key t s
  | .hostReset lost t => Sys2Proof.Machine.execHostReset lost t s
  | .bar2Write off bytes t => Sys2Proof.Machine.execBar2Write off bytes t s
  | .badAcc write off n t => Sys2Proof.Machine.execBadAcc write off n t s
  | .doorbell n idx t => Sys2Proof.Machine.execDoorbell n idx t s
  | .ringConfigWrite n which v t => Sys2Proof.Machine.execRingConfigWrite n which v t s
  | .readFail n t => Sys2Proof.Machine.execReadFail n t s
  | .nop n opc cid t => Sys2Proof.Machine.execNop n opc cid t s
  | .regWr n cid off v mask t => Sys2Proof.Machine.execRegWr n cid off v mask t s
  | .regRd n cid off t => Sys2Proof.Machine.execRegRd n cid off t s
  | .mbxCommit n cid m words t => Sys2Proof.Machine.execMbxCommit n cid m words t s
  | .armDeblock n cid mask t => Sys2Proof.Machine.execArmDeblock n cid mask t s
  | .armBlock n cid mask t => Sys2Proof.Machine.execArmBlock n cid mask t s
  | .ringCommit n cid mask k next t => Sys2Proof.Machine.execRingCommit n cid mask k next t s
  | .carDuty n cid cell duty on t => Sys2Proof.Machine.execCarDuty n cid cell duty on t s
  | .waitCycle n cid k t => Sys2Proof.Machine.execWaitCycle n cid k t s
  | .ethTx n cid port ts tsid frame t => Sys2Proof.Machine.execEthTx n cid port ts tsid frame t s
  | .ethTxComplete n age t => Sys2Proof.Machine.execEthTxComplete n age t s
  | .ethRxbuf n cid port addr len t => Sys2Proof.Machine.execEthRxbuf n cid port addr len t s
  | .ethReceive port bytes fcsOk age t => Sys2Proof.Machine.execEthReceive port bytes fcsOk age t s
  | .cart who n cid r op pos arg data raddr t => Sys2Proof.Machine.execCart who n cid r op pos arg data raddr t s
  | .moderationTimer n t => Sys2Proof.Machine.execModerationTimer n t s
  | .schReady who th t => Sys2Proof.Machine.execSchReady who th t s
  | .schWait who t => Sys2Proof.Machine.execSchWait who t s
  | .schSleep who t => Sys2Proof.Machine.execSchSleep who t s
  | .schPrio who th prio t => Sys2Proof.Machine.execSchPrio who th prio t s
  | .schSuspend who th t => Sys2Proof.Machine.execSchSuspend who th t s
  | .schResume who th t => Sys2Proof.Machine.execSchResume who th t s
  | .waitQ who q t => Sys2Proof.Machine.execWaitQ who q t s
  | .waitCyc who t => Sys2Proof.Machine.execWaitCyc who t s
  | .flowEnter who f t => Sys2Proof.Machine.execFlowEnter who f t s
  | .flowRelease who f t => Sys2Proof.Machine.execFlowRelease who f t s
  | .exit who t => Sys2Proof.Machine.execExit who t s
  | .start who th t => Sys2Proof.Machine.execStart who th t s
  | .schTimeout t => Sys2Proof.Machine.execSchTimeout t s
  | .dispatch t => Sys2Proof.Machine.execDispatch t s
  | .schSwitch c th idle t => Sys2Proof.Machine.execSchSwitch c th idle t s
  | .schResRead c t => Sys2Proof.Machine.execSchResRead c t s
  | .lockstepMismatch c t => Sys2Proof.Machine.execLockstepMismatch c t s
  | .coreRun c v t => Sys2Proof.Machine.execCoreRun c v t s
  | .trigInEdge n level h => Sys2Proof.Machine.execTrigInEdge n level h s
  | .trig t => Sys2Proof.Machine.execTrig t s
  | .recStop t => Sys2Proof.Machine.execRecStop t s
  | .recFree j t => Sys2Proof.Machine.execRecFree j t s
  | .recEnable v t => Sys2Proof.Machine.execRecEnable v t s
  | .segmentFull t => Sys2Proof.Machine.execSegmentFull t s
  | .segmentCopyDone t => Sys2Proof.Machine.execSegmentCopyDone t s
  | .canInitWrite n v t => Sys2Proof.Machine.execCanInitWrite n v t s
  | .canIntegrationDone n t => Sys2Proof.Machine.execCanIntegrationDone n t s
  | .push n who t => Sys2Proof.Machine.execPush n who t s
  | .urgent n who t => Sys2Proof.Machine.execUrgent n who t s
  | .cancel n urg tag t => Sys2Proof.Machine.execCancel n urg tag t s
  | .recover n t => Sys2Proof.Machine.execRecover n t s
  | .canRingFetch n words t => Sys2Proof.Machine.execCanRingFetch n words t s
  | .canStartOfFrame n t => Sys2Proof.Machine.execCanStartOfFrame n t s
  | .canTxDone n e delay tec rec t => Sys2Proof.Machine.execCanTxDone n e delay tec rec t s
  | .canBusOff n t => Sys2Proof.Machine.execCanBusOff n t s
  | .canRecoveryDone n t => Sys2Proof.Machine.execCanRecoveryDone n t s
  | .canReceive n f ok age tec rec t => Sys2Proof.Machine.execCanReceive n f ok age tec rec t s
  | .rxqAck n q t => Sys2Proof.Machine.execRxqAck n q t s
  | .smbLockRead who n m t => Sys2Proof.Machine.execSmbLockRead who n m t s
  | .smbUnlockRead who n m t => Sys2Proof.Machine.execSmbUnlockRead who n m t s
  | .unlock n m t => Sys2Proof.Machine.execUnlock n m t s
  | .evcSelect n src clear t => Sys2Proof.Machine.execEvcSelect n src clear t s
  | .freeze v t => Sys2Proof.Machine.execFreeze v t s
  | .linkFaultReceived l t => Sys2Proof.Machine.execLinkFaultReceived l t s
  | .linkFaultCleared l t => Sys2Proof.Machine.execLinkFaultCleared l t s
  | .farendReceived l t => Sys2Proof.Machine.execFarendReceived l t s
  | .farendStops l t => Sys2Proof.Machine.execFarendStops l t s
  | .farEndCopyArrival q f t => Sys2Proof.Machine.execFarEndCopyArrival q f t s
  | .titajorMessageForward m residence t => Sys2Proof.Machine.execTitajorMessageForward m residence t s
  | .islandClockReturn n t => Sys2Proof.Machine.execIslandClockReturn n t s
  | .railOutOfRange rail lv t => Sys2Proof.Machine.execRailOutOfRange rail lv t s
  | .coreVoltageOutOfRange mv since t => Sys2Proof.Machine.execCoreVoltageOutOfRange mv since t s
  | .dieTemperatureHigh c t => Sys2Proof.Machine.execDieTemperatureHigh c t s
  | .thermalShutdownEnd c t x => Sys2Proof.Machine.execThermalShutdownEnd c t x s
  | .resetNRelease t x => Sys2Proof.Machine.execResetNRelease t x s
  | .pfailNRise t => Sys2Proof.Machine.execPfailNRise t s
  | .uncorrectableEccError src t => Sys2Proof.Machine.execUncorrectableEccError src t s
  | .pcieLinkUp speed width t => Sys2Proof.Machine.execPcieLinkUp speed width t s
  | .busMasterEnableWrite bme msix t => Sys2Proof.Machine.execBusMasterEnableWrite bme msix t s
  | .jtagInstruction op t x => Sys2Proof.Machine.execJtagInstruction op t x s
  | .canProtocolException n t => Sys2Proof.Machine.execCanProtocolException n t s

end Sys2Proof.Machine
end

