-- ==== Sys2Proof/Safety.lean ====
section
/-!
DEFINITION. Safety.lean: what the claims say of a state and of a command: what the command acts on; what time, registers
and a raise of a fault source change; and what a safe state is: a leg of a Tread never has both its outputs on, nor a
turn-on pending while the other output of the leg is on: turning both on would short the cell's capacitor.
-/

namespace Sys2Proof

/-! What a command acts on. -/

/-- The Tread of a lane. -/
def Lane.cell : Lane → Option Cell
  | .near i => some i
  | .far i => some i
  | _ => none

/-- The Tread that a command acts on; none for a command of the hub. -/
def Instr.cell : Instr → Option Cell
  | .registerWrite _ tgt _ _ _ => tgt
  | .rcRead _ tgt _ _ => tgt
  | .resourceGrant (.tread cell _) _ => some cell
  | .outboundFrame cell .. => some cell
  | .inboundFrame cell .. => some cell
  | .rd cell .. => some cell
  | .wr cell .. => some cell
  | .bwr cell .. => some cell
  | .fwblk cell .. => some cell
  | .cartAdmit cell .. => some cell
  | .linkTake cell .. => some cell
  | .linkRelease cell .. => some cell
  | .rateQuery cell .. => some cell
  | .rateGo cell .. => some cell
  | .ident cell .. => some cell
  | .actionInstant cell .. => some cell
  | .ditherEdge cell .. => some cell
  | .deadTimeTurnOn cell .. => some cell
  | .gateFeedbackOff cell .. => some cell
  | .gfbMismatch cell .. => some cell
  | .carrierEdge cell .. => some cell
  | .refreshRequest cell .. => some cell
  | .notchEnd cell .. => some cell
  | .carrierNotch cell .. => some cell
  | .bypConfRise cell .. => some cell
  | .bypassGatesOff cell .. => some cell
  | .bypassConfTimeout cell .. => some cell
  | .thyFirePulse cell .. => some cell
  | .bypassTest cell .. => some cell
  | .bypassRelease cell .. => some cell
  | .landingActionBase cell .. => some cell
  | .frameLossWatchdog cell .. => some cell
  | .guardWatchdog cell .. => some cell
  | .treadSupplyGood cell .. => some cell
  | .treadBootDecision cell .. => some cell
  | .treadSupplyFall cell .. => some cell
  | .ovSetMeasure cell .. => some cell
  | .guardTrip cell .. => some cell
  | .supokLoss cell .. => some cell
  | .verify cell .. => some cell
  | .verifyDone cell .. => some cell
  | .fwSwitch cell .. => some cell
  | .adcConversion cell .. => some cell
  | .desatFault cell .. => some cell
  | .digestUpdate cell .. => some cell
  | .tSchReady cell .. => some cell
  | .tSchWait cell .. => some cell
  | .tSchSleep cell .. => some cell
  | .tSchPrio cell .. => some cell
  | .tSchSuspend cell .. => some cell
  | .tSchWake cell .. => some cell
  | .tEvcSelect cell .. => some cell
  | .tFltClr cell .. => some cell
  | .blockLock l _ => l.cell
  | .lossOfLock l _ => l.cell
  | .lossOfSignal l _ => l.cell
  | .signalReturn l _ => l.cell
  | .rateSwitch l _ => l.cell
  | .linkFaultReceived l _ => l.cell
  | .linkFaultCleared l _ => l.cell
  | .farendReceived l _ => l.cell
  | .farendStops l _ => l.cell
  | _ => none

/-- The commands of the chip's supplies, clocks and resets and those of its safety island, which act while the hub's
islands are held in reset (R28, R480). -/
def Instr.whileHeld : Instr → Bool
  | .islandClockFault .. | .pllLock .. | .refLoss .. | .permitToken .. | .tokenTimeout .. | .selftestDone .. |
    .safetyInternalFault .. | .safReset .. | .safetyTrip .. | .sboRel .. | .dclr .. | .test .. | .sboPulseTest .. |
    .readbackFailure .. | .safetyInputChange .. | .discrepancyTimeout .. | .balustradeOutput .. | .balustradeClockLoss
    .. | .lockKey .. | .close .. | .abandon .. | .lockTimeout .. | .safetyDiagnostic .. | .powerOnReset .. | .resetPin
    .. | .chip .. | .thermalShutdown .. | .pfail .. | .islandClockReturn .. | .railOutOfRange .. |
    .coreVoltageOutOfRange .. | .thermalShutdownEnd .. | .resetNRelease .. | .pfailNRise .. | .jtagInstruction .. =>
    true
  | _ => false

/-- The commands of the scheduler's operations, of the CAN controllers and of the event counters. -/
def Instr.beside : Instr → Bool
  | .schReady .. | .schWait .. | .schSleep .. | .schPrio .. | .schSuspend .. | .schResume .. | .waitQ .. | .waitCyc .. |
    .flowEnter .. | .flowRelease .. | .exit .. | .start .. | .schTimeout .. | .schSwitch .. | .schResRead .. |
    .canInitWrite .. | .canIntegrationDone .. | .canProtocolException .. | .push .. | .urgent .. | .cancel .. |
    .recover .. | .canRingFetch .. | .canTxDone .. | .canBusOff .. | .canRecoveryDone .. | .canReceive .. | .rxqAck .. |
    .unlock .. | .evcSelect .. | .freeze .. => true
  | _ => false

/-- Commands of the safety island, of the Titajor ring, of hall time, of the host rings and of the cores that act on nothing of
the converter's control path. -/
def Instr.outside : Instr → Bool
  | .permitToken .. | .tokenTimeout .. | .selftestDone .. | .safetyInternalFault .. | .safReset .. | .safetyTrip .. |
    .sboRel .. | .dclr .. | .test .. | .sboPulseTest .. | .readbackFailure .. | .safetyInputChange .. |
    .discrepancyTimeout .. | .balustradeOutput .. | .balustradeClockLoss .. | .lockKey .. | .close .. | .abandon .. |
    .lockTimeout .. | .safetyDiagnostic .. | .heartbeatSend .. | .heartbeat .. | .heartbeatMissing .. | .partnerWait .. |
    .newelChange .. | .exch .. | .titajorMessageForward .. | .blockMessage .. | .tripMessage .. | .resign .. |
    .resignMessage .. | .revert .. | .revertHold .. | .stkAdmit .. | .offsetCommit .. | .ppsInEdge .. | .sourceLoss .. |
    .step .. | .timeRead .. | .txqRead .. | .ppsOutPulse .. | .doorbell .. | .readFail .. | .nop .. | .armDeblock .. |
    .armBlock .. | .ringCommit .. | .carDuty .. | .waitCycle .. | .ethTx .. | .ethTxComplete .. | .ethRxbuf .. |
    .ethReceive .. | .moderationTimer .. | .pcieLinkUp .. | .busMasterEnableWrite .. | .dispatch .. |
    .lockstepMismatch .. | .coreRun .. | .uncorrectableEccError .. | .canStartOfFrame .. => true
  | _ => false

end Sys2Proof

namespace Sys2Proof.Machine

/-! What a command changes. -/

/-- `u` is `s` after time has passed to `t`, with no register changed but those of `P`. -/
def State.RegsOnly (s : State) (t : Time) (P : Nat → Prop) (u : State) : Prop :=
  u = { s.advance t with regs := u.regs } ∧ ∀ o, ¬ P o → u.reg o = s.reg o

/-- A register of the hub whose write has no rule beside its access code: of the general block, the clocks, hall time, the
measurement inputs, the stack and the persistent bank, without their command registers and the words of the offset. -/
def plainWrite (off : Nat) : Bool :=
  [0x0, 0x1, 0x2, 0x4, 0x30, 0x58].contains (off / 0x10000) &&
    !([R.GEN_BOOT_CMD, R.GEN_DBG_CMD, R.CLK_CMD, R.CLK_RST_CMD, R.HT_CMD, R.HT_OFFS_FR, R.HT_OFFS_NS, R.HT_OFFS_S, R.MI_CMD,
      R.STK_CMD].contains off)

/-- A register of the hub whose read does nothing but clear its RC fields. -/
def plainRead (off : Nat) : Bool :=
  decide (off < 0x1000000) && !(decide (R.FLT_IQ_RDL 0 ≤ off) && decide (off < R.FLT_IQ_RDL 64) && off % 16 == 0) &&
    !([R.HT_TIME_FR, R.HT_ETH_TXQ_ID 0, R.HT_ETH_TXQ_ID 1, R.SCH_TICKL].contains off) &&
    !(decide (R.EVC_CNTL 0 ≤ off) && decide (off < R.EVC_CNTL 64) && off % 8 == 0) && off / 0x10000 != 0x4C &&
  !(decide (0x200040 ≤ off) && decide (off < 0x220000) && off % 0x1000 == 0x40)

/-- A register of a Tread whose write has no rule beside its access code. -/
def plainTread (off : Nat) : Bool :=
  !([R.T_FLT_CLR, R.T_BYP_CMD, R.T_FW_CMD, R.T_SCH_CMD, R.T_CAR_PER, R.T_CAR_PH, R.T_CAR_OPT, R.T_HT_RTT, R.T_SW_CFG].contains
    off) && !(decide (R.T_EVC_SEL 0 ≤ off) && decide (off < R.T_EVC_SEL 8))

/-- The write port of the persistent bank is free, and power allows a commit (R499, R500). -/
structure State.PortFree (s : State) : Prop where
  queue : s.prb.queue = []
  busy : s.prb.busy = none
  backlog : s.prb.backlog = []
  waiting : s.waiting 0 = []
  pfail : s.pwr.pfailLow = false
  rails : s.pwr.railBad = 0

/-- Segment `j` of the recorder is armed and takes a trigger of source `src` at hall time `h`: the source is enabled, drives
no bus line and has not fired in its cycle, and the cycle lies in what the segment keeps (R447, R448, R450). -/
structure State.ArmedFor (s : State) (src : Nat) (h : Time) (j : Nat) : Prop where
  on : s.rdB F.REC_CTRL_EN = true
  source : bitOf (s.erd F.REC_TRG_EN_EN) src = true
  fresh : bitOf (Store.get s.recd.trigs 0 (s.cycAt h)) src = false
  alone : ∀ l < 4, bitOf (s.erd (F.REC_TBUS_OUT_SRC l)) src = false
  current : s.recd.cur = some j
  armed : (s.seg j).st = 1
  first : serialLt (s.sliceNo (s.cycAt h)) (s.seg j).first = false
  window : s.sliceDist (s.sliceNo (s.cycAt h)) (s.sliceNo s.cyc) ≤ s.rd F.REC_PP_PRE + 8

/-- What a Tread will reply to the latest request it acted on. -/
def Tread.lastReply (d : Tread) : Option TRep :=
  match d.frames with
  | f :: _ => f.reps.getLast?
  | [] => none

/-- The messages in the transmit queue of a Titajor ring (R389): ring B, or ring A. -/
def State.titMsgs (s : State) (ringB : Bool) : List TitMsg := (if ringB then s.stk.txB else s.stk.txA).map Prod.snd

/-- The islands have been released with the straps `x`, and hall time has started from 0 (Table 4 of spec/17, R525). -/
structure State.ReleasedWith (x : StartIn) (u : State) : Prop where
  awake : u.pwr.held = false
  hub : u.rd F.GEN_TOPO_HUB_ID = x.hubId
  strap : u.rd F.GEN_TOPO_DUP_STRAP = x.dup
  hall : u.clk.hall = 0
  held : u.pwr.raised = []

/-- The chip reset holds the islands; the Treads and core memory stay, and every bit of a hub register outside the safety
island and the fault collector is at its reset value, but for those that a chip reset leaves (R480). -/
structure State.HeldFrom (s u : State) : Prop where
  held : u.pwr.held = true
  treads : u.treads = s.treads
  coreMem : u.coreMem = s.coreMem
  reg : ∀ o < 0x380000, u.reg o = (s.reg o &&& keepMask o) ||| (hubReset o &&& ~~~(keepMask o))

/-- The completion ring of ring `n` takes an entry at once and sends no interrupt for it. -/
structure State.CqFree (s : State) (n : Nat) : Prop where
  cqOn : s.ringOn (s.cqOf n) = true
  room : s.ringFull (s.cqOf n) = false
  held : (s.hring (s.cqOf n)).held = []
  quiet : s.rdB (F.HQ_RING_CFG_VEC_EN (s.cqOf n)) = false

/-- A descriptor is at the head of ring `n`, and the hub takes it (R408 to R412). -/
structure State.CommandAt (s : State) (n : HRing) : Prop extends s.CqFree n where
  on : s.ringOn n = true
  stays : (s.hring n).closing = false
  running : s.rdB (F.HQ_RING_STAT_ERR n) = false
  idle : (s.hring n).wait = .idle
  waiting : s.rd (F.HQ_RING_STAT_HUB_IDX n) ≠ (s.hring n).hostIdx
  master : s.rdB F.HQ_STAT_BME = true
  turn : isCmdRing n = true → s.nextRing = some n.val
  paced : ∀ x, s.host.served = some x → x.2 + ns 4 ≤ s.clk.now

/-- From `s` to `u` ring `n` has written the completion of Table 7 of spec/13 into its completion ring, and is idle. -/
structure State.Answered (s u : State) (n : HRing) (cid status result cyc : Nat) : Prop where
  entry : ∃ e, (∀ j < 16, (readByte u.hostMem (s.ringBase (s.cqOf n) +
      16 * s.rd (F.HQ_RING_STAT_HUB_IDX (s.cqOf n)) + j)).toNat = bits e (8 * j) 8) ∧
    bits e 0 16 = cid % 2 ^ 16 ∧ bits e 16 6 = n ∧ bits e 24 8 = status ∧
    bits e 32 16 = u.rd (F.HQ_RING_STAT_HUB_IDX n) ∧ bits e 64 32 = result % 2 ^ 32 ∧ bits e 96 31 = cyc % 2 ^ 31 ∧
    bits e 127 1 = s.rd (F.HQ_RING_STAT_PHASE (s.cqOf n))
  index : u.rd (F.HQ_RING_STAT_HUB_IDX (s.cqOf n)) =
    (s.rd (F.HQ_RING_STAT_HUB_IDX (s.cqOf n)) + 1) % s.ringSize (s.cqOf n)
  idle : (u.hring n).wait = .idle

/-- From `s` to `u` the hub has taken the descriptor at the head of ring `n`. -/
def State.Took (s u : State) (n : HRing) : Prop :=
  u.rd (F.HQ_RING_STAT_HUB_IDX n) = (s.rd (F.HQ_RING_STAT_HUB_IDX n) + 1) % s.ringSize n

/-- The flows and waits of the scheduler name threads that exist. -/
structure State.ThreadsExist (s : State) : Prop where
  enter : ∀ p ∈ s.sch.flows, ∀ x ∈ p.2.enter, x < 256
  out : ∀ p ∈ s.sch.flows, ∀ y ∈ p.2.out, y.2 < 256
  released : ∀ x ∈ s.sch.released, x < 256
  threads : ∀ p ∈ s.sch.threads, p.1 < 256

/-- A Tread has its supply: VDD33 is above the falling threshold (R290, R523). -/
def Tread.onSupply (d : Tread) : Bool := d.powered && d.lowAt.isNone

/-- A register that no raise writes. -/
def quietReg (o : Nat) : Prop :=
  (o < 0x3C0000 ∧ o ≠ 0x314) ∨ (0x3C0084 ≤ o ∧ o < 0x3C1000) ∨ (0x3C4000 ≤ o ∧ o < 0x400000) ∨ (0x400020 ≤ o ∧ o < 0x400100) ∨
    o = 0x480000 ∨ (0x480010 ≤ o ∧ o < 0x480028) ∨ (0x48002C ≤ o ∧ o < 0x501400 ∧ o ≠ 0x500010)

/-- No code of a later row of Table 6 of spec/09 has started in the clock of the latest code (R307): a code of this row that
starts now is the latest of the log. -/
def Tread.FirstOf (d : Tread) (code : Nat) : Prop := ∀ c ∈ d.fqNow, codeRow c ≤ codeRow code

/-- Output `n` of preset `p` of channel `c` is complete (R87 to R89, R92, R97, R98): from the state `x` in which its bits have
been sampled to `u`, the register holds the code of their density, the flags and the next sequence number, and the log has
the word at its instant. -/
structure State.OutputFrom (x u : State) (c p n : Nat) : Prop where
  code : sext 24 (u.reg (presetReg c p)).toNat =
    codeOf (density p (nth (x.chan c).sinc p {}).outs).1 (density p (nth (x.chan c).sinc p {}).outs).2
  clkf : bits (u.reg (presetReg c p)).toNat 25 1 = 0
  settling : bits (u.reg (presetReg c p)).toNat 26 1 = b2n (decide (n * presetOsr p < (x.chan c).startIx + presetSpan p))
  stuck : (x.chan c).stuck = true → bits (u.reg (presetReg c p)).toNat 24 1 = 1
  seq : bits (u.reg (presetReg c p)).toNat 27 5 =
    if (x.outputs c p).isEmpty then 1 else (bits (x.reg (presetReg c p)).toNat 27 5 + 1) % 32
  log : (u.outputs c p).head? = some (x.clk.hall, u.reg (presetReg c p))
  no : nth (u.chan c).outNo p 0 = if p < (x.chan c).outNo.length then n else 0

/-- The latch of source `32 j + b` is set. -/
def State.latched (s : State) (j b : Nat) : Bool := s.rdB ⟨R.FLT_LATCH j, b, 1⟩

/-- `t` differs from `s` only in what a raise may change. -/
structure RaiseKeeps (s t : State) : Prop where
  eff : t.eff = s.eff
  clk : t.clk = s.clk
  prb : t.prb = s.prb
  pwr : t.pwr = s.pwr
  arb : t.arb = s.arb
  coreMem : t.coreMem = s.coreMem
  ports : t.ports = s.ports
  mi : t.mi = s.mi
  miApply : t.miApply = s.miApply
  miLog : t.miLog = s.miLog
  miHeld : t.miHeld = s.miHeld
  ace : t.ace = s.ace
  gal : t.gal = s.gal
  treads : t.treads = s.treads
  uplinks : t.uplinks = s.uplinks
  downlinks : t.downlinks = s.downlinks
  cellWin : t.cellWin = s.cellWin
  can : t.can = s.can
  freeCtr : t.freeCtr = s.freeCtr
  rdata : t.rdata = s.rdata
  pending : t.pending = s.pending
  reg : ∀ o, quietReg o → t.reg o = s.reg o
  latch : ∀ j b, s.latched j b = true → j < 17 → t.latched j b = true

/-! Runs. -/

/-- `n` steps, or the outcome that ends them. -/
def State.run (n : Nat) (s : State) : Host.Outcome State Fault Refusal :=
  match n with
  | 0 => .next s
  | m + 1 =>
    match step s with
    | .next u => u.run m
    | o => o

/-- Commands executed one after the other, or the outcome that ends them. -/
def execAll (l : List Instr) (s : State) : Host.Outcome State Fault Refusal :=
  match l with
  | [] => .next s
  | c :: r =>
    match exec c s with
    | .next u => execAll r u
    | o => o

/-! Safe states. -/

/-- Leg `leg` of a Tread: not both outputs on, and a pending turn-on is of this leg with its other output off. -/
def Tread.legSafe (d : Tread) (leg : Nat) : Prop :=
  ¬((d.out (2 * leg)).on = true ∧ (d.out (2 * leg + 1)).on = true) ∧
    ∀ p, d.turnOn leg = some p → p.out / 2 = leg ∧ (d.out (otherOut p.out)).on = false

/-- No leg of a Tread can short its cell. -/
def Tread.noShort (d : Tread) : Prop := d.legSafe 0 ∧ d.legSafe 1

/-- No leg of any Tread can short its cell. -/
def State.noShort (s : State) : Prop := ∀ i : Cell, (s.tread i).noShort

end Sys2Proof.Machine
end

