-- ==== Sys2Proof/WellFormed.lean ====
section
/-!
DEFINITION. WellFormed.lean: the ranges of the operands that have no type of their own: offsets are those of words, a
conversion's value has a denominator, fields of a descriptor have their widths (Table 4 of spec/13), a frame holds 33 carriages and
8 carts. A command outside them is none that the outside world can give.
-/

namespace Sys2Proof

def Instr.wf (c : Instr) : Bool :=
  match c with
  | .registerWrite _ tgt off _ _ => off % 4 == 0 && off < (if tgt.isSome then 0x1000 else 2 ^ 32)
  | .rcRead _ tgt off _ => off % 4 == 0 && off < (if tgt.isSome then 0x1000 else 2 ^ 32)
  | .resourceGrant (.hub _ asks) _ => asks.all (fun a => a.off % 4 == 0 && a.off < 2 ^ 32)
  | .resourceGrant (.tread _ asks) _ => asks.all (fun a => a.off % 4 == 0 && a.off < 0x1000)
  | .cycleStart off => off.length ≤ 32 && off.all (fun x => x ≤ 6 * 65536)
  | .presetOutput _ _ _ _ _ _ => true
  | .adcConversion _ _ den _ _ _ => 0 < den
  | .iqRead _ ecc _ => ecc ≤ 2
  | .relayDn _ _ _ _ _ _ _ cars carts _ _ _ => cars.length ≤ 33 && carts.length ≤ 8
  | .avsPeriod _ mons vmeas _ => mons.length = 16 && mons.all (fun x => decide (x < 2 ^ 8)) && vmeas < 2 ^ 12
  | .bar2Write off bytes _ => off + bytes.length ≤ 2 ^ 25
  | .badAcc _ off n _ => off < 2 ^ 24 && 0 < n && n ≤ 8
  | .doorbell _ idx _ => idx < 2 ^ 16
  | .nop _ opc cid _ => opc < 2 ^ 8 && cid < 2 ^ 16
  | .regWr _ cid off _ _ _ => cid < 2 ^ 16 && off < 2 ^ 32
  | .regRd _ cid off _ => cid < 2 ^ 16 && off < 2 ^ 32
  | .mbxCommit _ cid m words _ => cid < 2 ^ 16 && m < 2 ^ 32 && words.length == 4
  | .armDeblock _ cid mask _ => cid < 2 ^ 16 && mask < 2 ^ 32
  | .armBlock _ cid mask _ => cid < 2 ^ 16 && mask < 2 ^ 32
  | .ringCommit _ cid mask k _ _ => cid < 2 ^ 16 && mask < 2 ^ 32 && k < 2 ^ 32
  | .carDuty _ cid cell _ _ _ => cid < 2 ^ 16 && cell < 2 ^ 32
  | .waitCycle _ cid k _ => cid < 2 ^ 16 && k < 2 ^ 32
  | .ethTx _ cid _ _ _ _ _ => cid < 2 ^ 16
  | .ethRxbuf _ cid _ addr _ _ => cid < 2 ^ 16 && addr < 2 ^ 64
  | .cart _ _ cid _ op pos arg data raddr _ => cid < 2 ^ 16 && op < 16 && pos < 32 && arg < 2 ^ 16 && data < 2 ^ 64 && raddr < 2 ^ 64
  | .canRingFetch _ words _ => words.length ≤ 24
  | .canTxDone _ _ _ tec rec _ => tec < 2 ^ 9 && rec < 2 ^ 8
  | .canReceive _ _ _ _ tec rec _ => tec < 2 ^ 9 && rec < 2 ^ 8
  | .pcieLinkUp speed width _ => 1 ≤ speed && speed ≤ 4 && [1, 2, 4, 8].contains width
  | .counterLowRead _ _ _ => true
  | .pwCommit _ => true
  | .topologyWrite _ _ _ _ => true
  | .requestWithdrawal _ _ _ _ => true
  | .islandClockFault _ _ => true
  | .cycleLengthWrite _ _ _ => true
  | .cycleControlWrite _ _ _ => true
  | .trainArrival _ _ _ _ => true
  | .galleryDeadline => true
  | .lateTrainComplete _ _ _ _ => true
  | .miClockFault _ _ _ => true
  | .miClockRecovery _ _ _ => true
  | .modulatorStuck _ _ => true
  | .modulatorStuckEnd _ _ => true
  | .miConfigWrite _ _ _ _ => true
  | .scaleApply _ => true
  | .realign _ => true
  | .enginePass => true
  | .stgCommit _ _ _ => true
  | .mailboxCommitGrant _ _ => true
  | .editBankWrite _ _ _ => true
  | .copy _ => true
  | .copyDone _ => true
  | .check _ => true
  | .checkDone _ => true
  | .switch _ => true
  | .injectStart _ => true
  | .injectStop _ => true
  | .captureStart _ => true
  | .captureStop _ => true
  | .dftDone _ => true
  | .galleryRanking _ _ => true
  | .bandAdapt _ => true
  | .estimatorWindow _ => true
  | .healthCheck _ => true
  | .galleryWrite _ _ _ => true
  | .estimateLoad _ _ _ _ => true
  | .blockLock _ _ => true
  | .lossOfLock _ _ => true
  | .lossOfSignal _ _ => true
  | .signalReturn _ _ => true
  | .outboundFrame _ _ _ _ _ => true
  | .inboundFrame _ _ _ => true
  | .rd _ _ _ _ _ _ => true
  | .wr _ _ _ _ _ _ _ => true
  | .bwr _ _ _ _ _ _ => true
  | .fwblk _ _ _ _ _ => true
  | .cartAdmit _ _ _ _ _ => true
  | .linkTake _ _ _ _ => true
  | .linkRelease _ _ _ _ => true
  | .rateQuery _ _ _ _ => true
  | .rateGo _ _ _ _ _ => true
  | .ident _ _ _ _ _ => true
  | .rpConfigWrite _ _ _ => true
  | .enum _ _ => true
  | .enumUnstable _ _ => true
  | .rejoin _ _ => true
  | .rate _ _ => true
  | .rateSwitch _ _ => true
  | .rpAdmit _ _ _ => true
  | .farEndMissing _ _ => true
  | .ringSplit _ _ => true
  | .offsetCommit _ _ => true
  | .ppsInEdge _ => true
  | .sourceLoss _ => true
  | .step _ => true
  | .hallStep => true
  | .timeRead _ => true
  | .rttBroadcast _ => true
  | .txqRead _ _ => true
  | .ppsOutPulse => true
  | .pllLock _ _ _ _ => true
  | .pllLockLoss _ _ _ _ => true
  | .apply _ => true
  | .applyComplete _ => true
  | .applyTimeout _ => true
  | .refLoss _ => true
  | .syncArm _ => true
  | .clkSyncEdge _ => true
  | .actionInstant _ => true
  | .ditherEdge _ => true
  | .deadTimeTurnOn _ _ => true
  | .gateFeedbackOff _ _ _ => true
  | .gfbMismatch _ _ _ => true
  | .carrierEdge _ _ => true
  | .refreshRequest _ _ => true
  | .notchEnd _ => true
  | .carrierNotch _ => true
  | .bypConfRise _ _ => true
  | .bypassGatesOff _ => true
  | .bypassConfTimeout _ => true
  | .thyFirePulse _ => true
  | .bypassTest _ _ _ _ => true
  | .bypassRelease _ _ _ => true
  | .landingActionBase _ _ => true
  | .frameLossWatchdog _ => true
  | .guardWatchdog _ _ => true
  | .treadSupplyGood _ _ _ _ => true
  | .treadBootDecision _ _ => true
  | .treadSupplyFall _ _ _ => true
  | .ovSetMeasure _ _ _ => true
  | .guardTrip _ _ => true
  | .supokLoss _ _ => true
  | .verify _ _ => true
  | .verifyDone _ _ => true
  | .fwSwitch _ _ _ => true
  | .desatFault _ _ _ => true
  | .digestUpdate _ _ => true
  | .tSchReady _ _ _ => true
  | .tSchWait _ _ => true
  | .tSchSleep _ _ => true
  | .tSchPrio _ _ _ _ => true
  | .tSchSuspend _ _ _ => true
  | .tSchWake _ _ => true
  | .tEvcSelect _ _ _ _ => true
  | .severityWrite _ _ _ _ => true
  | .latchClear _ _ _ _ _ => true
  | .tFltClr _ _ _ => true
  | .permitToken _ => true
  | .tokenTimeout _ => true
  | .selftestDone _ _ => true
  | .safetyInternalFault _ => true
  | .safReset _ _ _ _ _ => true
  | .safetyTrip _ => true
  | .sboRel _ _ => true
  | .dclr _ _ => true
  | .test _ => true
  | .sboPulseTest _ _ _ => true
  | .readbackFailure _ _ _ _ => true
  | .safetyInputChange _ _ _ _ _ => true
  | .discrepancyTimeout _ _ => true
  | .balustradeOutput _ _ _ _ _ => true
  | .balustradeClockLoss _ _ _ => true
  | .lockKey _ _ => true
  | .close _ => true
  | .abandon _ => true
  | .lockTimeout _ => true
  | .safetyDiagnostic _ _ _ => true
  | .heartbeatSend => true
  | .heartbeat _ _ _ _ _ _ _ => true
  | .heartbeatMissing _ _ => true
  | .partnerWait _ => true
  | .newelChange _ => true
  | .timeMessage _ _ _ _ _ _ _ _ => true
  | .blockMessage _ _ _ => true
  | .tripMessage _ _ _ => true
  | .resign _ _ => true
  | .resignMessage _ _ => true
  | .revert _ _ => true
  | .revertHold _ => true
  | .stkAdmit _ _ => true
  | .admitMessage _ _ => true
  | .relayUp _ _ _ => true
  | .exch _ _ _ _ _ _ _ => true
  | .snapshot _ _ => true
  | .journal _ _ => true
  | .snapshotLoadDone _ => true
  | .replayDone _ => true
  | .powerOnReset _ _ => true
  | .resetPin _ _ => true
  | .chip _ _ _ _ _ => true
  | .thermalShutdown _ _ => true
  | .pfail _ => true
  | .bootVerify _ _ _ => true
  | .go _ _ _ => true
  | .chal _ _ => true
  | .submit _ _ => true
  | .debugCheckDone _ => true
  | .debugClose _ _ => true
  | .hostReset _ _ => true
  | .ringConfigWrite _ _ _ _ => true
  | .readFail _ _ => true
  | .ethTxComplete _ _ _ => true
  | .ethReceive _ _ _ _ _ => true
  | .moderationTimer _ _ => true
  | .schReady _ _ _ => true
  | .schWait _ _ => true
  | .schSleep _ _ => true
  | .schPrio _ _ _ _ => true
  | .schSuspend _ _ _ => true
  | .schResume _ _ _ => true
  | .waitQ _ _ _ => true
  | .waitCyc _ _ => true
  | .flowEnter _ _ _ => true
  | .flowRelease _ _ _ => true
  | .exit _ _ => true
  | .start _ _ _ => true
  | .schTimeout _ => true
  | .dispatch _ => true
  | .schSwitch _ _ _ _ => true
  | .schResRead _ _ => true
  | .lockstepMismatch _ _ => true
  | .coreRun _ _ _ => true
  | .trigInEdge _ _ _ => true
  | .trig _ => true
  | .recStop _ => true
  | .recFree _ _ => true
  | .recEnable _ _ => true
  | .segmentFull _ => true
  | .segmentCopyDone _ => true
  | .canInitWrite _ _ _ => true
  | .canIntegrationDone _ _ => true
  | .push _ _ _ => true
  | .urgent _ _ _ => true
  | .cancel _ _ _ _ => true
  | .recover _ _ => true
  | .canStartOfFrame _ _ => true
  | .canBusOff _ _ => true
  | .canRecoveryDone _ _ => true
  | .rxqAck _ _ _ => true
  | .smbLockRead _ _ _ _ => true
  | .smbUnlockRead _ _ _ _ => true
  | .unlock _ _ _ => true
  | .evcSelect _ _ _ _ => true
  | .freeze _ _ => true
  | .linkFaultReceived _ _ => true
  | .linkFaultCleared _ _ => true
  | .farendReceived _ _ => true
  | .farendStops _ _ => true
  | .farEndCopyArrival _ _ _ => true
  | .titajorMessageForward _ _ _ => true
  | .islandClockReturn _ _ => true
  | .railOutOfRange _ _ _ => true
  | .coreVoltageOutOfRange _ _ _ => true
  | .dieTemperatureHigh c _ => decide (-128 ≤ c) && decide (c ≤ 127)
  | .thermalShutdownEnd _ _ _ => true
  | .resetNRelease _ _ => true
  | .pfailNRise _ => true
  | .uncorrectableEccError _ _ => true
  | .busMasterEnableWrite _ _ _ => true
  | .jtagInstruction _ _ _ => true
  | .canProtocolException _ _ => true

end Sys2Proof
end

