-- ==== Sys2Proof/Certificates/Slice0/Obligations.lean ====
section
/-!
DEFINITION. Certificates/Slice0/Obligations.lean: the statements for the provers. They speak of exec, of step and of the
readings of the state that Safety.lean and the machine's own files define.
-/

open Sys2Proof Sys2Proof.Machine

/-- A step executes the front command on the queue's rest; an empty queue idles (DESIGN CHOICE, log entry 2). -/
def Obligations.StepTakesTheFrontCommand : Prop :=
  (∀ (s : State) (c : Instr) (r : List Instr), s.pending = c :: r → step s = exec c { s with pending := r }) ∧
  ∀ s : State, s.pending = [] → step s = .next s

/-- No command stops, and none touches the queue. -/
def Obligations.EveryCommandCompletes : Prop :=
  ∀ (c : Instr) (s : State), ∃ u, exec c s = .next u ∧ u.pending = s.pending

/-- First in, first out: a run executes the queue in order, and what it leaves of the queue is the rest. -/
def Obligations.RunsTakeTheQueueInOrder : Prop :=
  ∀ (cs ds : List Instr) (s : State), s.pending = cs ++ ds →
    s.run cs.length = execAll cs { s with pending := ds } ∧ ∃ u, s.run cs.length = .next u ∧ u.pending = ds

/-- What does not belong to a command's side of the ring stays. -/
def Obligations.CommandsStayOnTheirSideOfTheRing : Prop :=
  (∀ (c : Instr) (s u : State) (j : Cell), exec c s = .next u → c.cell ≠ some j → u.tread j = s.tread j) ∧
  ∀ (c : Instr) (i : Cell) (s u : State), c.cell = some i → exec c s = .next u →
    u = { s with treads := u.treads, rdata := u.rdata }

/-- A write of a register that has no rule of its own (R9): RW bits take the value written, W1C bits clear where 1 is
written and they stood before the write's instant (an event of the same instant wins, R9), every other bit and every other register stays; at the hub and at a Tread. -/
def Obligations.RegisterWriteChangesItsWritableBits : Prop :=
  (∀ (s : State) (who : Requester) (off : Nat) (v : Word) (t : Time) (r : RegRow), s.pwr.held = false →
    (s.advance t).reaches who off = true → plainWrite off = true → regRow off = some r → r.pw = 0 → r.lrw = 0 →
    ∃ u, exec (.registerWrite who none off v t) s = .next u ∧
      u.reg off = ((s.reg off &&& ~~~ (BitVec.ofNat 32 r.rw)) ||| (v &&& BitVec.ofNat 32 r.rw)) &&&
        ~~~ (v &&& BitVec.ofNat 32 r.w1c &&& (s.advance t).before off) ∧
      s.RegsOnly t (· = off) u) ∧
  (∀ (s : State) (who : Requester) (i : Cell) (off : Nat) (v : Word) (t : Time) (r : RegRow), (s.tread i).onSupply = true →
    plainTread off = true → treadRow off = some r → r.pw = 0 →
    ∃ u, exec (.registerWrite who (some i) off v t) s = .next u ∧
      (u.tread i).reg off = (((s.tread i).reg off &&& ~~~ (BitVec.ofNat 32 r.rw)) ||| (v &&& BitVec.ofNat 32 r.rw)) ∧
      (∀ o, o ≠ off → (u.tread i).reg o = (s.tread i).reg o) ∧
      u = { s with treads := u.treads } ∧ ∀ j : Cell, j ≠ i → u.tread j = s.tread j)

/-- Reads (R6, R9): the value is answered, RC fields clear but for the events of the read's own instant, nothing else
changes; a requester that does not reach a register reads 0; a word not committed holds its read back (R499); the low
word of a counter latches its high word. -/
def Obligations.ReadsAnswerThenClear : Prop :=
  (∀ (s : State) (who : Requester) (off : Nat) (t : Time) (r : RegRow), s.pwr.held = false →
    (s.advance t).reaches who off = true → plainRead off = true → regRow off = some r →
    (s.advance t).heldBack off = false →
    ∃ u, exec (.rcRead who none off t) s = .next u ∧ u.rdata = (s.advance t).seen who off ∧
      u.reg off = (rcSplit (s.reg off) ((s.advance t).before off) (BitVec.ofNat 32 r.rc)).2 ∧
      u = { s.advance t with
            regs := u.regs, rdata := u.rdata, clk := { (s.advance t).clk with before := u.clk.before } } ∧
      ∀ o, o ≠ off → u.reg o = s.reg o) ∧
  (∀ (s : State) (who : Requester) (off : Nat) (t : Time), s.pwr.held = false → (s.advance t).reaches who off = false →
    ∃ u, exec (.rcRead who none off t) s = .next u ∧ u = { s.advance t with rdata := 0 }) ∧
  (∀ (s : State) (who : Requester) (off : Nat) (t : Time), s.pwr.held = false → (s.advance t).reaches who off = true →
    plainRead off = true → (s.advance t).heldBack off = true →
    exec (.rcRead who none off t) s =
      .next { s.advance t with prb := { s.prb with reads := s.prb.reads ++ [(who, off)] } }) ∧
  (∀ (s : State) (who : Requester) (i : Cell) (off : Nat) (t : Time) (r : RegRow) (d : Tread),
    (s.tread i).powered = true → treadRow off = some r → off ≠ R.T_LN_EQN → off ≠ R.T_LN_EQF →
    d = ((s.tread i).advance t).ageLand →
    ∃ u, exec (.rcRead who (some i) off t) s = .next u ∧
      (off ≠ R.T_SCH_TICK → off ≠ R.T_STAT →
        u.rdata = (rcSplit (d.reg off) (d.old off) (BitVec.ofNat 32 r.rc)).1 &&& BitVec.ofNat 32 r.rd ∧
        (u.tread i).reg off = (rcSplit (d.reg off) (d.old off) (BitVec.ofNat 32 r.rc)).2) ∧
      (∀ o, o ≠ off → (u.tread i).reg o = d.reg o) ∧
      u = { s with treads := u.treads, rdata := u.rdata } ∧ ∀ j : Cell, j ≠ i → u.tread j = s.tread j) ∧
  (∀ (s : State) (who : Requester) (n : Fin 64) (t : Time), s.pwr.held = false →
    (s.advance t).reaches who (R.EVC_CNTL n) = true → (s.advance t).heldBack (R.EVC_CNTL n) = false →
    ∃ u, exec (.counterLowRead who (some n) t) s = .next u ∧
      u.rdata = BitVec.ofNat 32 (Store.get s.evc {} n.val).count ∧
      u.reg (R.EVC_CNTH n) = BitVec.ofNat 32 ((Store.get s.evc {} n.val).count / 2 ^ 32) ∧
      ∀ o, o ≠ R.EVC_CNTH n → u.reg o = s.reg o) ∧
  (∀ (s : State) (who : Requester) (t : Time), s.pwr.held = false → (s.advance t).reaches who R.SCH_TICKL = true →
    (s.advance t).heldBack R.SCH_TICKL = false →
    ∃ u, exec (.counterLowRead who none t) s = .next u ∧ u.rdata = BitVec.ofNat 32 (s.advance t).schTick ∧
      u.reg R.SCH_TICKH = BitVec.ofNat 32 ((s.advance t).schTick / 2 ^ 32) ∧ ∀ o, o ≠ R.SCH_TICKH → u.reg o = s.reg o)

/-- A PW word (R43, R499, R506, R540): presented to a free write port its commit starts at once, where an arm is deblocked
a topology word is ignored with source 0x002; when the commit completes the value governs and the block's wear counts. -/
def Obligations.PersistentWordGovernsAfterItsCommit : Prop :=
  (∀ (s : State) (who : Requester) (which : Fin 11) (v : Word) (t : Time), s.pwr.held = false →
    (s.advance t).reaches who (topoReg which) = true → s.PortFree →
    s.readOnly (prbBlockOf (topoReg which)) = false → s.anyDeblocked = false →
    ∃ u, exec (.topologyWrite who which v t) s = .next u ∧
      u.prb.busy.map (fun w => (w.who, w.off)) = some (who, topoReg which) ∧
      ∀ o, quietReg o → o < 0x80000 → u.reg o = s.reg o) ∧
  (∀ (s : State) (who : Requester) (which : Fin 11) (v : Word) (t : Time), s.pwr.held = false →
    (s.advance t).reaches who (topoReg which) = true → s.PortFree →
    s.readOnly (prbBlockOf (topoReg which)) = false → s.anyDeblocked = true →
    ∃ u, exec (.topologyWrite who which v t) s = .next u ∧
      u.prb.busy = none ∧ u.latchBit 0x002 = true ∧ u.reg (topoReg which) = s.reg (topoReg which)) ∧
  (∀ (s : State) (w : PwWord) (t : Time) (r : RegRow), s.pwr.held = false → s.prb.busy = some w → s.prb.queue = [] →
    s.prb.backlog = [] → s.waiting 0 = [] → regRow w.off = some r → w.who ≠ .hubHw → w.who ≠ .safety → w.tag = 0 →
    (∀ p ∈ s.prb.wear, p.2 + 1 < 90000000) → s.prb.reads = [] →
    (∀ (n : Fin 16) (cid off : Nat), (s.hring n).wait ≠ .rd cid off) →
    ∃ u, exec (.pwCommit t) s = .next u ∧
      u.reg w.off = (s.reg w.off &&& ~~~ (BitVec.ofNat 32 r.pw)) ||| (w.val &&& BitVec.ofNat 32 r.pw) ∧
      u.prb.busy = none ∧ u.wearOf (prbBlockOf w.off) = s.wearOf (prbBlockOf w.off) + 1)

/-- Grants (R36 to R39): the first request in order is granted, the others wait in that order, the new ones among them are
counted; a withdrawal removes one request alone. -/
def Obligations.GrantsKeepTheirOrder : Prop :=
  (∀ (s : State) (res : Fin 12) (asks : List Ask) (t : Time) (g : Bool × WaitReq) (r : List (Bool × WaitReq)),
    s.pwr.held = false → res.val ≠ 0 → res.val ≠ 1 → res.val ≠ 11 →
    slotOrder WaitReq.isSafety WaitReq.lt (s.waiting res)
      (asks.map (fun a => { who := a.who, key := a.key, off := a.off, val := a.val })) = g :: r →
    ∃ u, exec (.resourceGrant (.hub res asks) t) s = .next u ∧ u.waiting res = r.map (fun x => x.2) ∧
      u.rd (F.GEN_CONT_COUNT res) =
        min (s.rd (F.GEN_CONT_COUNT res) + (r.filter (fun x => x.1)).length) (2 ^ 32 - 1)) ∧
  (∀ (s : State) (res : Fin 12) (t : Time), s.pwr.held = false → res.val ≠ 0 → s.waiting res = [] →
    ∃ u, exec (.resourceGrant (.hub res []) t) s = .next u ∧ u.waiting res = [] ∧ ∀ o, u.reg o = s.reg o) ∧
  (∀ (s : State) (res : Fin 12) (a : Ask) (t : Time) (row : RegRow), s.pwr.held = false → res.val = 1 ∨ res.val = 11 →
    s.waiting res = [] → ((s.advance t).setWaiting res []).reaches a.who a.off = true → plainWrite a.off = true →
    regRow a.off = some row → row.pw = 0 → row.lrw = 0 →
    ∃ u, exec (.resourceGrant (.hub res [a]) t) s = .next u ∧ u.waiting res = [] ∧
      u.reg a.off = ((s.reg a.off &&& ~~~ (BitVec.ofNat 32 row.rw)) ||| (a.val &&& BitVec.ofNat 32 row.rw)) &&&
        ~~~ (a.val &&& BitVec.ofNat 32 row.w1c &&& (s.advance t).before a.off)) ∧
  (∀ (s : State) (i : Cell) (a : TAsk) (t : Time) (row : RegRow), (s.tread i).onSupply = true →
    (s.tread i).asks = [] → a.who = .firmware → plainTread a.off = true → treadRow a.off = some row → row.pw = 0 →
    ∃ u, exec (.resourceGrant (.tread i [a]) t) s = .next u ∧ (u.tread i).asks = [] ∧
      (u.tread i).reg a.off = (((s.tread i).reg a.off &&& ~~~ (BitVec.ofNat 32 row.rw)) |||
        (a.val &&& BitVec.ofNat 32 row.rw)) ∧ ∀ j : Cell, j ≠ i → u.tread j = s.tread j) ∧
  (∀ (s : State) (a : Ask) (n : Fin 2048) (t : Time), s.pwr.held = false → s.PortFree → a.off = R.PRB_USER n →
    s.readOnly (prbBlockOf a.off) = false →
    ∃ u, exec (.resourceGrant (.hub 0 [a]) t) s = .next u ∧ u.prb.busy = some ⟨a.who, a.off, a.val, 0⟩ ∧
      ∀ o, u.reg o = s.reg o) ∧
  (∀ (s : State) (res : Fin 12) (who : Requester) (key : Nat) (t : Time), s.pwr.held = false →
    ∃ u, exec (.requestWithdrawal res who key t) s = .next u ∧
      u.waiting res = (s.waiting res).filter (fun r => !(r.who == who && r.key == key)) ∧
      ∀ o : Fin 12, o ≠ res → u.waiting o = s.waiting o)

/-- Words with a write condition (R49, R103, R321, R343, R540), and `GEN_CYC_CTRL` (R80). -/
def Obligations.ConditionedWordsAreJudged : Prop :=
  (∀ (s : State) (who : Requester) (v : Word) (t : Time), s.pwr.held = false → (s.advance t).reaches who R.GEN_CYC_LEN = true →
    s.PortFree → s.readOnly (prbBlockOf R.GEN_CYC_LEN) = false →
    ∃ u, exec (.cycleLengthWrite who v t) s = .next u ∧
      (s.anyDeblocked = false ∧ 100 ≤ bits v.toNat 0 11 ∧ bits v.toNat 0 11 ≤ 2000 →
        u.prb.busy = some ⟨who, R.GEN_CYC_LEN, v &&& 0x7FF, 0⟩ ∧ ∀ o, quietReg o → u.reg o = s.reg o) ∧
      (s.anyDeblocked = true ∨ bits v.toNat 0 11 < 100 ∨ 2000 < bits v.toNat 0 11 →
        u.prb.busy = none ∧ u.latchBit 0x003 = true ∧ u.reg R.GEN_CYC_LEN = s.reg R.GEN_CYC_LEN)) ∧
  (∀ (s : State) (who : Requester) (v : Word) (t : Time), s.pwr.held = false → (s.advance t).reaches who R.GEN_CYC_CTRL = true →
    s.PortFree → s.readOnly (prbBlockOf R.GEN_CYC_CTRL) = false →
    ∃ u, exec (.cycleControlWrite who v t) s = .next u ∧ u.prb.busy = some ⟨who, R.GEN_CYC_CTRL, v &&& 0xF, 0⟩ ∧
      ∀ o, u.reg o = s.reg o) ∧
  (∀ (s : State) (who : Requester) (c : Option Chan) (v : Word) (t : Time) (off : Nat) (r : RegRow), s.pwr.held = false →
    off = (match c with | some c => R.MI_CFG c | none => R.MI_CTRL) → regRow off = some r →
    (s.advance t).reaches who off = true → s.PortFree → s.readOnly (prbBlockOf off) = false →
    ∃ u, exec (.miConfigWrite who c v t) s = .next u ∧
      (s.anyDeblocked = false ∧ miInRange off (v &&& BitVec.ofNat 32 r.pw) = true →
        u.prb.busy = some ⟨who, off, v &&& BitVec.ofNat 32 r.pw, 0⟩ ∧ ∀ o, quietReg o → u.reg o = s.reg o) ∧
      (s.anyDeblocked = true ∨ miInRange off (v &&& BitVec.ofNat 32 r.pw) = false →
        u.prb.busy = none ∧ u.latchBit 0x006 = true ∧ u.reg off = s.reg off)) ∧
  (∀ (s : State) (who : Requester) (src : Fin 544) (v : Word) (t : Time), s.pwr.held = false → s.PortFree →
    s.readOnly (prbBlockOf (R.FLT_SEV src)) = false →
    ∃ u, exec (.severityWrite who src v t) s = .next u ∧
      (srcSafety src = false →
        u.prb.busy = some ⟨who, R.FLT_SEV src,
          BitVec.ofNat 32 (max (s.rd (F.FLT_SEV_FLOOR src)) (min 4 (v.toNat % 8))), 0⟩ ∧
        (min 4 (v.toNat % 8) < s.rd (F.FLT_SEV_FLOOR src) → u.rdB F.FLT_ERR_FLOOR = true)) ∧
      (srcSafety src = true → u.latchBit 0x00F = true ∧ u.prb = s.prb))

/-- Event counters (R508 to R510): what a selection, a freeze and a count change. -/
def Obligations.EventCountersSelectFreezeAndCount : Prop :=
  (∀ (s : State) (n : Fin 64) (src : Fin 512) (clear : Bool) (t : Time), s.pwr.held = false →
    ∃ u, exec (.evcSelect n src clear t) s = .next u ∧
      Store.get u.evc {} n = { src := src, count := 0, wrap := (Store.get s.evc {} n).wrap && !clear } ∧
      (∀ m, m ≠ n.val → Store.get u.evc {} m = Store.get s.evc {} m) ∧ u.regs = s.regs) ∧
  (∀ (s : State) (v : Bool) (t : Time), s.pwr.held = false →
    ∃ u, exec (.freeze v t) s = .next u ∧ u.rdB F.EVC_CTRL_FREEZE = v ∧ s.RegsOnly t (· = R.EVC_CTRL) u ∧
      ∀ src k, (v = true → u.count src k = u) ∧
        (v = false → ∀ m c, (m, c) ∈ u.evc → (m, c.add src k) ∈ (u.count src k).evc)) ∧
  (∀ (c : EvcCounter) (src k : Nat), c.count < 2 ^ 48 →
    (c.src ≠ src → c.add src k = c) ∧
    (c.src = src → (c.add src k).count = (c.count + k) % 2 ^ 48 ∧ (c.add src k).src = src ∧
      ((c.add src k).wrap = true ↔ c.wrap = true ∨ 2 ^ 48 ≤ c.count + k)))

/-- The recorder (R445, R447, R450 to R453): how a segment is armed, triggered, filled, delivered and freed. -/
def Obligations.RecorderMovesItsSegments : Prop :=
  (∀ (s : State) (n : Fin 4) (h : Time) (j : Nat) (level : Bool), s.pwr.held = false → s.ArmedFor n h j →
    bitOf s.recd.trigIn n = !level →
    ∃ u, exec (.trigInEdge n level h) s = .next u ∧
      (s.erd (F.REC_TRG_CFG_EDGE n) = (if level then 0 else 1) ∨ 2 ≤ s.erd (F.REC_TRG_CFG_EDGE n) →
        (u.seg j).st = 2 ∧ (u.seg j).tsrc = 2 ^ n.val ∧ (u.seg j).trigHall = h ∧ u.rdB F.REC_STAT_POST = true) ∧
      (s.erd (F.REC_TRG_CFG_EDGE n) = (if level then 1 else 0) →
        bitOf u.recd.trigIn n = level ∧ u.recd.segs = s.recd.segs ∧ u.regs = s.regs)) ∧
  (∀ (s : State) (t : Time) (j : Nat), s.pwr.held = false → s.ArmedFor 25 (s.advance t).clk.hall j →
    ∃ u, exec (.trig t) s = .next u ∧ (u.seg j).st = 2 ∧ (u.seg j).tsrc = 2 ^ 25 ∧
      (u.seg j).trigHall = (s.advance t).clk.hall ∧ u.rdB F.REC_STAT_POST = true) ∧
  (∀ (s : State) (t : Time) (j : Nat), s.pwr.held = false → s.recd.cur = some j → (s.seg j).st = 1 →
    ∃ u, exec (.recStop t) s = .next u ∧ u.recd.cur = none ∧ u.seg j = {} ∧ u.rdB F.REC_STAT_ARMED = false ∧
      ∀ o, o ≠ R.REC_STAT → u.reg o = s.reg o) ∧
  (∀ (s : State) (j : Fin 4096) (t : Time), s.pwr.held = false → s.recd.cur.isSome = true → (s.seg j).st = 3 →
    s.rdB F.REC_CTRL_DELIV = false →
    ∃ u, exec (.recFree j t) s = .next u ∧ u.seg j = {} ∧ u.recd.full = s.recd.full.filter (fun x => x != j.val) ∧
      (∀ i, i ≠ j.val → u.seg i = s.seg i) ∧ ∀ o, o ≠ R.REC_STAT → u.reg o = s.reg o) ∧
  (∀ (s : State) (v : Word) (t : Time), s.pwr.held = false → s.rdB F.REC_CTRL_EN = false → bitOf v.toNat 0 = true →
    bits v.toNat 16 16 = s.rd F.REC_CTRL_RED →
    ∃ u, exec (.recEnable v t) s = .next u ∧ u.rdB F.REC_CTRL_EN = s.recOk ∧
      (s.recOk = false → u.rdB F.REC_ERR_CFG_WR = true)) ∧
  (∀ (s : State) (t : Time) (j : Nat), s.pwr.held = false → s.recd.cur = some j → (s.seg j).st = 2 →
    (∃ x ∈ (s.seg j).slices, serialLt x.cyc (s.postEnd (s.seg j)) = false) → s.rdB F.REC_CTRL_WRAP = false →
    s.rdB F.REC_CTRL_DELIV = false →
    ∃ u, exec (.segmentFull t) s = .next u ∧ (u.seg j).st = 3 ∧ u.recd.full = s.recd.full ++ [j]) ∧
  (∀ (s : State) (t : Time) (j o : Nat) (rest : List Nat), s.pwr.held = false → s.recd.full = j :: rest →
    (s.seg j).st = 4 → s.recd.lostN = 0 → s.ringFull s.recRing = false → s.areaFor (s.recBytes (s.seg j)) = some o →
    s.recd.cur.isSome = true → j ∉ rest →
    ∃ u, exec (.segmentCopyDone t) s = .next u ∧ u.recd.full = rest ∧ u.seg j = {} ∧
      u.recd.areas = s.recd.areas ++ [(s.rd (F.HQ_RING_STAT_HUB_IDX s.recRing), o, s.recBytes (s.seg j))])

/-- The cycle, the train and the deadline (R48 to R51, R62 to R68, R397). -/
def Obligations.CycleStartTrainAndDeadline : Prop :=
  (∀ (s : State) (off : List Nat), s.pwr.held = false →
    ∃ u, exec (.cycleStart off) s = .next u ∧ u.clk.started = true ∧ u.clk.tkHall = s.nextStart ∧
      (∀ o, o ≠ R.GEN_CONT 5 → u.ereg o = s.reg o) ∧
      u.cyc = (if s.clk.started then
          (match s.stk.setCyc with | some n => (if s.anyDeblocked then s.cyc else n) + 1 | none => s.cyc + 1)
        else 0) % 2 ^ 32) ∧
  (∀ (s : State) (r : Ring) (f : Frame) (tIn t : Time) (x : SentFrame) (late : Bool) (c : Instr), s.pwr.held = false →
    c = (if late then .lateTrainComplete r f tIn t else .trainArrival r f tIn t) → s.roleOf r ≠ 2 → hcrcOk f = true →
    (s.port r).sent.find? (fun x => x.cyc == (headerOf f).cycle && x.ftype == (headerOf f).ftype && !x.back) = some x →
    x.ftype = ftControl → frameStart f = true →
    late = (decide (s.deadline x.tk < ((s.advance tIn).advance t).clk.hall) || (s.port r).lateOf.contains x.cyc) →
    ∃ u, exec c s = .next u ∧
      (u.port r).trains.head?.map (fun y => (y.cyc, y.late)) = some (x.cyc, late) ∧
      u.rd (F.GEN_RING_RET_RET r) = min 8191 (ceilDiv (((s.advance tIn).advance t).clk.hall - x.tk) 65536)) ∧
  (∀ (s : State) (q : Ring), s.pwr.held = false → s.split q = false →
    (s.port q).sent.any (fun x => x.cyc == s.prevCyc && x.ftype == ftControl) = true →
    ∃ u, exec .galleryDeadline s = .next u ∧
      ((s.port q).trains.any (fun x => x.cyc == s.prevCyc && !x.late) = true →
        u.rd (F.GEN_RING_LATE_RUN q) = 0 ∧ u.rd (F.GEN_RING_LATE_COUNT q) = s.rd (F.GEN_RING_LATE_COUNT q)) ∧
      ((s.port q).trains.any (fun x => x.cyc == s.prevCyc && !x.late) = false →
        u.rd (F.GEN_RING_LATE_COUNT q) = min (s.rd (F.GEN_RING_LATE_COUNT q) + 1) (2 ^ 16 - 1) ∧
        u.rd (F.GEN_RING_LATE_RUN q) = min (s.rd (F.GEN_RING_LATE_RUN q) + 1) 15 ∧
        (max 1 (s.erd F.GEN_CYC_CTRL_LATE_LIM) ≤ min (s.rd (F.GEN_RING_LATE_RUN q) + 1) 15 →
          u.liveBit (0x102 + 8 * q.val) = true)))

/-- Measurement inputs (R84 to R98). -/
def Obligations.MeasurementChannelsFollowTheirInputs : Prop :=
  (∀ (s x : State) (c : Chan) (p : Fin 4) (rise fall n : Nat) (per t : Time), s.pwr.held = false → s.chanOn c = true →
    s.hubClock c = true → n = s.nextOutput c p →
    x = (s.advanceHall ((s.chan c).alignHall + n * presetOsr p * s.modPeriod c - ns 900)).sampleTo c (n * presetOsr p)
      rise fall →
    ∃ u, exec (.presetOutput c p rise fall per t) s = .next u ∧ x.OutputFrom u c p n) ∧
  (∀ (s x y : State) (c : Chan) (p : Fin 4) (rise fall n : Nat) (per t : Time), s.pwr.held = false → s.chanOn c = true →
    s.hubClock c = false → s.rdB (F.MI_CHSTAT_CLK_FAULT c) = false → ns 45 ≤ 2 * per → per ≤ ns 220 →
    y = (s.advance t).notePeriod c per → n = y.nextOutput c p → x = y.sampleTo c (n * presetOsr p) rise fall →
    ∃ u, exec (.presetOutput c p rise fall per t) s = .next u ∧ x.OutputFrom u c p n) ∧
  (∀ (s : State) (c : Chan) (period : Option Time) (t : Time), s.pwr.held = false → s.chanOn c = true →
    s.hubClock c = false → (∀ x, period = some x → 2 * x < ns 45 ∨ ns 220 < x) →
    ∃ u, exec (.miClockFault c period t) s = .next u ∧ u.rdB (F.MI_CHSTAT_CLK_FAULT c) = true ∧
      u.getBit F.MI_ERR_CLK_STICKY c = true ∧ u.liveBit (0x030 + c) = true ∧
      ∀ p : Fin 4, (s.outputs c p ≠ [] → bits (u.reg (presetReg c p)).toNat 25 1 = 1) ∧
        (s.outputs c p = [] → u.reg (presetReg c p) = s.reg (presetReg c p))) ∧
  (∀ (s : State) (c : Chan) (period : Time) (t : Time), s.pwr.held = false → s.chanOn c = true → s.hubClock c = false →
    s.rdB (F.MI_CHSTAT_CLK_FAULT c) = true → ns 25 ≤ period → period ≤ ns 200 →
    ∃ u, exec (.miClockRecovery c period t) s = .next u ∧ u.rdB (F.MI_CHSTAT_CLK_FAULT c) = false ∧
      u.liveBit (0x030 + c) = false ∧ u.rd (F.MI_CHSTAT_EXT_PERIOD c) = period / 65536) ∧
  (∀ (s : State) (c : Chan) (t : Time), s.pwr.held = false → s.chanOn c = true →
    ∃ u, exec (.modulatorStuck c t) s = .next u ∧ u.rdB (F.MI_CHSTAT_OVR c) = true ∧
      u.getBit F.MI_ERR_OVR_STICKY c = true ∧ u.liveBit (0x020 + c) = true ∧ (u.chan c).stuck = true) ∧
  (∀ (s : State) (c : Chan) (t : Time), s.pwr.held = false → (s.chan c).stuck = true →
    ∃ u, exec (.modulatorStuckEnd c t) s = .next u ∧ u.rdB (F.MI_CHSTAT_OVR c) = false ∧
      u.liveBit (0x020 + c) = false ∧ (u.chan c).stuck = false ∧ (u.chan c).stuckEnd = some (s.advance t).clk.hall) ∧
  (∀ (s : State) (t : Time), s.pwr.held = false →
    ∃ u, exec (.scaleApply t) s = .next u ∧ u.miApply = true ∧ u.mi = s.mi ∧ u.regs = s.regs) ∧
  (∀ (s : State) (t : Time), s.pwr.held = false →
    ∃ u, exec (.realign t) s = .next u ∧ (s.anyDeblocked = true → u.latchBit 0x006 = true ∧ u.mi = s.mi) ∧
      (s.anyDeblocked = false → ∀ c : Chan, s.chanOn c = true → s.hubClock c = true →
        (u.chan c).alignHall = s.clk.tkHall ∧
        (u.chan c).startIx = ceilDiv ((s.advance t).clk.hall + ns 900 - s.clk.tkHall) (max 1 (s.modPeriod c)) ∧
        u.rdB (F.MI_CHSTAT_ALIGNED c) = true))

/-- The arm control engine (R105 to R107, R130 to R142). -/
def Obligations.EngineFollowsItsCommands : Prop :=
  (∀ (s : State) (b : Fin 256), s.pwr.held = false → s.idleUnit = false →
    ∃ u, exec .enginePass s = .next u ∧ u.rd F.ACE_STAT_PASS = (s.rd F.ACE_STAT_PASS + 1) % 2 ^ 16 ∧
      (dType (s.bank true) b = 11 → dA (s.bank true) b = 0x3FE → (u.blk b).y = 0x3F800000 ∧ (u.blk b).numf = false)) ∧
  (∀ (s : State) (who : Requester) (q : Nat) (m : Fin 64) (t : Time), s.pwr.held = false → stgOf who = some q →
    ∃ u, exec (.stgCommit who m t) s = .next u ∧
      (bitOf (s.stgStat q) 0 = true → bitOf (u.stgStat q) 1 = true ∧ u.ace.waiting = s.ace.waiting) ∧
      (bitOf (s.stgStat q) 0 = false → u.stgStat q = 1 + m.val * 4 ∧
        u.ace.waiting = s.ace.waiting ++ [{ slot := s.cyc, who := q, mbx := m, words := s.stgWords q }])) ∧
  (∀ (s : State) (m : Fin 64) (t : Time) (c : MbxCommit), s.pwr.held = false → s.nextCommit m = some c →
    s.ace.granted.any (fun c => c.mbx == m.val) = false →
    ∃ u, exec (.mailboxCommitGrant m t) s = .next u ∧ u.ace.granted = s.ace.granted ++ [c] ∧
      (c.who ≠ 4 → bitOf (u.stgStat c.who) 0 = false)) ∧
  (∀ (s : State) (w : EditWord) (v : Word) (t : Time), s.pwr.held = false →
    ∃ u, exec (.editBankWrite w v t) s = .next u ∧ u.bank true = s.bank true ∧
      (s.rdB F.ACE_STAT_SWITCH_PEND || s.rdB F.ACE_LIST_STAT_BUSY →
        u.rdB F.ACE_LIST_STAT_IGN = true ∧ u.bank false = s.bank false) ∧
      (!(s.rdB F.ACE_STAT_SWITCH_PEND || s.rdB F.ACE_LIST_STAT_BUSY) → u.rdB F.ACE_LIST_STAT_OK = false ∧
        (match w with
          | .desc k => Store.get (u.bank false) 0 k = v &&& dMask (k.val % 16)
          | .gain k => Store.get (u.bank false) 0 (4096 + k) = v))) ∧
  (∀ (s : State) (t : Time), s.pwr.held = false → s.rdB F.ACE_LIST_STAT_BUSY = false →
    (∃ u, exec (.copy t) s = .next u ∧
      (s.rdB F.ACE_STAT_SWITCH_PEND = true → u.rdB F.ACE_LIST_STAT_IGN = true ∧ u.ace = s.ace) ∧
      (s.rdB F.ACE_STAT_SWITCH_PEND = false → u.rdB F.ACE_LIST_STAT_BUSY = true ∧ u.ace.copying = true)) ∧
    (∃ u, exec (.check t) s = .next u ∧ u.rdB F.ACE_LIST_STAT_BUSY = true ∧ u.ace.checking = some s.checkList) ∧
    (∃ u, exec (.switch t) s = .next u ∧
      (s.rdB F.ACE_LIST_STAT_OK && !s.rdB F.ACE_STAT_SWITCH_PEND → u.rdB F.ACE_STAT_SWITCH_PEND = true) ∧
      (!s.rdB F.ACE_LIST_STAT_OK || s.rdB F.ACE_STAT_SWITCH_PEND → u.latchBit 0x008 = true))) ∧
  (∀ (s : State) (t : Time), s.pwr.held = false → s.ace.copying = true →
    ∃ u, exec (.copyDone t) s = .next u ∧ u.bank false = s.bank true ∧ u.bank true = s.bank true ∧
      u.rdB F.ACE_LIST_STAT_BUSY = false ∧ u.rdB F.ACE_LIST_STAT_OK = false) ∧
  (∀ (s : State) (t : Time) (err at_ kind cost : Nat), s.pwr.held = false → s.ace.checking = some (err, at_, kind, cost) →
    ∃ u, exec (.checkDone t) s = .next u ∧ u.rdB F.ACE_LIST_STAT_BUSY = false ∧
      u.rdB F.ACE_LIST_STAT_OK = (err == 0 && !s.ace.topoHit) ∧ u.rd F.ACE_LIST_STAT_ERR = err % 16 ∧
      u.rd F.ACE_LIST_STAT_BLOCK = at_ % 256 ∧ u.rd F.ACE_LIST_STAT_COST = min 511 cost) ∧
  (∀ (s : State) (t : Time), s.pwr.held = false →
    (∃ u, exec (.injectStart t) s = .next u ∧
      (s.targetOk = false ∨ s.rd F.ACE_INJ_STAT_STATE ≠ 0 ∨ s.rd F.ACE_INJ_CTRL_MODE = 3 ∨
          6 ≤ s.rd F.ACE_INJ_CTRL_PRBS → u.rdB F.ACE_INJ_STAT_REFUSED = true ∧ u.ace = s.ace) ∧
      (s.targetOk = true ∧ s.rd F.ACE_INJ_STAT_STATE = 0 ∧ s.rd F.ACE_INJ_CTRL_MODE = 1 ∧
          s.rd F.ACE_INJ_CTRL_PRBS < 6 →
        u.rd F.ACE_INJ_STAT_STATE = (if s.rd F.ACE_INJ_CTRL_FADE = 0 then 2 else 1) ∧
        u.rdB F.ACE_INJ_STAT_REFUSED = false ∧ u.ace.acc = 0)) ∧
    (∃ u, exec (.injectStop t) s = .next u ∧
      u.ace.stopReq = (s.ace.stopReq || decide (s.rd F.ACE_INJ_STAT_STATE = 2)) ∧ u.regs = s.regs) ∧
    (∃ u, exec (.captureStart t) s = .next u ∧
      (s.rd F.ACE_CAP_STAT_STATE = 0 ∨ s.rd F.ACE_CAP_STAT_STATE = 3 →
        u.rd F.ACE_CAP_STAT_STATE = (if s.rdB F.ACE_CAP_CTRL_SYNC_INJ then 1 else 2) ∧ u.rd F.ACE_CAP_CNT_COUNT = 0)) ∧
    (∃ u, exec (.captureStop t) s = .next u ∧
      (s.rd F.ACE_CAP_STAT_STATE = 1 ∨ s.rd F.ACE_CAP_STAT_STATE = 2 →
        u.rd F.ACE_CAP_STAT_STATE = 0 ∧ u.rdB F.ACE_CAP_STAT_ABORTED = true)) ∧
    (s.rd F.ACE_CAP_STAT_STATE = 3 → s.rdB F.ACE_CAP_CTRL_DFT_EN = true →
      ∃ u, exec (.dftDone t) s = .next u ∧ u.rdB F.ACE_CAP_STAT_DFT_DONE = true ∧ u.ace = s.ace))

/-- The gallery (R157, R158, R169 to R172, R177, R178). -/
def Obligations.GalleryFollowsItsEvents : Prop :=
  (∀ (s : State) (done : Nat) (stored : Bool) (a : Arm), s.pwr.held = false → s.idleUnit = false →
    s.rd F.STK_RED_STAT_STATE ≠ 3 → s.nextResumes = false →
    ∃ u, exec (.galleryRanking done stored) s = .next u ∧ u.rd F.GAL_STAT_LAST_DONE = min 400 done ∧
      (s.nextLive a = false → u.rd (F.GAL_ARM_STAT_N_EFF a) = 0 ∧ (u.galArm a).ready = false ∧
        ∀ i ∈ s.cellsOf a, Store.get u.gal.sel {} i = {})) ∧
  (∀ (s : State) (a : Arm), s.pwr.held = false →
    ∃ u, exec (.bandAdapt a) s = .next u ∧ ((s.galArm a).winEnd = none → u = s) ∧
      (∀ edges npos, (s.galArm a).winEnd = some (edges, npos) → (u.galArm a).winEnd = none ∧
        u.rd (F.GAL_ARM_MRATE_RATE a) = min 65535 (256 * edges / max 1 npos) ∧
        u.rd (F.GAL_ARM_STAT_BAND a) = (u.galArm a).band % 2 ^ (F.GAL_ARM_STAT_BAND a).w ∧
        (s.bandFixed a = true → (u.galArm a).band = s.erd (F.GAL_ARM_BAND_BMIN a)))) ∧
  (∀ (s : State) (i : Cell) (a : Nat) (p d : CellData) (x y : Time × Word) (q v : Fp), s.pwr.held = false →
    s.galArmOf (i / 32) = some a → (s.galCell i).prev = some p → (s.galCell i).data = some d → (s.galCell i).fresh = true →
    (s.galCell i).winAt ≠ d.s → s.nearest (s.erd (F.GAL_ARM_CFG_ICH a)) (s.erd (F.GAL_ARM_CFG_IPRE a)) p.s = some x →
    s.nearest (s.erd (F.GAL_ARM_CFG_ICH a)) (s.erd (F.GAL_ARM_CFG_IPRE a)) d.s = some y →
    q = s.windowCharge a (s.galCell i) p d x y → v = s.windowVoltage i a p d →
    ∃ u, exec (.estimatorWindow i) s = .next u ∧ (u.galCell i).winAt = d.s ∧
      (s.windowBad a (s.galCell i) p d x y q = true → u.regs = s.regs ∧ (u.galCell i).estE = (s.galCell i).estE) ∧
      (s.windowBad a (s.galCell i) p d x y q = false →
        (u.galCell i).estA = s.forget (s.galCell i).estA (q.mul v) ∧
        (u.galCell i).estB = s.forget (s.galCell i).estB (v.mul v) ∧
        (u.galCell i).estE = s.forget (s.galCell i).estE (q.mul q) ∧
        u.rd (F.GAL_CELL_CONF_NACC i) = min (s.rd (F.GAL_CELL_CONF_NACC i) + 1) (2 ^ 24 - 1))) ∧
  (∀ (s : State) (a : Arm), s.pwr.held = false → (s.galArm a).hlthN < s.healthEvery →
    exec (.healthCheck a) s = .next s) ∧
  (∀ (s : State) (a : Arm) (set : List Nat), s.pwr.held = false →
    set = (s.cellsOf a).filter (fun i =>
      s.erd F.GAL_CTRL_CONF_MIN ≤ s.rd (F.GAL_CELL_CONF_CONF i) && f32Pos (s.rd (F.GAL_CELL_CEST_CEST i))) →
    s.healthEvery ≤ (s.galArm a).hlthN →
    ∃ u, exec (.healthCheck a) s = .next u ∧
      (set.length < max 1 (s.erd F.GAL_HEALTH_CFG_MIN_CELLS) → u.rdB (F.GAL_ARM_HLTH_VALID a) = false) ∧
      (max 1 (s.erd F.GAL_HEALTH_CFG_MIN_CELLS) ≤ set.length → u.rdB (F.GAL_ARM_HLTH_VALID a) = true ∧
        u.rd (F.GAL_ARM_HLTH_CHECKED a) = set.length ∧
        u.rd (F.GAL_ARM_CMED_VALUE a) = lowerMedian (set.map (fun i => s.rd (F.GAL_CELL_CEST_CEST i))) ∧
        ∀ i ∈ set, u.rdB (F.GAL_CELL_STAT_HEALTH i) =
          Fp.lt ((Fp.fin false (s.erd F.GAL_HEALTH_CFG_FRAC) (-16)).mul (b32.dec (u.rd (F.GAL_ARM_CMED_VALUE a))))
            ((b32.dec (s.rd (F.GAL_CELL_CEST_CEST i))).sub (b32.dec (u.rd (F.GAL_ARM_CMED_VALUE a)))).abs)) ∧
  (∀ (s : State) (off : Fin 0x20000) (v : Word) (t : Time) (a : Arm) (i : Cell), s.pwr.held = false →
    ∃ u, exec (.galleryWrite off v t) s = .next u ∧ u.eff = s.eff ∧
      (0x100000 + off.val = R.GAL_ARM_CFG a → s.deblocked a = false → u.reg (R.GAL_ARM_CFG a) = v &&& 0x3FFF) ∧
      (0x100000 + off.val = R.GAL_ARM_QV a → s.deblocked a = true →
        u.latchBit 0x009 = true ∧ u.reg (R.GAL_ARM_QV a) = s.reg (R.GAL_ARM_QV a)) ∧
      (0x100000 + off.val = R.GAL_CELL_CTRL i → s.cellFree i = true → u.reg (R.GAL_CELL_CTRL i) = v &&& 0xFFFF0003) ∧
      (0x100000 + off.val = R.GAL_CELL_CTRL i → s.cellFree i = false →
        bits (s.reg (R.GAL_CELL_CTRL i)).toNat 16 16 ≠ bits v.toNat 16 16 → u.latchBit 0x009 = true ∧
        bits (u.reg (R.GAL_CELL_CTRL i)).toNat 16 16 = bits (s.reg (R.GAL_CELL_CTRL i)).toNat 16 16)) ∧
  (∀ (s : State) (i : Cell) (which : Fin 3) (v : Word) (t : Time), s.pwr.held = false →
    ∃ u, exec (.estimateLoad i which v t) s = .next u ∧
      (s.cellFree i = false → u.latchBit 0x009 = true ∧ u.galCell i = s.galCell i) ∧
      (s.cellFree i = true → u.rd (F.GAL_CELL_CONF_NACC i) = 64 ∧
        (match which with | 0 => (u.galCell i).estA | 1 => (u.galCell i).estB | _ => (u.galCell i).estE) =
          b64.put (b32.dec v.toNat)))

/-- Receive lanes (R182 to R185, R201, R202, R217, R294, R393, R541). -/
def Obligations.LanesFollowTheirReceivers : Prop :=
  (∀ (s : State) (r : Ring) (t : Time), s.pwr.held = false →
    (s.rdB (F.RP_STAT_LOS r) = false →
      ∃ u, exec (.blockLock (.port r) t) s = .next u ∧ u.rdB (F.RP_STAT_LOCK r) = true ∧ (u.port r).linkFault = false) ∧
    (s.rdB (F.RP_STAT_LOCK r) = true →
      ∃ u, exec (.lossOfLock (.port r) t) s = .next u ∧ u.rdB (F.RP_STAT_LOCK r) = false ∧ u.rdB (F.RP_ERR_LOL r) = true ∧
        u.rd (F.RP_CNT_LINK_LOL r) = min (s.rd (F.RP_CNT_LINK_LOL r) + 1) (2 ^ (F.RP_CNT_LINK_LOL r).w - 1)) ∧
    (∃ u, exec (.lossOfSignal (.port r) t) s = .next u ∧ u.rdB (F.RP_STAT_LOS r) = true ∧ u.rdB (F.RP_STAT_LOCK r) = false ∧
      u.rdB (F.RP_ERR_LOS r) = true ∧
      u.rd (F.RP_CNT_LINK_LOS r) = min (s.rd (F.RP_CNT_LINK_LOS r) + 1) (2 ^ (F.RP_CNT_LINK_LOS r).w - 1)) ∧
    (∃ u, exec (.signalReturn (.port r) t) s = .next u ∧ u.rdB (F.RP_STAT_LOS r) = false ∧
      s.RegsOnly t (· = R.RP_STAT r) u) ∧
    (s.rdB (F.RP_STAT_LOCK r) = true → ∀ on : Bool,
      ∃ u, exec (if on then .linkFaultReceived (.port r) t else .linkFaultCleared (.port r) t) s = .next u ∧
        (u.port r).linkFault = on ∧ u.rdB (F.RP_STAT_LOCK r) = true) ∧
    (∀ (k : Nat) (low : Bool), (s.port r).rateAt = some (k, low) → (k = s.cyc ∨ k = (s.cyc + 1) % 2 ^ 32) →
      (s.port r).began = true →
      ∃ u, exec (.rateSwitch (.port r) t) s = .next u ∧ u.rdB (F.RP_STAT_LOWRATE r) = low ∧ (u.port r).rateAt = none ∧
        (u.port r).lowFrom = k)) ∧
  (∀ (s : State) (i : Cell) (far : Bool) (l : Lane) (t : Time) (d : Tread), s.tread i = d → d.onSupply = true →
    l = (if far then .far i else .near i) →
    (d.laneLos far = false →
      ∃ u, exec (.blockLock l t) s = .next u ∧ (u.tread i).laneLock far = true ∧ ((u.tread i).lane far).ever = true) ∧
    (d.laneLock far = true → (d.lane far).ever = true →
      ∃ u, exec (.lossOfLock l t) s = .next u ∧ (u.tread i).laneLock far = false ∧ ((u.tread i).lane far).fe = false ∧
        ((u.tread i).lane far).fault ≠ 0) ∧
    ((d.lane far).ever = true →
      ∃ u, exec (.lossOfSignal l t) s = .next u ∧ (u.tread i).laneLos far = true ∧ (u.tread i).laneLock far = false ∧
        ((u.tread i).lane far).fault = 1) ∧
    (∃ u, exec (.signalReturn l t) s = .next u ∧ (u.tread i).laneLos far = false ∧
      (u.tread i).laneLock far = d.laneLock far ∧ (u.tread i).outs = d.outs) ∧
    (d.laneLock far = true →
      (∃ u, exec (.linkFaultReceived l t) s = .next u ∧ ((u.tread i).lane far).lf = true ∧
        ((d.lane far).ever = true → ((u.tread i).lane far).fault ≠ 0)) ∧
      (∃ u, exec (.linkFaultCleared l t) s = .next u ∧ ((u.tread i).lane far).lf = false) ∧
      (∃ u, exec (.farendReceived l t) s = .next u ∧ ((u.tread i).lane far).fe = true ∧
        ((d.lane far).ever = true → (d.lane far).role0 = false → (d.lane far).fault = 0 → d.cmdRole = false →
          (u.tread i).role far = some (0, true))) ∧
      (∃ u, exec (.farendStops l t) s = .next u ∧ ((u.tread i).lane far).fe = false ∧
        ((d.lane far).ever = true → (d.lane far).role0 = false → (d.lane far).fault = 0 → d.cmdRole = false →
          (u.tread i).role far = none))) ∧
    (∀ (k : Nat) (low : Bool), d.rateAt = some (k, low) →
      ∃ u, exec (.rateSwitch l t) s = .next u ∧ (u.tread i).rdB F.T_LN_STAT_LOWRATE = low ∧
        (u.tread i).rdB F.T_STAT_LOWP = low ∧ (u.tread i).rateAt = none)) ∧
  (∀ (s : State) (n : Fin 4) (t : Time), s.pwr.held = false →
    (s.getBit F.STK_LINK_LOS n = false → ∃ u, exec (.blockLock (.tit n) t) s = .next u ∧ u.getBit F.STK_LINK_LOCK n = true) ∧
    (∃ u, exec (.lossOfLock (.tit n) t) s = .next u ∧ u.getBit F.STK_LINK_LOCK n = false) ∧
    (∃ u, exec (.lossOfSignal (.tit n) t) s = .next u ∧ u.getBit F.STK_LINK_LOS n = true ∧
      u.getBit F.STK_LINK_LOCK n = false) ∧
    (∃ u, exec (.signalReturn (.tit n) t) s = .next u ∧ u.getBit F.STK_LINK_LOS n = false))

/-- The ring ports (R212, R215, R217 to R219, R223, R225, R238). -/
def Obligations.RingPortsFollowTheirCommands : Prop :=
  (∀ (s : State) (q : Ring) (v : Word) (t : Time), s.pwr.held = false →
    (∃ u, exec (.rpConfigWrite q v t) s = .next u ∧
      (s.portLive q = true → bits (s.reg (R.RP_CFG q)).toNat 0 2 ≠ bits v.toNat 0 2 →
        u.latchBit 0x00B = true ∧ u.reg (R.RP_CFG q) = s.reg (R.RP_CFG q)) ∧
      (s.portLive q = false → u.reg (R.RP_CFG q) = v &&& 0xFF)) ∧
    (∃ u, exec (.enum q t) s = .next u ∧
      (s.portLive q = true → u.latchBit 0x00B = true ∧ u.pst q = s.pst q) ∧
      (s.portLive q = false → s.pst q = 3 ∨ s.pst q = 5 → u.pst q = 2 ∧ (u.port q).enumCnt = 0)) ∧
    (∃ u, exec (.enumUnstable q t) s = .next u ∧
      (s.pst q = 2 → 64 ≤ (s.port q).enumCnt → u.liveBit (0x103 + 8 * q.val) = true ∧ u.pst q = 2)) ∧
    (∃ u, exec (.rejoin q t) s = .next u ∧
      (s.portLive q = true → u = s.advance t) ∧
      (s.portLive q = false → s.roleOf q = 0 → s.split q = true →
        u.split q = false ∧ u.liveBit (0x107 + 8 * q.val) = false ∧
        (s.pst q = 3 ∨ s.pst q = 5 → u.pst q = 2) ∧
        (s.pst q ≠ 3 → s.pst q ≠ 5 → u.pst q = s.pst q ∧ (u.port q).table = false))) ∧
    (∃ u, exec (.rate q t) s = .next u ∧
      (s.portLive q = true → u = s.advance t) ∧
      (s.portLive q = false → s.roleOf q = 0 → s.pst q = 3 →
        (u.port q).carts = (s.port q).carts ++
          [{ who := .hubHw, own := true, op := opRate, arg := b2n (s.rdB (F.RP_CFG_LOWRATE q)) }])) ∧
    (s.pst q = 5 → exec (.rpAdmit q v t) s = .next (s.advance t)) ∧
    (s.pst q ≠ 5 → ∃ u, exec (.rpAdmit q v t) s = .next u ∧ u.regs = s.regs ∧
      (u.port q).carts = (s.port q).carts ++
        (((List.range 32).filter (fun p => bitOf v.toNat p && s.rd (F.RP_CELL_INFO_STATE q p) == 2)).map
          (fun p => { who := .hubHw, own := true, op := opAdmit, pos := p, data := s.uidOf q p })))) ∧
  (∀ (s : State) (q : Ring) (k : Word), s.pwr.held = false →
    (s.pst q = 4 → (s.port q).feSeen k.toNat = false → (s.roleOf q ≠ 0 ∨ s.dupMode ≠ 2) →
      ∃ u, exec (.farEndMissing q k) s = .next u ∧ u.rdB (F.RP_ERR_FE_MISS q) = true ∧
        u.rd (F.RP_FE_MISS q) = min (s.rd (F.RP_FE_MISS q) + 1) (2 ^ (F.RP_FE_MISS q).w - 1)) ∧
    (s.roleOf q = 0 → s.dupMode = 2 → s.split q = false →
      ∃ u, exec (.farEndMissing q k) s = .next u ∧ (u.port q).splitTrig.isSome = true ∧ u.regs = s.regs)) ∧
  (∀ (s : State) (q : Ring) (f : Frame) (t : Time), s.pwr.held = false → s.pst q = 4 → s.headerAccepted f = true →
    ∃ u, exec (.farEndCopyArrival q f t) s = .next u ∧
      (u.port q).feHist.head?.map (fun x => x.1) = some (headerOf f).cycle ∧
      (∀ x ∈ (u.port q).feHist.tail, x ∈ (s.port q).feHist ∧ ((headerOf f).cycle + 2 ^ 32 - x.1) % 2 ^ 32 < 1024) ∧
      u.rd (F.RP_FE_LATEST q) = min 8191 ((u.port q).feHist.foldl (fun m x => max m x.2) 0)) ∧
  (∀ (s : State) (r : Ring) (t t0 : Time), s.pwr.held = false → s.dupMode ≠ 0 → s.split r = false →
    (s.port r).splitTrig = some t0 → t0 + ns 200 ≤ (s.advance t).clk.now →
    ∃ u, exec (.ringSplit r t) s = .next u ∧ u.split r = true ∧ u.rdB (F.RP_ERR_SPLIT r) = true ∧
      u.liveBit (0x107 + 8 * r.val) = true ∧ (u.port r).splitTrig = none) ∧
  (∀ (s : State) (q : Ring), s.pwr.held = false →
    ∃ u, exec (.rttBroadcast q) s = .next u ∧
      ((s.port q).rHist = [] → u = s) ∧
      ((s.port q).rHist ≠ [] → s.roleOf q = 0 ∨ s.farEmits q = true → u.rd (F.HT_RING_RTT_RTT q) = (s.port q).meanRtt % 2 ^ 24 ∧
        ∃ c : CartReq, c.op = opBwr ∧ c.arg = 0xC0 + 2 ^ 10 ∧ c.data % 2 ^ 24 = (s.port q).meanRtt % 2 ^ 24 ∧
          (u.port (s.ringOfPort q)).carts = (s.port (s.ringOfPort q)).carts ++ [c]))

/-- Carts and frames at a Tread (R192, R196, R199 to R201, R205, R206, R209, R215, R217, R289, R300). -/
def Obligations.TreadAnswersCartsAndFrames : Prop :=
  (∀ (s : State) (i : Cell) (d : Tread) (c : Fin 8) (tag : Fin 64) (pos : Pos) (word : Fin 1024) (two : Bool) (data : Dword),
    s.tread i = d → d.onSupply = true → d.frames ≠ [] →
    (∃ u, exec (.rd i c tag pos word two) s = .next u ∧
      (pos.val ≠ d.pos → u.tread i = { d with frames := (u.tread i).frames } ∧
        ((u.tread i).lastReply.bind TRep.ans) = none) ∧
      (pos.val = d.pos → d.rdB F.T_ID_INFO_ADM = false → (u.tread i).regs = d.regs ∧
        ((u.tread i).lastReply.bind TRep.ans) = some (replyTo (reqCart opRd tag pos (waddr word two) 0) 5 0)) ∧
      (pos.val = d.pos → d.rdB F.T_ID_INFO_ADM = true →
        ((u.tread i).lastReply.bind TRep.ans) = some (replyTo (reqCart opRd tag pos (waddr word two) 0) 0
          ((d.readReg (4 * word.val)).2.toNat +
            (if two then 2 ^ 32 * ((d.readReg (4 * word.val)).1.readReg (4 * word.val + 4)).2.toNat else 0))))) ∧
    (∀ row : RegRow, pos.val = d.pos → d.rdB F.T_ID_INFO_ADM = true → treadRow (4 * word.val) = some row → row.pw = 0 →
      plainTread (4 * word.val) = true → 4 * word.val ≠ R.T_SCH_ARG →
      (4 * word.val < 0xA00 ∨ 0xC00 ≤ 4 * word.val) → needsBlock (4 * word.val) = false →
      ∃ u, exec (.wr i c tag pos word false data) s = .next u ∧
        (u.tread i).reg (4 * word.val) = (d.reg (4 * word.val) &&& ~~~(BitVec.ofNat 32 row.rw)) |||
          (BitVec.ofNat 32 data.toNat &&& BitVec.ofNat 32 row.rw) ∧
        ((u.tread i).lastReply.bind TRep.ans) = some (replyTo (reqCart opWr tag pos (waddr word false) data.toNat) 0 0)) ∧
    (pos.val = d.pos → d.rdB F.T_ID_INFO_ADM = true → needsBlock (4 * word.val) = true →
      (treadRow (4 * word.val)).isSome = true → d.blocked = false →
      ∃ u, exec (.wr i c tag pos word false data) s = .next u ∧ (u.tread i).regs = d.regs ∧
        ((u.tread i).lastReply.bind TRep.ans) = some (replyTo (reqCart opWr tag pos (waddr word false) data.toNat) 3 0)) ∧
    (∀ row : RegRow, treadRow (4 * word.val) = some row → row.pw = 0 → plainTread (4 * word.val) = true →
      4 * word.val ≠ R.T_SCH_ARG → (4 * word.val < 0xA00 ∨ 0xC00 ≤ 4 * word.val) → needsBlock (4 * word.val) = false →
      ∃ u, exec (.bwr i c tag word false data) s = .next u ∧
        (d.rdB F.T_ID_INFO_ADM = false → (u.tread i).regs = d.regs ∧ (u.tread i).lastReply.bind TRep.mask = none) ∧
        (d.rdB F.T_ID_INFO_ADM = true →
          (u.tread i).reg (4 * word.val) = (d.reg (4 * word.val) &&& ~~~(BitVec.ofNat 32 row.rw)) |||
            (BitVec.ofNat 32 data.toNat &&& BitVec.ofNat 32 row.rw) ∧
          (u.tread i).lastReply.bind TRep.mask = some true))) ∧
  (∀ (s : State) (i : Cell) (d : Tread) (c : Fin 8) (tag : Fin 64) (pos : Pos) (data : Dword) (blk : BitVec 16) (cyc : Word)
      (low : Bool) (quarter : Fin 4),
    s.tread i = d → d.onSupply = true → d.frames ≠ [] →
    (∃ u, exec (.fwblk i c tag blk data) s = .next u ∧
      (d.rdB F.T_ID_INFO_ADM = false ∨ d.rdB F.T_FW_CTRL_UPD_EN = false → (u.tread i).mram = d.mram ∧
        (u.tread i).regs = d.regs) ∧
      (d.rdB F.T_ID_INFO_ADM = true → d.rdB F.T_FW_CTRL_UPD_EN = true → blk.toNat < 20480 →
        (u.tread i).mram = writeBytes d.mram (slotBase (1 - d.rd F.T_FW_STAT_ACT) + 8 * blk.toNat) 8 data.toNat ∧
        (u.tread i).rdB F.T_FW_STAT_VRES = false ∧ (u.tread i).lastReply.bind TRep.mask = some true)) ∧
    (∃ u, exec (.cartAdmit i c tag pos data) s = .next u ∧
      (d.rdB F.T_ID_INFO_ADM = false → pos.val = d.pos → data.toNat = d.uid →
        (u.tread i).rdB F.T_ID_INFO_ADM = true ∧ (u.tread i).rd F.T_ID_INFO_POS = d.rd F.T_ID_INFO_HPOS ∧
        (u.tread i).rdB F.T_ID_INFO_NEWC = false ∧
        (u.tread i).lastReply.bind TRep.ans = some (replyTo (reqCart opAdmit tag pos 0 data.toNat) 0 0)) ∧
      (d.rdB F.T_ID_INFO_ADM = false → pos.val = d.pos → data.toNat ≠ d.uid → (u.tread i).regs = d.regs ∧
        (u.tread i).lastReply.bind TRep.ans = some (replyTo (reqCart opAdmit tag pos 0 data.toNat) 4 0))) ∧
    (d.rdB F.T_ID_INFO_ADM = true → pos.val = d.pos → ∀ take : Bool,
      ∃ u, exec (if take then .linkTake i c tag pos else .linkRelease i c tag pos) s = .next u ∧
        (u.tread i).cmdRole = take ∧ (u.tread i).regs = d.regs ∧
        (u.tread i).lastReply.bind TRep.ans = some (replyTo (reqCart opLink tag pos (b2n take) 0) 0 0)) ∧
    (d.rdB F.T_ID_INFO_ADM = true →
      (∃ u, exec (.rateQuery i c tag low) s = .next u ∧ (u.tread i).rateAt = d.rateAt ∧
        (u.tread i).lastReply.bind TRep.mask = some (low || d.ready)) ∧
      (∃ u, exec (.rateGo i c tag low cyc) s = .next u ∧
        (u.tread i).rateAt = (if low || d.ready then some (cyc.toNat, low) else d.rateAt) ∧
        (u.tread i).lastReply.bind TRep.mask = some (low || d.ready))) ∧
    (pos.val = d.pos → ∃ u, exec (.ident i c tag pos quarter) s = .next u ∧ (u.tread i).regs = d.regs ∧
      (u.tread i).lastReply.bind TRep.ans = some (replyTo (reqCart opIdent tag pos quarter 0) 0
        (bits (if quarter.val < 2 then d.enum0 else d.enum1).toNat (64 * (quarter.val % 2)) 64)))) ∧
  (∀ (s : State) (i : Cell) (d : Tread) (far : Bool) (f : Frame) (ta tc : Time), s.tread i = d → d.onSupply = true →
    d.rdB F.T_EPOCH_STALE = false → d.role (!far) = none → d.rd F.T_EPOCH_EPOCH = (headerOf f).epoch →
    (headerOf f).ftype = ftControl → (∀ p ∈ d.land, p.1 < 64) → frameStart f = true →
    d.laneLock (!far) = true →
    ∃ u, exec (.outboundFrame i far f ta tc) s = .next u ∧
      (u.tread i).txDown = outFrame f (headerOf f).dir (retHop (retOf f)) (!fcrcOk f) ∧
      ((u.tread i).frames.head?.map (fun x => (x.cyc, x.acc))) = some ((headerOf f).cycle, hcrcOk f) ∧
      (u.tread i).rd F.T_ID_INFO_HPOS = retHop (retOf f) ∧
      (hcrcOk f = true → (headerOf f).block = true → ∀ n < 4, ((u.tread i).out n).on = false) ∧
      (hcrcOk f = false → (u.tread i).outs = d.outs ∧ (u.tread i).cmds = d.cmds)) ∧
  (∀ (s : State) (i : Cell) (d : Tread) (f : Frame) (tb : Time), s.tread i = d → d.onSupply = true →
    frameStart f = true → hcrcOk f = true →
    ∃ u, exec (.inboundFrame i f tb) s = .next u ∧ (u.tread i).outs = d.outs ∧
      ((∀ x ∈ d.frames, x.cyc ≠ (headerOf f).cycle) →
        (u.tread i).txUp = (if fcrcOk f then sealFrame f else sealBad f)) ∧
      (∀ (x : TFrame) (r : List TFrame) (k : Nat), d.frames = x :: r → x.cyc = (headerOf f).cycle → d.slotIn x = some k →
          d.laneLock (x.dir == 1) = true → (∀ code ∈ d.fq, code < 4096) → (∀ c ∈ d.vcaps, c.2.1 < 2 ^ 14) →
        (x.ftype = ftEnum0 → slotOf (u.tread i).txUp k = d.enum0) ∧ (x.ftype = ftEnum1 → slotOf (u.tread i).txUp k = d.enum1) ∧
        (x.ftype = ftControl → upUP (slotOf (u.tread i).txUp k) = true ∧
          sbits (slotOf (u.tread i).txUp k) 0 14 = (d.vcapAvg (x.tHat - ns 200 + 4096)).1 ∧
          sbits (slotOf (u.tread i).txUp k) 64 16 = d.rd F.T_EPOCH_EPOCH)))

/-- The switching of a Tread (R259 to R286, R329, R330). -/
def Obligations.TreadSwitchesAsCommanded : Prop :=
  (∀ (s : State) (i : Cell) (d : Tread) (c : TCmd) (r : List TCmd), s.tread i = d → d.onSupply = true →
    d.cmds = c :: r → c.commit = none → c.run = true → d.byp = none →
    ∃ u, exec (.actionInstant i) s = .next u ∧ (u.tread i).cmds = r ∧
      (d.onlyBlock = true ∨ (c.mode = 0 ∧ c.state = 0) → (u.tread i).blocked = true ∧ (u.tread i).byCmd = true ∧
        ∀ n < 4, ((u.tread i).out n).on = false) ∧
      (d.onlyBlock = false → permitted d.full c.mode c.state = false → (u.tread i).blocked = true ∧
        (u.tread i).rd F.T_FLT_STAT_LAST_CODE = 0x050 ∧
        (u.tread i).rd F.T_SW_CNT_BADCMD = min (d.rd F.T_SW_CNT_BADCMD + 1) 255 ∧ ∀ n < 4, ((u.tread i).out n).on = false) ∧
      (d.onlyBlock = false → permitted d.full c.mode c.state = true → c.mode = 0 → 1 ≤ c.state → c.state ≤ 3 →
        d.notchTo = none → (u.tread i).rd F.T_SW_STAT_STATE = c.state ∧ (u.tread i).blocked = false ∧
        (u.tread i).byCmd = false)) ∧
  (∀ (s : State) (i : Cell) (d : Tread) (t : Time) (lv : Nat), s.tread i = d → d.onSupply = true → d.edge2 = some (t, lv) →
    lv ≤ 3 → ∃ u, exec (.ditherEdge i) s = .next u ∧ (u.tread i).rd F.T_SW_STAT_STATE = lv ∧ (u.tread i).edge2 = none ∧
      (u.tread i).blocked = (lv == 0) ∧ (u.tread i).hall = max d.hall t) ∧
  (∀ (s : State) (i : Cell) (d : Tread) (leg : Fin 2) (p : TTurnOn), s.tread i = d → d.onSupply = true →
    d.turnOn leg = some p → p.out < d.outs.length →
    ∃ u, exec (.deadTimeTurnOn i leg) s = .next u ∧
      (d.gfbEn = true → (d.out (otherOut p.out)).fb = true → u.tread i = d.toHall p.due) ∧
      (d.gfbEn = false ∨ (d.out (otherOut p.out)).fb = false → (u.tread i).turnOn leg = none ∧
        (d.locked = true → ((u.tread i).out p.out).on = true))) ∧
  (∀ (s : State) (i : Cell) (d : Tread) (n : Fin 4) (t : Time), s.tread i = d → d.onSupply = true → n.val < d.outs.length →
    (∃ u, exec (.gateFeedbackOff i n t) s = .next u ∧ ((u.tread i).out n).fb = false ∧
      ((u.tread i).out n).sample = none ∧
      ((d.out n).sample = none → ((u.tread i).out n).tFilt = (d.out n).tFilt) ∧
      (∀ a, (d.out n).sample = some a → (d.out n).chg = a → (d.advance t).hall ≤ a + ns (10 * clampN 5 500 (d.rd F.T_GFB_CFG_WIN)) →
        ((u.tread i).out n).tFilt = (((d.out n).tFilt : Int) +
          ((((d.advance t).hall - a) / 131072 * 2 : Nat) - ((d.out n).tFilt : Int)) /
            2 ^ clampN 1 7 (d.rd F.T_SW_CFG_DT_ASH)).toNat) ∧
      (∀ p, d.turnOn (n.val / 2) = some p → otherOut p.out = n → p.due ≤ (d.advance t).hall → d.locked = true →
        (d.advance t).hall ≤ (d.out n).chg + d.gfbWin → p.out < d.outs.length → ((u.tread i).out p.out).on = true)) ∧
    (d.gfbEn = true → (d.out n).mis = none → ∃ u, exec (.gfbMismatch i n t) s = .next u ∧
      bitOf ((u.tread i).rd F.T_GFB_STAT_LATCH) n = true ∧
      (d.FirstOf (8 + n.val) → (u.tread i).rd F.T_FLT_STAT_LAST_CODE = 8 + n.val) ∧ (u.tread i).byCmd = false ∧
      ∀ m < 4, ((u.tread i).out m).on = false)) ∧
  (∀ (s : State) (i : Cell) (d : Tread) (h : Time), s.tread i = d → d.onSupply = true →
    (∃ u, exec (.carrierEdge i h) s = .next u ∧
      (d.carrier = true → d.notchTo = none → d.byp = none →
        (u.tread i).rd F.T_SW_STAT_STATE = d.carrierAt (d.toHall h).hall ∧ (u.tread i).blocked = false) ∧
      (d.carrier = false → u.tread i = d.toHall h)) ∧
    (d.carrier = true → d.rdB F.T_REFR_STAT_REQ = true → d.notchTo = none → d.byp = none → d.reqAt = some h →
      d.hall ≤ h + d.notch →
      ∃ u, exec (.carrierNotch i) s = .next u ∧
        (u.tread i).notchTo = some (d.periodStart (h + d.notch / 2) + d.notch / 2) ∧ (u.tread i).rdB F.T_REFR_STAT_NOTCH = true ∧
        (u.tread i).rd F.T_REFR_STAT_NOTCHES = (d.rd F.T_REFR_STAT_NOTCHES + 1) % 2 ^ F.T_REFR_STAT_NOTCHES.w)) ∧
  (∀ (s : State) (i : Cell) (d : Tread) (leg : Fin 2), s.tread i = d → d.onSupply = true →
    ∃ u, exec (.refreshRequest i leg) s = .next u ∧
      ((d.out (2 * leg.val)).on = true → (u.tread i).rdB F.T_REFR_STAT_REQ = true) ∧
      ((d.out (2 * leg.val)).on = false → u.tread i = d)) ∧
  (∀ (s : State) (i : Cell) (d : Tread) (t : Time), s.tread i = d → d.onSupply = true → d.notchTo = some t → d.defer = none →
    ∃ u, exec (.notchEnd i) s = .next u ∧ (u.tread i).notchTo = none ∧ (u.tread i).refrEnd = some t ∧
      (u.tread i).rdB F.T_REFR_STAT_NOTCH = false) ∧
  (∀ (s : State) (i : Cell) (d : Tread) (b : TByp) (t : Time) (v : Word), s.tread i = d → d.onSupply = true →
    d.byp = some b →
    (b.conf = none → ∃ u, exec (.bypConfRise i t) s = .next u ∧ (u.tread i).rdB F.T_BYP_STAT_CONF = true ∧
      (u.tread i).byp = some { b with conf := some (d.advance t).hall } ∧ (u.tread i).bypassed = true) ∧
    (b.conf ≠ none ∨ b.fired ≠ none →
      ∃ u, exec (.bypassGatesOff i) s = .next u ∧ ∀ n < 4, ((u.tread i).out n).on = false) ∧
    (b.conf = none → b.fired = none → ∃ u, exec (.bypassConfTimeout i) s = .next u ∧
      (u.tread i).rdB F.T_BYP_STAT_THY = true ∧ (u.tread i).bypassed = true ∧
      (u.tread i).rd F.T_FLT_STAT_LAST_CODE = 0x048 ∧ (u.tread i).thyAt = some (u.tread i).hall) ∧
    (∀ a, d.thyAt = some a → b.fired ≠ none → b.conf = none →
      ∃ u, exec (.thyFirePulse i) s = .next u ∧ (u.tread i).thyAt = some (max d.hall (a + ns 100000))) ∧
    (bitOf v.toNat 0 = true → bits v.toNat 8 8 = 0x5A → d.byCmd = true → d.rdB F.T_OVG_STAT_LIVE = false →
      ∃ u, exec (.bypassRelease i v t) s = .next u ∧ (u.tread i).byp = none ∧ (u.tread i).bypassed = false ∧
        (u.tread i).rdB F.T_BYP_STAT_BYP = false ∧ (u.tread i).blocked = true) ∧
    (bits v.toNat 8 8 ≠ 0x5A →
      ∃ u, exec (.bypassRelease i v t) s = .next u ∧ u.tread i = d.advance t)) ∧
  (∀ (s : State) (i : Cell) (d : Tread) (a b : Option Nat) (t : Time), s.tread i = d → d.onSupply = true →
    d.rdB F.T_BYP_CFG_TEST_EN = true → d.byp = none → (∀ x, d.testAt = some x → x + d.testPer ≤ (d.advance t).now) →
    ∃ u, exec (.bypassTest i a b t) s = .next u ∧ (u.tread i).bypPulse = some ((d.advance t).now + ns 1000) ∧
      (∀ x y, a = some x → b = some y → x ≤ 500 → y ≤ 500 → (u.tread i).rdB F.T_BYP_STAT_TEST_FAIL = false ∧
        (u.tread i).rd F.T_BYP_STAT_TESTS = (d.rd F.T_BYP_STAT_TESTS + 1) % 2 ^ 16) ∧
      ((∀ x, a = some x → 500 < x) ∨ (∀ y, b = some y → 500 < y) → (u.tread i).rdB F.T_BYP_STAT_TEST_FAIL = true ∧
        (d.FirstOf 0x040 → (u.tread i).rd F.T_FLT_STAT_LAST_CODE = 0x040))) ∧
  (∀ (s : State) (i : Cell) (d : Tread) (c : Word) (k0 n : Nat) (t0 : Time), s.tread i = d → d.onSupply = true →
    d.k0 = some (k0, t0) → n = (c.toNat + 2 ^ 32 - k0) % 2 ^ 32 → n ≠ 0 → n < 2 ^ 31 →
    (∀ p ∈ d.land, p.1 < 64) →
    ∃ u, exec (.landingActionBase i c) s = .next u ∧ (u.tread i).rdB F.T_HT_STAT_HOLD = true ∧
      (d.rdB F.T_LAND_STAT_ARMED = false → (u.tread i).outs = d.outs) ∧
      (d.rdB F.T_LAND_STAT_ARMED = true → d.carrier = false → d.byp = none → d.blocked = false → d.depth < n ∨
        d.landEntry c.toNat = none → (u.tread i).blocked = true ∧ (u.tread i).rd F.T_FLT_STAT_LAST_CODE = 0x060 ∧
        ∀ m < 4, ((u.tread i).out m).on = false) ∧
      (∀ w, d.rdB F.T_LAND_STAT_ARMED = true → d.carrier = false → d.byp = none → d.blocked = false → n ≤ d.depth →
        d.landEntry c.toNat = some w → d.landState (bits w.toNat 0 2) ≠ 0 → d.landState (bits w.toNat 2 2) ≠ 0 →
        d.onlyBlock = false → (u.tread i).rdB F.T_LAND_STAT_PLAYING = true ∧
        (u.tread i).rd F.T_SW_STAT_STATE = d.landState (bits w.toNat 0 2) ∧ (u.tread i).blocked = false)) ∧
  (∀ (s : State) (i : Cell) (d : Tread) (k0 : Nat) (t0 t : Time), s.tread i = d → d.onSupply = true →
    (d.k0 = some (k0, t0) → d.lost = false → ∃ u, exec (.frameLossWatchdog i) s = .next u ∧ (u.tread i).lost = true ∧
      (u.tread i).rd F.T_FLT_STAT_LAST_CODE = 0x058 ∧
      (d.rdB F.T_LAND_STAT_ARMED = true → (u.tread i).outs = d.outs) ∧
      (d.rdB F.T_LAND_STAT_ARMED = false → d.byp = none → (u.tread i).blocked = true ∧
        ∀ n < 4, ((u.tread i).out n).on = false)) ∧
    (∃ u, exec (.guardWatchdog i t) s = .next u ∧
      (d.rdB F.T_LAND_STAT_ARMED = false →
        ((d.advance t).now < d.validAt + ns (33 * clampN 100 2000 (d.rd F.T_SW_TCYC_LEN) + 5000) → u.tread i = d.advance t) ∧
        (d.validAt + ns (33 * clampN 100 2000 (d.rd F.T_SW_TCYC_LEN) + 5000) ≤ (d.advance t).now →
          (u.tread i).byCmd = false ∧ ∀ n < 4, ((u.tread i).out n).on = false))))

/-- A Tread's start, guard, firmware, converter and scheduler (R290 to R313, R523). -/
def Obligations.TreadStartsConvertsAndSchedules : Prop :=
  (∀ (s : State) (i : Cell) (full : Bool) (uv : Nat) (t : Time), 1000000 ≤ uv → uv ≤ 2480000 →
    ∃ u, exec (.treadSupplyGood i full uv t) s = .next u ∧ (u.tread i).powered = true ∧
      (u.tread i).full = full ∧ (u.tread i).vOv = uv ∧
      (u.tread i).rdB F.T_OVG_STAT_ARMED = true ∧ (u.tread i).rdB F.T_ID_INFO_ADM = false ∧
      (∀ n, ((u.tread i).out n).on = false) ∧ ∀ o, treadKept o = true → (u.tread i).reg o = (s.tread i).reg o) ∧
  (∀ (s : State) (i : Cell) (d : Tread) (t : Time) (act : Nat) (ok : Nat → Bool),
    s.tread i = d → d.onSupply = true → act = d.rd F.T_FW_STAT_ACT →
    ok = (fun b => (d.checkSlot b).1 == 0) →
    (∃ u, exec (.treadBootDecision i t) s = .next u ∧
      (u.tread i).rdB F.T_FW_STAT_VA = ok 0 ∧ (u.tread i).rdB F.T_FW_STAT_VB = ok 1 ∧
      (u.tread i).rdB F.T_STAT_BOOTED = (ok 0 || ok 1) ∧ (u.tread i).rdB F.T_STAT_SELFKEEP = !(ok 0 || ok 1) ∧
      (ok act = true → (u.tread i).rd F.T_FW_STAT_ACT = act) ∧
      (ok act = false → ok (1 - act) = true → (u.tread i).rd F.T_FW_STAT_ACT = 1 - act ∧
        (u.tread i).rd F.T_FLT_STAT_LAST_CODE = 0x070)) ∧
    (∃ u, exec (.treadSupplyFall i true t) s = .next u ∧ (u.tread i).powered = false ∧
      (∀ n, ((u.tread i).out n).on = false) ∧ ∀ o, treadKept o = true → (u.tread i).reg o = d.reg o) ∧
    (∃ u, exec (.treadSupplyFall i false t) s = .next u ∧ (u.tread i).lowAt = some (d.advance t).now ∧
      (u.tread i).rdB F.T_BYP_STAT_BYP = false ∧ (u.tread i).byp = none ∧ ∀ n < 4, ((u.tread i).out n).on = false) ∧
    (∃ u, exec (.verify i t) s = .next u ∧ (u.tread i).rdB F.T_FW_STAT_BUSY = true) ∧
    (d.rdB F.T_FW_STAT_BUSY = true → ∃ u, exec (.verifyDone i t) s = .next u ∧
      (u.tread i).rdB F.T_FW_STAT_BUSY = false ∧ (u.tread i).rdB F.T_FW_STAT_VRES = true ∧
      (u.tread i).rd F.T_FW_STAT_RESULT = (d.checkSlot (1 - act)).1) ∧
    (∀ key : Byte, ∃ u, exec (.fwSwitch i key t) s = .next u ∧
      (key = 0xA5 → (d.blocked || d.bypassed) = true → d.rdB F.T_FW_STAT_VRES = true → d.rd F.T_FW_STAT_RESULT = 0 →
        (u.tread i).rd F.T_FW_STAT_ACT = 1 - act ∧ (u.tread i).rdB F.T_FW_CTRL_UPD_EN = false ∧
        (u.tread i).rdB F.T_STAT_BOOTED = true) ∧
      (key ≠ 0xA5 ∨ (d.blocked = false ∧ d.bypassed = false) ∨ d.rdB F.T_FW_STAT_VRES = false ∨
        d.rd F.T_FW_STAT_RESULT ≠ 0 → u.tread i = d.advance t))) ∧
  (∀ (s : State) (i : Cell) (d : Tread) (t : Time) (uv : Nat), s.tread i = d → d.onSupply = true →
    (d.ovArm ≠ 0 → d.ovHeld = false → ∃ u, exec (.ovSetMeasure i uv t) s = .next u ∧
      (uv < 1000000 ∨ 2480000 < uv → (u.tread i).vOv = (if d.ovArm < 50 * (max uv d.ovArm - min uv d.ovArm)
        then min 2250000 d.ovArm else 2250000) ∧ (u.tread i).rdB F.T_OVG_STAT_STRAP_FAULT = true) ∧
      (1000000 ≤ uv → uv ≤ 2480000 → 50 * (max uv d.ovArm - min uv d.ovArm) ≤ d.ovArm → (u.tread i).vOv = d.ovArm) ∧
      (1000000 ≤ uv → uv ≤ 2480000 → d.ovArm < 50 * (max uv d.ovArm - min uv d.ovArm) →
        (u.tread i).vOv = min uv d.ovArm ∧ (u.tread i).ovHeld = true ∧ (u.tread i).rdB F.T_OVG_STAT_STRAP_FAULT = true)) ∧
    (∃ u, exec (.guardTrip i t) s = .next u ∧
      (d.rdB F.T_OVG_STAT_ARMED = true → (u.tread i).rdB F.T_PROT_STAT_OV_TRIP = true ∧ (u.tread i).byp ≠ none ∧
        (d.ovOn = false → d.FirstOf 0x010 → (u.tread i).rd F.T_FLT_STAT_LAST_CODE = 0x010) ∧
        (d.byp = none → (u.tread i).rd F.T_SW_STAT_STATE = 4 ∧ (u.tread i).rdB F.T_BYP_STAT_BYP = true)) ∧
      (d.rdB F.T_OVG_STAT_ARMED = false → u.tread i = d.advance t)) ∧
    (∃ u, exec (.supokLoss i t) s = .next u ∧ (u.tread i).rdB F.T_STAT_SUPOK = false ∧
      (d.rdB F.T_STAT_LOWP = true → (u.tread i).outs = d.outs) ∧
      (d.rdB F.T_STAT_LOWP = false → bitOf (d.rd F.T_PROT_STAT_LIVE) 5 = false →
        (d.FirstOf 0x032 → (u.tread i).rd F.T_FLT_STAT_LAST_CODE = 0x032) ∧ (u.tread i).byCmd = false ∧
        ∀ n < 4, ((u.tread i).out n).on = false)) ∧
    (∀ n : Fin 4, ∃ u, exec (.desatFault i n t) s = .next u ∧ bitOf ((u.tread i).rd F.T_PROT_STAT_DESAT) n = true ∧
      ((u.tread i).out (2 * (n.val / 2))).on = false ∧ ((u.tread i).out (2 * (n.val / 2) + 1)).on = false ∧
      (d.byp = none → (u.tread i).blocked = true) ∧
      (bitOf d.fltOn n = false → d.FirstOf (1 + n.val) → (u.tread i).rd F.T_FLT_STAT_LAST_CODE = 1 + n.val)) ∧
    (∃ u, exec (.digestUpdate i t) s = .next u ∧ (u.tread i).reg R.T_DIGEST = BitVec.ofNat 32 (crcWords (treadPwRegs.map d.reg ++
        (List.range 128).map (fun w => d.reg (R.T_PW w)))))) ∧
  (∀ (s : State) (i : Cell) (d : Tread) (num : Int) (den : Nat) (ovf : Bool) (p : TPins) (t h : Time) (slot ends : Bool),
    s.tread i = d → d.onSupply = true → (d.advance t).sampling (d.advance t).hall = (h, slot, ends) →
    (slot = false → ∃ u, exec (.adcConversion i num den ovf p t) s = .next u ∧
      ((u.tread i).rd (F.T_ADC_RES_CODE 0), (u.tread i).rdB (F.T_ADC_RES_OVR 0), (u.tread i).rdB (F.T_ADC_RES_UNDER 0)) =
        adcCode num den ovf ∧
      (u.tread i).rd (F.T_ADC_RES_COUNT 0) = (d.rd (F.T_ADC_RES_COUNT 0) + 1) % 2 ^ (F.T_ADC_RES_COUNT 0).w ∧
      (u.tread i).rdB F.T_STAT_SUPOK = p.supok ∧ (u.tread i).rdB F.T_OVG_STAT_LIVE = p.ov ∧
      (ends = true → (u.tread i).rd F.T_ADC_VCAP_CYC = d.frameOf h % 2 ^ 16)) ∧
    (slot = true → ∀ j n, d.rdB F.T_ADC_CFG_SEQ_EN = true → d.nextSlot 16 d.seqPos = some (j, n) →
      ∃ u, exec (.adcConversion i num den ovf p t) s = .next u ∧ (u.tread i).seqPos = (j + 1) % 16 ∧
        ((u.tread i).rd (F.T_ADC_RES_CODE n), (u.tread i).rdB (F.T_ADC_RES_OVR n), (u.tread i).rdB (F.T_ADC_RES_UNDER n)) =
          adcCode num den ovf)) ∧
  (∀ (s : State) (i : Cell) (d : Tread) (th : Fin 16) (prio : Fin 8) (r : Nat) (t : Time), s.tread i = d →
    d.onSupply = true →
    (∃ u, exec (.tSchReady i th t) s = .next u ∧
      ((d.thr th).st = 0 ∨ (d.thr th).st = 2 → ((u.tread i).thr th).st = 1 ∧ ((u.tread i).thr th).wake = none ∧
        (u.tread i).running = (u.tread i).bestThread) ∧
      ((d.thr th).st = 3 ∨ ((d.thr th).st = 1 ∧ (d.thr th).tout = false) → u.tread i = d.advance t)) ∧
    (∃ u, exec (.tSchPrio i th prio t) s = .next u ∧ ((u.tread i).thr th).prio = prio ∧
      (u.tread i).running = (u.tread i).bestThread) ∧
    (∃ u, exec (.tSchSuspend i th t) s = .next u ∧ ((u.tread i).thr th).st = 0 ∧ ((u.tread i).thr th).wake = none ∧
      (u.tread i).running = (u.tread i).bestThread) ∧
    (d.running = some r →
      (∃ u, exec (.tSchWait i t) s = .next u ∧ ((u.tread i).thr r).st = 2 ∧
        ((u.tread i).thr r).wake = (if d.rd F.T_SCH_ARG_TICKS = 0 then none
          else some (((d.advance t).tickNow + d.rd F.T_SCH_ARG_TICKS) % 2 ^ 32)) ∧
        (u.tread i).running = (u.tread i).bestThread) ∧
      (∃ u, exec (.tSchSleep i t) s = .next u ∧ ((u.tread i).thr r).st = 3 ∧
        ((u.tread i).thr r).wake = some (((d.advance t).tickNow + clampN 1 (2 ^ 31 - 1) (d.rd F.T_SCH_ARG_TICKS)) % 2 ^ 32) ∧
        (u.tread i).running = (u.tread i).bestThread)) ∧
    (∃ u, exec (.tSchWake i t) s = .next u ∧ (u.tread i).running = (u.tread i).bestThread ∧
      ∀ w, (d.thr th).wake = some w →
        (serialLt (d.advance t).tickNow w = false → ((u.tread i).thr th).st = 1 ∧ ((u.tread i).thr th).wake = none) ∧
        (serialLt (d.advance t).tickNow w = true → (u.tread i).thr th = d.thr th))) ∧
  (∀ (s : State) (i : Cell) (n : Fin 8) (src : Fin 16) (t : Time), (s.tread i).onSupply = true →
    ∃ u, exec (.tEvcSelect i n src t) s = .next u ∧ (u.tread i).rd (F.T_EVC_SEL_SRC n) = src ∧
      (u.tread i).reg (R.T_EVC_CNT n) = 0)

/-- Hall time (R229 to R235, R246 to R248). -/
def Obligations.HallTimeFollowsItsCommands : Prop :=
  (∀ (s : State) (t : Time) (secs : Word) (th : Int), s.pwr.held = false →
    th = (sext 32 secs.toNat * 1000000000 + min 999999999 (s.rd F.HT_OFFS_NS_NS)) * 65536 + s.rd F.HT_OFFS_FR_FR →
    ∃ u, exec (.offsetCommit t secs) s = .next u ∧ (s.isNewel = false → u = s.advance t) ∧
      (s.isNewel = true → s.rd F.HT_CTRL_SRC = 2 → u.clk.ppsSecs = some (sext 32 secs.toNat) ∧ u.regs = s.regs) ∧
      (s.isNewel = true → s.rd F.HT_CTRL_SRC = 1 → u.clk.theta = th ∧ u.rd F.HT_STAT_SRC_USED = 1 ∧
        u.clk.rhoP.natAbs ≤ s.slew.natAbs ∧
        (s.stepTh ≤ th.natAbs → s.rdB F.HT_CTRL_LARGE_SLEW = false → u.rdB F.HT_STAT_STEP_PEND = true ∧
          u.rdB F.HT_STAT_HOLD = true ∧ u.clk.rhoP = 0 ∧ u.clk.rhoI = s.clk.rhoI) ∧
        (th.natAbs < s.stepTh → u.rdB F.HT_STAT_STEP_PEND = false ∧ u.rdB F.HT_STAT_HOLD = false ∧
          (s.clk.lastOffs = none → u.clk.rhoP = 0) ∧
          ∀ a, s.clk.lastOffs = some a → (u.clk.rhoP, u.clk.rhoI) =
            servo th ((s.advance t).clk.now - a) (s.rd F.HT_SERVO_KP_SH) (s.rd F.HT_SERVO_KI_SH) s.slew s.clk.rhoI))) ∧
  (∀ (s : State) (t : Time), s.pwr.held = false →
    (∃ u, exec (.ppsInEdge t) s = .next u ∧ (s.rdB F.HT_PPS_CFG_IN_EN = false → u = s.advance t) ∧
      (s.rdB F.HT_PPS_CFG_IN_EN = true → ∀ f, f = ((s.advance t).clk.hall / 4096 * 4096 - s.rd F.HT_PPS_IDLY_DLY * 256) % second →
        u.rd F.HT_PPS_STAMP_OFFS = satField 32 ((if 2 * f ≤ second then (f : Int) else (f : Int) - second) / 16384))) ∧
    (∃ u, exec (.sourceLoss t) s = .next u ∧ ((s.advance t).sourceGone = false → u = s.advance t) ∧
      ((s.advance t).sourceGone = true → u.rdB F.HT_STAT_HOLD = true ∧ u.rd F.HT_STAT_SRC_USED = 0 ∧ u.clk.rhoP = 0 ∧
        u.clk.rhoI = s.clk.rhoI ∧ ∀ o, o ≠ R.HT_STAT → u.reg o = s.reg o)) ∧
    (∃ u, exec (.step t) s = .next u ∧ (s.mayStep = false → u = s.advance t) ∧
      (s.mayStep = true → s.isNewel = true → u.regs = s.regs ∧
        (s.hasOthers = false → u.clk.stepAt = some ((s.cyc + 1) % 2 ^ 32, -s.clk.theta)) ∧
        (s.hasOthers = true → s.clk.stepAt = none → u.clk.stepAt = some ((s.cyc + 4) % 2 ^ 32, -s.clk.theta))) ∧
      (s.mayStep = true → s.isNewel = false → u.clk.hall = (((s.advance t).clk.hall : Int) - s.clk.theta).toNat ∧
        u.rdB F.HT_STAT_STEP_PEND = false ∧ u.latchBit 0x00C = true)) ∧
    (∃ u, exec (.timeRead t) s = .next u ∧ u.rd F.HT_TIME_FR_FR = hallFr (s.advance t).clk.hall ∧
      u.rdata = BitVec.ofNat 32 (hallFr (s.advance t).clk.hall) ∧ u.rd F.HT_TIME_NS_NS = hallNs (s.advance t).clk.hall % 2 ^ 30 ∧
      u.rd F.HT_TIME_SL_S = hallS (s.advance t).clk.hall % 2 ^ 32 ∧
      u.rd F.HT_TIME_SH_S = hallS (s.advance t).clk.hall / 2 ^ 32 % 2 ^ 16) ∧
    (∀ n : Fin 2, ∃ u, exec (.txqRead n t) s = .next u ∧
      (s.txq n = [] → u.rdata = 0 ∧ u.regs = s.regs) ∧
      (∀ x r, s.txq n = x :: r → u.txq n = r ∧ u.rdata = BitVec.ofNat 32 (x.id + 2 ^ 16) ∧
        u.rd (F.HT_ETH_TXQ_FR_FR n) = hallFr x.hall % 2 ^ 16 ∧ u.rd (F.HT_ETH_TXQ_NS_NS n) = hallNs x.hall % 2 ^ 30))) ∧
  (∀ (s : State), s.pwr.held = false →
    (∃ u, exec .hallStep s = .next u ∧ (s.anyDeblocked = true → u = s) ∧
      (∀ d e, s.anyDeblocked = false → s.clk.stepAt = some (s.cyc, e) →
        (s.isNewel = false ∧ d = e) ∨ (s.isNewel = true ∧ s.mayStep = true ∧ d = -s.clk.theta) →
        u.clk.hall = ((s.clk.hall : Int) + d).toNat ∧ u.clk.tkHall = ((s.clk.tkHall : Int) + d).toNat ∧
        u.clk.stepAt = none ∧ u.rd F.HT_STEP_CNT_COUNT = (s.rd F.HT_STEP_CNT_COUNT + 1) % 2 ^ 16 ∧
        u.rd F.HT_STEP_CYC_CYC = s.cyc ∧ u.rdB F.HT_STAT_STEP_PEND = false ∧ u.latchBit 0x00C = true)) ∧
    (∃ u, exec .ppsOutPulse s = .next u ∧ (s.rdB F.HT_PPS_CFG_OUT_EN = false → u = s) ∧
      (s.rdB F.HT_PPS_CFG_OUT_EN = true →
        u.clk.hall + s.rd F.HT_PPS_ODLY_DLY * 256 =
          ((s.clk.hall + s.rd F.HT_PPS_ODLY_DLY * 256) / second + 1) * second ∧
        u.clk.ppsOut = some (u.clk.now + clampN 1 999 (s.rd F.HT_PPS_CFG_WIDTH) * millisecond))))

/-- Clock synthesis (R29, R250 to R254). -/
def Obligations.ClocksFollowTheirCommands : Prop :=
  (∀ (s : State) (p : Fin 3) (n : Nat) (err t : Time), s.pwr.held = false →
    (s.lockCnt p ≤ n → err < s.lockWin p → ∃ u, exec (.pllLock p n err t) s = .next u ∧ u.rdB (pllLockF p) = true ∧
      u.liveBit (0x0B0 + p.val) = false ∧ (p = 0 → u.clk.refOk = true ∧ u.liveBit 0x0B3 = false)) ∧
    (4 ≤ n → s.lockWin p ≤ err → s.rdB (pllLockF p) = true → ∃ u, exec (.pllLockLoss p n err t) s = .next u ∧
      u.rdB (pllLockF p) = false ∧ u.rdB (pllErrF p) = true ∧
      u.liveBit (0x0B0 + p.val) = true ∧ (p = 0 → u.rdB F.CLK_STAT_SAFE = true))) ∧
  (∀ (s : State) (t : Time), s.pwr.held = false →
    (∃ u, exec (.apply t) s = .next u ∧
      (s.anyDeblocked = true ∨ s.divInRange = false → u.latchBit 0x00A = true ∧ u.reg R.CLK_STAT = s.reg R.CLK_STAT) ∧
      (s.anyDeblocked = false → s.divInRange = true → u.rdB F.CLK_STAT_APPLY_PEND = true ∧ u.rdB F.CLK_STAT_SAFE = true ∧
        u.clk.divUsed = s.reg R.CLK_DIV ∧ u.clk.refmUsed = s.rd F.CLK_CFG_CORE_REFM)) ∧
    (∃ u, exec (.applyComplete t) s = .next u ∧
      (s.rdB F.CLK_STAT_APPLY_PEND = true → s.rdB (pllLockF 0) = true → u.rdB F.CLK_STAT_APPLY_PEND = false ∧
        u.rdB F.CLK_STAT_SAFE = false) ∧
      (s.rdB F.CLK_STAT_APPLY_PEND = false ∨ s.rdB (pllLockF 0) = false → u = s.advance t)) ∧
    (∃ u, exec (.applyTimeout t) s = .next u ∧
      (s.rdB F.CLK_STAT_APPLY_PEND = true → u.rdB F.CLK_STAT_APPLY_PEND = false ∧ u.rdB F.CLK_ERR_TIMEOUT = true ∧
        u.liveBit 0x0B0 = true ∧ u.rdB F.CLK_STAT_SAFE = s.rdB F.CLK_STAT_SAFE) ∧
      (s.rdB F.CLK_STAT_APPLY_PEND = false → u = s.advance t)) ∧
    (∃ u, exec (.refLoss t) s = .next u ∧ u.clk.refOk = false ∧ u.rdB F.CLK_ERR_REF_LOSS = true ∧ u.liveBit 0x0B3 = true ∧
      (s.rdB F.CLK_CFG_DPLL_FB_EN = true → u.rdB F.CLK_STAT_DPLL_FB = true)) ∧
    (∃ u, exec (.syncArm t) s = .next u ∧ (s.anyDeblocked = true → u = s.advance t) ∧
      (s.anyDeblocked = false → u.rdB F.CLK_STAT_SYNC_ARMED = true ∧ ∀ o, o ≠ R.CLK_STAT → u.reg o = s.reg o)) ∧
    (∃ u, exec (.clkSyncEdge t) s = .next u ∧ (s.rdB F.CLK_STAT_SYNC_ARMED = false → u = s.advance t) ∧
      (s.rdB F.CLK_STAT_SYNC_ARMED = true → u.rdB F.CLK_STAT_SYNC_ARMED = false ∧
        u.rd ⟨R.CLK_SYNC_NS, 0, 30⟩ = hallNs (s.advance t).clk.hall % 2 ^ 30))) ∧
  (∀ (s : State) (n : Fin 39) (t : Time),
    (∃ u, exec (.islandClockFault n t) s = .next u ∧ n.val ∈ u.pwr.noClock ∧
      (s.pwr.held = false → u.liveBit (0x080 + n.val) = true) ∧ (s.pwr.held = true → u.regs = s.regs)) ∧
    (∃ u, exec (.islandClockReturn n t) s = .next u ∧ n.val ∉ u.pwr.noClock ∧
      (s.pwr.held = false → u.liveBit (0x080 + n.val) = false) ∧ (s.pwr.held = true → u.regs = s.regs)) ∧
    (∃ u, exec (.refLoss t) s = .next u ∧ u.clk.refOk = false ∧ (s.pwr.held = true → u.regs = s.regs)))

/-- Power and resets (R474 to R486, R495, R500, R521, R525). -/
def Obligations.ResetsHoldAndReleaseTheChip : Prop :=
  (∀ (s : State) (since t : Time), (s.regs.map Prod.fst).Nodup →
    (∃ u, exec (.resetPin since t) s = .next u ∧ (t < since + ns 1000 → u = s.advance t) ∧
      (since + ns 1000 ≤ t → s.HeldFrom u ∧ u.pwr.pinHold = true ∧ bitOf u.pwr.causes 1 = true)) ∧
    (∃ u, exec (.thermalShutdown since t) s = .next u ∧ (t < since + ns 1000000 → u = s.advance t) ∧
      (since + ns 1000000 ≤ t → s.HeldFrom u ∧ u.pwr.hotHold = true ∧ bitOf u.pwr.causes 3 = true))) ∧
  (∀ (s : State) (w t : Time) (c : Int) (x : StartIn), s.clk.refOk = true →
    (s.pwr.held = true → s.pwr.pinHold = false → s.pwr.hotHold = false →
      (s.pwr.porHold = true → s.pwr.railLow = 0 ∧ s.pwr.goodAt + ns 2000000 ≤ (s.advance t).clk.now) →
      ∃ u, exec (.powerOnReset t x) s = .next u ∧ u.ReleasedWith x ∧ u.treads = s.treads) ∧
    (s.pwr.held = true → s.pwr.porHold = false → s.pwr.hotHold = false →
      ∃ u, exec (.resetNRelease t x) s = .next u ∧ u.ReleasedWith x ∧ u.treads = s.treads) ∧
    (s.pwr.held = true → s.pwr.porHold = true →
      ∃ u, exec (.resetNRelease t x) s = .next u ∧ u.pwr.held = true ∧ u.pwr.pinHold = false ∧ u.regs = s.regs) ∧
    (s.pwr.held = true → s.pwr.porHold = false → s.pwr.pinHold = false →
      ∃ u, exec (.thermalShutdownEnd c t x) s = .next u ∧ (110 ≤ c → u = s.advance t) ∧
        (c < 110 → u.ReleasedWith x ∧ u.treads = s.treads)) ∧
    (∀ (bit : Bool) (key : Byte), ∃ u, exec (.chip bit key w t x) s = .next u ∧
      (s.pwr.held = true ∨ bit = false ∨ key ≠ 0x9D ∨ s.anyDeblocked = true → u = s.advance w) ∧
      (s.pwr.held = false → bit = true → key = 0x9D → s.anyDeblocked = false → s.pwr.porHold = false →
        s.pwr.pinHold = false → s.pwr.hotHold = false → u.ReleasedWith x ∧ u.treads = s.treads ∧ u.coreMem = s.coreMem)) ∧
    (s.pwr.held = false → s.dbgScope 2 = true → s.anyDeblocked = false →
      ∃ u, exec (.jtagInstruction .drive t x) s = .next u ∧ u.pwr.jtagDrives = true ∧ u.regs = s.regs) ∧
    (∀ op, op ≠ JtagOp.drive → s.pwr.porHold = false → s.pwr.pinHold = false → s.pwr.hotHold = false →
      ∃ u, exec (.jtagInstruction op t x) s = .next u ∧ (s.pwr.jtagDrives = false → u = s.advance t) ∧
        (s.pwr.jtagDrives = true → u.ReleasedWith x ∧ u.pwr.jtagDrives = false))) ∧
  (∀ (s : State) (t : Time), s.pwr.held = false → s.prb.reads = [] → (∀ n < 16, (s.hring n).wait = .idle) →
    (∃ u, exec (.pfail t) s = .next u ∧ u.pwr.pfailLow = true ∧ u.rdB F.PRB_STAT_PFAIL = true ∧
      u.rdB F.CLK_RAIL_STAT_PFAIL_N = false ∧ u.prb.queue = [] ∧ u.prb.backlog = [] ∧ u.prb.busy = s.prb.busy) ∧
    (∃ u, exec (.pfailNRise t) s = .next u ∧ u.pwr.pfailLow = false ∧ u.rdB F.CLK_RAIL_STAT_PFAIL_N = true ∧
      u.rdB F.PRB_STAT_PFAIL = s.rdB F.PRB_STAT_PFAIL) ∧
    (∀ (rail : Fin 8) (lv : RailLevel), rail.val < 7 → ∃ u, exec (.railOutOfRange rail lv t) s = .next u ∧
      (lv = .reset → s.pwr.porHold = false → u.pwr.held = true ∧ u.pwr.porHold = true ∧ u.treads = s.treads) ∧
      (lv ≠ .reset → bitOf u.pwr.railBad rail = (lv != .good) ∧ u.liveBit 0x0B5 = (u.pwr.railBad != 0) ∧
        u.rd F.CLK_RAIL_STAT_GOOD = 127 - u.pwr.railBad % 128)) ∧
    (∀ lv : RailLevel, ∃ u, exec (.railOutOfRange 7 lv t) s = .next u ∧ u.rdB F.CLK_RAIL_STAT_SAF = (lv == .good) ∧
      (lv = .reset → u.saf.held = true)) ∧
    (∀ (mv : Nat) (since : Time) (out : Bool), out = (decide (mv < 630) || decide (870 < mv)) →
      ∃ u, exec (.coreVoltageOutOfRange mv since t) s = .next u ∧
        u.pwr.coreBad = (out && (s.pwr.coreBad || decide (since + ns 10000 ≤ t))) ∧
        u.liveBit 0x0B4 = (u.pwr.coreBad || s.pwr.critLow)) ∧
    (∀ c : Int, -128 ≤ c → c ≤ 127 → ∃ u, exec (.dieTemperatureHigh c t) s = .next u ∧ u.rdI F.CLK_TEMP_TEMP = c ∧
      u.rdI F.CLK_TEMP_MAX = max c (s.rdI F.CLK_TEMP_MAX) ∧ u.liveBit 0x0B6 = decide (s.rdI F.CLK_TEMP_HI < c)) ∧
    (∀ (ack : Bool) (mons : List Nat) (slack vmeas : Nat) (due crit : Bool), slack = mons.foldl min 255 →
      due = decide (s.pwr.avsAt + ns (100000 * clampN 1 255 (s.rd F.CLK_AVS_CFG_PER)) ≤ (s.advance t).clk.now) →
      crit = decide (slack < s.rd F.CLK_AVS_MON_CRIT) → ∃ u, exec (.avsPeriod ack mons vmeas t) s = .next u ∧
      (s.rdB F.CLK_AVS_CFG_EN = false → u = s.advance t) ∧
      (s.rdB F.CLK_AVS_CFG_EN = true → u.rd F.CLK_AVS_MON_SLACK = slack ∧
        ((due || crit) = true → u.rdB F.CLK_AVS_STAT_NOREG = !ack) ∧ u.liveBit 0x0B4 = (s.pwr.coreBad || crit) ∧
        (ack = false → u.pwr.vset = s.pwr.vset) ∧
        (ack = true → crit = false → due = true → slack + s.rd F.CLK_AVS_CFG_HYS < s.rd F.CLK_AVS_CFG_TGT →
          (u.pwr.vset : Int) = clampI 1300 1700 (s.pwr.vset + 5 * clampN 1 15 (s.rd F.CLK_AVS_CFG_STEP))) ∧
        (ack = true → crit = false → due = true → s.rd F.CLK_AVS_CFG_TGT + s.rd F.CLK_AVS_CFG_HYS < slack →
          (u.pwr.vset : Int) = clampI 1300 1700 (s.pwr.vset - 5 * clampN 1 15 (s.rd F.CLK_AVS_CFG_STEP))) ∧
        (ack = true → crit = true →
          (u.pwr.vset : Int) = clampI 1300 1700 (s.pwr.vset + 20 * clampN 1 15 (s.rd F.CLK_AVS_CFG_STEP))))))

/-- Boot and debug access (R490 to R496). -/
def Obligations.BootAndDebugNeedValidImagesAndAnswers : Prop :=
  (∀ (s : State) (a b : Option (List Byte)) (t : Time) (res : Option (List Byte) → Nat) (first : Bool) (x y : Option (List Byte)),
    s.pwr.held = false → s.rdB F.GEN_BOOT_STAT_SRC = false → s.rdB F.GEN_BOOT_STAT_DONE = false →
    res = (fun i => match i with
      | none => 5
      | some i => imgCheck (s.rd F.GEN_BOOT_SVN_FUSE_SVN) s.pwr.fuseKey i) →
    first = s.rdB F.GEN_BOOT_CFG_SLOT → x = (if first then b else a) → y = (if first then a else b) →
    ∃ u, exec (.bootVerify a b t) s = .next u ∧ u.treads = s.treads ∧
      (∀ i, x = some i → res x = 0 → u.rdB F.GEN_BOOT_STAT_DONE = true ∧ u.rdB F.GEN_BOOT_STAT_SLOT_USED = first ∧
        u.rd F.GEN_BOOT_STAT_RESULT = 0 ∧
        u.coreMem = writeBytes s.coreMem 0 i.length (imgNum i 0 i.length)) ∧
      (res x ≠ 0 → s.rdB F.GEN_BOOT_CFG_FALLBACK_EN = true → res y = 0 → u.rdB F.GEN_BOOT_STAT_DONE = true ∧
        u.rdB F.GEN_BOOT_STAT_SLOT_USED = !first) ∧
      (res x ≠ 0 → s.rdB F.GEN_BOOT_CFG_FALLBACK_EN = false ∨ res y ≠ 0 → u.rdB F.GEN_BOOT_STAT_FAIL = true ∧
        u.rdB F.GEN_BOOT_STAT_DONE = false)) ∧
  (∀ (s : State) (bit may : Bool) (key : Byte) (t : Time) (r : Nat), s.pwr.held = false →
    r = imgCheck (s.rd F.GEN_BOOT_SVN_FUSE_SVN) s.pwr.fuseKey
      (byteList s.coreMem 0 (0x200 + min 16776704 (readBytes s.coreMem 4 4))) →
    may = (!s.rdB F.GEN_BOOT_STAT_DONE && (s.rdB F.GEN_BOOT_STAT_SRC || s.rdB F.GEN_BOOT_STAT_FAIL)) →
    ∃ u, exec (.go bit key t) s = .next u ∧ (bit = false ∨ key ≠ 0x47 ∨ may = false → u = s.advance t) ∧
      (bit = true → key = 0x47 → may = true → u.rd F.GEN_BOOT_STAT_RESULT = r ∧
        u.rdB F.GEN_BOOT_STAT_DONE = (r == 0))) ∧
  (∀ (s : State) (key : Byte) (t : Time), s.pwr.held = false →
    (∃ u, exec (.chal key t) s = .next u ∧ (key ≠ 0xD1 ∨ 3 ≤ s.rd F.GEN_DBG_STAT_FAILS → u = s.advance t) ∧
      (key = 0xD1 → s.rd F.GEN_DBG_STAT_FAILS < 3 → u.rdB F.GEN_DBG_STAT_CHAL_V = true)) ∧
    (∃ u, exec (.submit key t) s = .next u ∧ (key ≠ 0xD1 ∨ s.rdB F.GEN_DBG_STAT_BUSY = true → u = s.advance t) ∧
      (key = 0xD1 → s.rdB F.GEN_DBG_STAT_BUSY = false → u.rdB F.GEN_DBG_STAT_BUSY = true ∧
        u.rdB F.GEN_DBG_STAT_CHAL_V = false ∧ u.pwr.chal = (if s.rdB F.GEN_DBG_STAT_CHAL_V then some s.challenge else none))) ∧
    (∃ u, exec (.debugClose key t) s = .next u ∧ (key ≠ 0xD1 → u = s.advance t) ∧
      (key = 0xD1 → u.rdB F.GEN_DBG_STAT_OPEN = false ∧ u.rd F.GEN_DBG_STAT_SCOPE = 0))) ∧
  (∀ (s : State) (ok : Bool) (t : Time), s.pwr.held = false → s.rdB F.GEN_DBG_STAT_BUSY = true →
    ok = (s.pwr.chal.any s.dbgSigned &&
      s.dbgNum 0xC8 2 == (s.reg R.GEN_UIDL).toNat + 2 ^ 32 * (s.reg R.GEN_UIDH).toNat &&
      decide (hallS (s.advance t).clk.hall ≤ s.dbgNum 0xD0 2)) →
    ∃ u, exec (.debugCheckDone t) s = .next u ∧ u.rdB F.GEN_DBG_STAT_BUSY = false ∧
      u.rdB F.GEN_DBG_STAT_FAIL = !ok ∧ u.rdB F.GEN_DBG_STAT_OPEN = (ok || s.rdB F.GEN_DBG_STAT_OPEN) ∧
      (ok = true → u.rd F.GEN_DBG_STAT_SCOPE = s.dbgNum 0xC4 1 % 8) ∧
      u.rd F.GEN_DBG_STAT_FAILS = (if ok then s.rd F.GEN_DBG_STAT_FAILS else min (s.rd F.GEN_DBG_STAT_FAILS + 1) 255))

/-- The safety island's states and outputs (R341 to R348, R361). -/
def Obligations.SafetyIslandHoldsItsOutputs : Prop :=
  (∀ (s : State) (t : Time), s.pwr.held = false →
    (∃ u, exec (.permitToken t) s = .next u ∧ u.regs = s.regs ∧ (s.overrideCause = true → u = s.advance t) ∧
      (s.overrideCause = false → ∀ q : Ring, (u.port q).token = some (s.advance t).clk.now)) ∧
    (∃ u, exec (.tokenTimeout t) s = .next u ∧ u.regs = s.regs ∧ ∀ q : Ring, (u.port q).token =
      (match (s.port q).token with
      | some a => if a + ns 400 < (s.advance t).clk.now then none else some a
      | none => none))) ∧
  (∀ (s : State) (t : Time), s.pwr.held = false → s.saf.held = false →
    (∀ (pass ok : Bool), ok = (pass && s.paramOk && decide ((s.advance t).clk.now ≤ s.saf.upAt + 50 * millisecond)) →
      ∃ u, exec (.selftestDone pass t) s = .next u ∧ (s.safState ≠ 0 → u = s.advance t) ∧
      (s.safState = 0 → ok = true → u.safState = 1 ∧ ∀ o, o ≠ R.SAF_STAT → u.reg o = s.reg o) ∧
      (s.safState = 0 → ok = false → u.safState = 3 ∧ u.rd F.SAF_SBO_STAT_OUT = 0 ∧ u.liveBit 0x075 = true)) ∧
    (∃ u, exec (.safetyInternalFault t) s = .next u ∧ u.safState = 3 ∧
      (s.safState ≠ 3 → u.rd F.SAF_SBO_STAT_OUT = 0 ∧ u.liveBit 0x075 = true)) ∧
    (∀ (rail : Bool) (a b : Fin 256), ∃ u, exec (.safReset true rail a b t) s = .next u ∧ u.saf.held = true ∧
      u.safState = 0 ∧ u.rdB F.SAF_ERR_LOCK_TO = s.lockOpen ∧ u.lockOpen = false) ∧
    (∃ u, exec (.safetyTrip t) s = .next u ∧
      (s.tripCause = false → s.saf.tripReq = false → u = s.advance t) ∧
      (s.tripCause = true ∨ s.saf.tripReq = true → s.safState = 2 → u.safState = 1 ∧ u.rd F.SAF_SBO_STAT_OUT = 0 ∧
        u.saf.tripReq = false)) ∧
    (∀ (key : Byte) (ok : Bool),
      ok = (key == 0x6B && s.safState == 1 && !s.tripCause && !s.saf.tripReq &&
        !safSources.any (fun n => s.sevOf n == 4 && (s.liveBit n || s.latchBit n)) &&
        (List.range 4).all (fun n => !bitOf s.sboEnabled n || !s.getBit F.SAF_SBO_STAT_RB n) && !s.lockOpen) →
      ∃ u, exec (.sboRel key t) s = .next u ∧
        (ok = true → u.safState = 2 ∧ u.rd F.SAF_SBO_STAT_OUT = s.sboEnabled ∧ u.rdB F.FLT_STAT_SAFE_OUT = false) ∧
        (ok = false → u.safState = s.safState ∧ u.rd F.SAF_SBO_STAT_OUT = s.rd F.SAF_SBO_STAT_OUT ∧
          u.rdB F.SAF_ERR_REL_REF = true)) ∧
    (∃ u, exec (.test t) s = .next u ∧ u.regs = s.regs ∧
      u.saf.tests = (if s.safState = 2 then s.sboEnabled else s.saf.tests)) ∧
    (∀ (n : Fin 4) (late : Time), ∃ u, exec (.sboPulseTest n late t) s = .next u ∧
      (s.safState ≠ 2 ∨ s.rdB (F.SAF_SBO_EN n) = false → u = s.advance t) ∧
      (s.safState = 2 → s.rdB (F.SAF_SBO_EN n) = true → Store.get s.saf.pulse none n.val = none →
        bitOf s.saf.tests n.val = true →
        (late ≤ s.sboRbw n → Store.get u.saf.pulse none n.val = some (s.advance t).clk.now ∧
          u.getBit F.SAF_SBO_STAT_OUT n = false) ∧
        (s.sboRbw n < late → u.getBit F.SAF_ERR_SBOF n = true ∧ u.liveBit 0x074 = true ∧ u.saf.tripReq = true)) ∧
      (∀ a, s.safState = 2 → s.rdB (F.SAF_SBO_EN n) = true → Store.get s.saf.pulse none n.val = some a →
        a + s.sboPw n ≤ (s.advance t).clk.now → late ≤ s.sboRbw n → bitOf s.saf.sboBad n.val = false →
        u.getBit F.SAF_SBO_STAT_OUT n = true ∧
        u.rd F.SAF_SBO_STAT_TESTS = (s.rd F.SAF_SBO_STAT_TESTS + 1) % 2 ^ F.SAF_SBO_STAT_TESTS.w)) ∧
    (∀ (n : Fin 4) (rb : Bool) (since : Time), ∃ u, exec (.readbackFailure n rb since t) s = .next u ∧
      (rb = s.getBit F.SAF_SBO_STAT_OUT n ∨ (s.advance t).clk.now < since + s.sboRbw n → u = s.advance t) ∧
      (rb ≠ s.getBit F.SAF_SBO_STAT_OUT n → since + s.sboRbw n ≤ (s.advance t).clk.now → u.getBit F.SAF_ERR_SBOF n = true ∧
        u.getBit F.SAF_SBO_STAT_RB n = rb ∧ u.liveBit 0x074 = true ∧ bitOf u.saf.sboBad n = true ∧
        (s.rdB (F.SAF_SBO_EN n) = true → u.saf.tripReq = true))) ∧
    (∀ a b : Nat, ∃ u, exec (.safetyDiagnostic (.osc a b) true t) s = .next u ∧ u.liveBit 0x0A7 = !(oscOk a && oscOk b) ∧
      ((oscOk a || oscOk b) = false → u.safState = 3)) ∧
    (∀ m : Nat, ∃ u, exec (.safetyDiagnostic (.readBack m) true t) s = .next u ∧ u.rd F.SAF_SBO_STAT_RB = m % 16) ∧
    (∀ (d : SafDiag) (ok : Bool), (∀ a b, d ≠ .osc a b) → (∀ m, d ≠ .readBack m) →
      ∃ u, exec (.safetyDiagnostic d ok t) s = .next u ∧ (ok = false ∨ (d = .paramCrc ∧ s.paramOk = false) → u.safState = 3) ∧
        (ok = true → d ≠ .paramCrc ∨ s.paramOk = true → u = s.advance t))) ∧
  (∀ (s : State) (a b : Fin 256) (t : Time), s.pwr.held = false → s.saf.held = true →
    ∃ u, exec (.safReset false false a b t) s = .next u ∧ u.saf.held = false ∧ u.rd F.SAF_SI_STAT_A = a ∧
      u.rd F.SAF_SI_STAT_B = b ∧ u.safState = s.safState ∧ u.liveBit 0x075 = false)

/-- Safety inputs, balustrade, lock (R349 to R354, R364, R365). -/
def Obligations.SafetyInputsAndParametersFollowTheirRules : Prop :=
  (∀ (s : State) (p : Fin 8) (t : Time), s.pwr.held = false → s.saf.held = false →
    (∀ (chB level : Bool) (since : Time), t < since + clampN 1 255 (s.rd (F.SAF_SI_FILT p)) * microsecond →
      exec (.safetyInputChange p chB level since t) s = .next (s.advance t)) ∧
    (∀ (chB level : Bool) (since : Time), since + clampN 1 255 (s.rd (F.SAF_SI_FILT p)) * microsecond ≤ t →
      ∃ u, exec (.safetyInputChange p chB level since t) s = .next u ∧
      u.siA p = (if chB then s.siA p else level) ∧ u.siB p = (if chB then level else s.siB p) ∧
      u.getBit F.SAF_SI_STAT_DEM p = u.siDemand p ∧
      (s.siFunc p ≠ 0 → u.siConsistent p = true → Store.get u.saf.disc none p = none) ∧
      (s.siFunc p ≠ 0 → u.siConsistent p = false → Store.get s.saf.disc none p = none →
        Store.get u.saf.disc none p = some (s.advance t).clk.now)) ∧
    (∃ u, exec (.discrepancyTimeout p t) s = .next u ∧
      (s.siFunc p ≠ 0 → (s.advance t).discDue p = true → u.siLatch p = true ∧ u.liveBit (0x078 + p.val) = true) ∧
      ((s.advance t).discDue p = false → u = s.advance t)) ∧
    (∀ mask : Byte, ∃ u, exec (.dclr mask t) s = .next u ∧
      u.siLatch p = (s.siLatch p && !(bitOf mask.toNat p && s.siConsistent p)) ∧
      (bitOf mask.toNat p = true → s.siConsistent p = false → u.rdB F.SAF_ERR_DCLR_REF = true))) ∧
  (∀ (s : State) (c : Fin 8) (rise fall : Nat) (per edge t : Time), s.pwr.held = false → s.saf.held = false →
    (s.rdB (F.SAF_BCH_EN c) = false → exec (.balustradeOutput c rise fall per t) s = .next (s.advance t) ∧
      exec (.balustradeClockLoss c edge t) s = .next (s.advance t)) ∧
    (s.rdB (F.SAF_BCH_EN c) = true →
      (∃ u, exec (.balustradeOutput c rise fall per t) s = .next u ∧
        u.balCode c = balCodeOf (((s.balSample c rise fall).bal c).sinc.outs.headD 0) (s.rdB (F.SAF_BCH_POL c)) ∧
        (per < ns 20 ∨ ns 220 < per ∨ ((s.balSample c rise fall).bal c).stuck = true → u.rdB (F.SAF_BVAL_CFLT c) = true)) ∧
      (edge + microsecond ≤ (s.advance t).clk.now → ∃ u, exec (.balustradeClockLoss c edge t) s = .next u ∧ u.rdB (F.SAF_BVAL_CFLT c) = true ∧
        ((s.bal c).fault = false → u.getBit F.SAF_ERR_BCHF c = true)))) ∧
  (∀ (s : State) (t : Time), s.pwr.held = false → s.saf.held = false → s.lockOpen = false →
    (s.saf.keyAt = none → ∃ u, exec (.lockKey 0xC5 t) s = .next u ∧ u.saf.keyAt = some (s.advance t).clk.now ∧
      u.regs = s.regs) ∧
    (∀ a, s.saf.keyAt = some a → ∃ u, exec (.lockKey 0x3A t) s = .next u ∧
      ((s.advance t).clk.now ≤ a + millisecond → s.anyDeblocked = false → s.safState ≠ 3 → u.lockOpen = true ∧
        u.saf.openAt = some (s.advance t).clk.now ∧ ∀ o ∈ paramRegs, Store.get u.saf.shadow 0 o = s.reg o) ∧
      (a + millisecond < (s.advance t).clk.now ∨ s.anyDeblocked = true ∨ s.safState = 3 → u.lockOpen = false ∧
        u.latchBit 0x00F = true))) ∧
  (∀ (s : State) (t : Time), s.pwr.held = false → s.saf.held = false → s.lockOpen = true →
    (∃ u, exec (.close t) s = .next u ∧ u.lockOpen = false ∧ u.saf.shadow = [] ∧
      (s.rd F.SAF_PCRC_CRC = s.shadowCrc → (∀ o ∈ paramRegs, s.readOnly (prbBlockOf o) = false) →
        (∀ o ∈ paramRegs, u.reg o = Store.get s.saf.shadow 0 o) ∧ u.rd F.SAF_PCRC_ACT_CRC = s.shadowCrc % 2 ^ 32) ∧
      (s.rd F.SAF_PCRC_CRC ≠ s.shadowCrc → u.rdB F.SAF_ERR_PCRC = true ∧ ∀ o ∈ paramRegs, u.reg o = s.reg o)) ∧
    (∃ u, exec (.abandon t) s = .next u ∧ u.lockOpen = false ∧ u.saf.shadow = [] ∧ ∀ o, o ≠ R.SAF_LOCK → u.reg o = s.reg o) ∧
    (∀ a, s.saf.openAt = some a → ∃ u, exec (.lockTimeout t) s = .next u ∧
      ((s.advance t).clk.now < a + 600 * second → u = s.advance t) ∧
      (a + 600 * second ≤ (s.advance t).clk.now → u.lockOpen = false ∧ u.saf.shadow = [] ∧ u.rdB F.SAF_ERR_LOCK_TO = true ∧
        ∀ o ∈ paramRegs, u.reg o = s.reg o)))

/-- Latches and inner queues (R331 to R337). -/
def Obligations.LatchesClearAndQueuesRead : Prop :=
  (∀ (s : State) (j : Fin 17) (v : Word) (t : Time), s.pwr.held = false → (s.advance t).raisedNow = [] →
    ∃ u, exec (.latchClear .host none j v t) s = .next u ∧ ∀ b < 32,
      u.latched j b = (s.latched j b && !(bitOf v.toNat b && !s.latchHeld (32 * j.val + b))) ∧
      (s.latched j b = true → bitOf v.toNat b = true → s.latchHeld (32 * j.val + b) = false →
        ∀ r ∈ u.flt.reactions, r.src ≠ 32 * j.val + b)) ∧
  (∀ (s : State) (i : Cell) (j : Fin 17) (v : Word) (t : Time) (b : Nat), s.pwr.held = false →
    (s.advance t).raisedNow = [] → b < 22 →
    ∃ u, exec (.latchClear .host (some i) j v t) s = .next u ∧
      (bitOf v.toNat b = true → s.cellHeld i b = false → u.rdB ⟨R.FLT_CELL i, b, 1⟩ = false) ∧
      (bitOf v.toNat b = true → s.cellHeld i b = true → u.rdB ⟨R.FLT_CELL i, b, 1⟩ = s.rdB ⟨R.FLT_CELL i, b, 1⟩)) ∧
  (∀ (s : State) (i : Cell) (d : Tread) (v : Word) (t : Time), s.tread i = d → d.onSupply = true →
    ∃ u, exec (.tFltClr i v t) s = .next u ∧ (bits v.toNat 16 8 ≠ 0x3C → u.tread i = d.advance t) ∧
      (bits v.toNat 16 8 = 0x3C →
        (∀ n < 4, bitOf ((u.tread i).rd F.T_GFB_STAT_LATCH) n =
          (bitOf (d.rd F.T_GFB_STAT_LATCH) n && !(bitOf v.toNat n && !bitOf (d.rd F.T_GFB_STAT_LIVE) n))) ∧
        (∀ n < 4, bitOf ((u.tread i).rd F.T_PROT_STAT_DESAT) n =
          (bitOf (d.rd F.T_PROT_STAT_DESAT) n && !(bitOf v.toNat (4 + n) && !bitOf d.fltIn n))) ∧
        (u.tread i).rdB F.T_PROT_STAT_OV_TRIP =
          (d.rdB F.T_PROT_STAT_OV_TRIP && !(bitOf v.toNat 8 && !d.rdB F.T_OVG_STAT_LIVE)))) ∧
  (∀ (s : State) (q : Fin 48) (t : Time), s.pwr.held = false → iqWriter q ∉ s.pwr.noClock →
    ∃ u, exec (.iqRead q 0 t) s = .next u ∧
      (∀ x r, (s.iq q).items = x :: r → (u.iq q).items = r ∧ u.rdata = BitVec.ofNat 32 x.toNat ∧
        u.reg (R.FLT_IQ_RDH q) = BitVec.ofNat 32 (x.toNat / 2 ^ 32) ∧ ∀ o, o ≠ R.FLT_IQ_RDH q → u.reg o = s.reg o) ∧
      ((s.iq q).items = [] → s.rdB (F.FLT_IQ_CFG_FALLBACK q) = true → u.rdB (F.FLT_IQ_STAT_UNDERRUN q) = true ∧
        u.rdata = BitVec.ofNat 32 (s.iq q).last.toNat) ∧
      ((s.iq q).items = [] → s.rdB (F.FLT_IQ_CFG_FALLBACK q) = false → u.reg (R.FLT_IQ_RDH q) = 0x80000000 ∧ u.rdata = 0))

/-- The Titajor ring (R389 to R399). -/
def Obligations.TitajorMessagesActAsTheirRulesSay : Prop :=
  (∀ (s : State), s.pwr.held = false → ∃ u h, exec .heartbeatSend s = .next u ∧
    (∀ b : Bool, (⟨s.hubId, 0x1F, 15, b, s.cyc, .heartbeat h⟩ : TitMsg) ∈ u.titMsgs b) ∧
    h.role = s.redSt ∧ h.active = s.rdB F.GEN_TOPO_ACTIVE ∧ h.healthy = s.healthy ∧ h.epoch = s.rd F.STK_EPOCH_EPOCH ∧
    u.recd.tbus = [] ∧ ∀ o, o ≠ R.GEN_CONT 5 → u.reg o = s.reg o) ∧
  (∀ (s : State) (d : Hub) (ringB : Bool) (hops dly : Nat) (hb : Heartbeat) (cyc : Word) (t : Time), s.pwr.held = false →
    ∃ u, exec (.heartbeat d ringB hops dly hb cyc t) s = .next u ∧
      (d.val = s.hubId → u.stk.dupAt = some s.cyc ∧ u.liveBit 0x000 = true ∧ u.stk.hubs = s.stk.hubs) ∧
      (d.val ≠ s.hubId → (u.hub d).hb = hb ∧ (u.hub d).cyc = some cyc.toNat ∧ (u.hub d).missRun = 0 ∧
        u.getBit F.STK_HUBS_PRESENT d = true)) ∧
  (∀ (s : State) (d : Hub) (k : Word), s.pwr.held = false →
    ∃ u, exec (.heartbeatMissing d k) s = .next u ∧
      (d.val = s.hubId ∨ (s.hub d).cyc = none ∨ (s.hub d).cyc = some k.toNat → u.stk = s.stk ∧ u.regs = s.regs) ∧
      (∀ c, d.val ≠ s.hubId → (s.hub d).cyc = some c → c ≠ k.toNat → (u.hub d).missRun = (s.hub d).missRun + 1 ∧
        u.getBit F.STK_HUBS_PRESENT d = false)) ∧
  (∀ (s : State) (t : Time), s.pwr.held = false →
    (∃ u, exec (.partnerWait t) s = .next u ∧ (s.dupMode ≠ 2 ∨ s.redSt ≠ 0 → u = s.advance t) ∧
      (s.dupMode = 2 → s.redSt = 0 → s.hubId % 2 = 1 → u.redSt = 2 ∧ u.rdB F.GEN_TOPO_ACTIVE = false) ∧
      (s.dupMode = 2 → s.redSt = 0 → s.hubId % 2 = 0 → (s.stk.linksAt = none → u = s.advance t) ∧
        ∀ a, s.stk.linksAt = some a → ((s.advance t).clk.now < a + 64 * s.cycT → u = s.advance t) ∧
          (a + 64 * s.cycT ≤ (s.advance t).clk.now → u.redSt = 1 ∧ u.rdB F.GEN_TOPO_ACTIVE = true))) ∧
    (∃ u, exec (.newelChange t) s = .next u ∧ (s.stk.change = none → u = s.advance t) ∧
      (∀ n k, s.stk.change = some (n, k) → n < 16 → s.since k < 2 ^ 31 → u.newel = n ∧ u.isNewel = (n == s.hubId) ∧
        u.stk.change = none ∧ u.latchBit 0x06D = true) ∧
      (∀ n k, s.stk.change = some (n, k) → 2 ^ 31 ≤ s.since k → u = s.advance t))) ∧
  (∀ (s : State) (ringB : Bool) (dep : Time) (len : Nat) (corr : Time) (step : Option (Nat × Int)) (cyc : Word)
    (delay t newelNow : Time) (th : Int) (differs : Bool), s.pwr.held = false →
    newelNow = (((dep + corr + delay : Nat) : Int) - s.linkAsym ringB).toNat →
    th = ((s.advance t).clk.hall : Int) - newelNow → differs = ((s.advance t).cycAt newelNow != cyc.toNat) →
    ∃ u, exec (.timeMessage ringB dep len corr step cyc delay t) s = .next u ∧
      (s.isNewel = true ∨ s.nearRing s.newel ≠ ringB → u = s.advance t) ∧
      (s.isNewel = false → s.nearRing s.newel = ringB → u.stk.lenBad = (len != s.rd F.GEN_CYC_LEN_LEN) ∧
        (th.natAbs < s.stepTh → u.clk.theta = th ∧ u.rd F.HT_STAT_SRC_USED = 3 ∧ u.clk.stepAt = step ∧
          u.liveBit 0x004 = (len != s.rd F.GEN_CYC_LEN_LEN || (differs && s.anyDeblocked))))) ∧
  (∀ (s : State) (d : Hub) (t : Time), s.pwr.held = false →
    (∀ c : Word, d.val ≠ s.hubId →
      (∃ u, exec (.blockMessage d c t) s = .next u ∧ u.rdB F.FLT_STAT_HALL_BLK = true ∧
        (s.flt.stackSeen.contains (d.val, false, c.toNat) = false → u.latchBit 0x06F = true) ∧
        u.flt.stackBlk.any (fun b => b.hub == d.val) = true ∧
        (s.isNewel = true → ∀ b : Bool, (⟨d, 0x1F, 15, b, c.toNat, .block⟩ : TitMsg) ∈ u.titMsgs b)) ∧
      (∃ u, exec (.tripMessage d c t) s = .next u ∧ u.rdB F.FLT_STAT_HALL_BLK = true ∧
        (s.flt.stackSeen.contains (d.val, true, c.toNat) = false → u.latchBit 0x06F = true) ∧
        u.flt.stackBlk.any (fun b => b.hub == d.val) = true ∧ u.saf.tripReq = true ∧
        (s.isNewel = true → ∀ b : Bool, (⟨d, 0x1F, 15, b, c.toNat, .trip⟩ : TitMsg) ∈ u.titMsgs b))) ∧
    (∀ c : Word, d.val = s.hubId → exec (.blockMessage d c t) s = .next (s.advance t) ∧
      exec (.tripMessage d c t) s = .next (s.advance t)) ∧
    (∀ (k w0 w1 w2 w3 : Word), ∃ u, exec (.exch d k w0 w1 w2 w3 t) s = .next u ∧ u.regs = s.regs ∧
      (d.val = s.hubId ∨ 4 ≤ s.since k.toNat → u = s.advance t) ∧
      (d.val ≠ s.hubId → s.since k.toNat < 4 →
        Store.get u.stk.exch [] (16 * (k.toNat % 16) + d) = [w0, w1, w2, w3]))) ∧
  (∀ (s : State) (m : BitVec 256) (residence t : Time) (src dst ttl mtype : Nat) (b : Bool), s.pwr.held = false →
    src = mbits m 8 4 → dst = mbits m 12 5 → ttl = mbits m 17 4 → mtype = mbits m 22 8 → b = (mbits m 21 1 == 1) →
    ∃ u, exec (.titajorMessageForward m residence t) s = .next u ∧
      (titOk m = false → u.stk = s.stk ∧
        u.rd F.STK_CNT_LINK_BADMSG = min (s.rd F.STK_CNT_LINK_BADMSG + 1) (2 ^ F.STK_CNT_LINK_BADMSG.w - 1)) ∧
      (titOk m = true → src = s.hubId ∨ dst = s.hubId ∨ ttl ≤ 1 → u = s.advance t) ∧
      (titOk m = true → src ≠ s.hubId → dst ≠ s.hubId → 1 < ttl → (∀ o, o ≠ R.GEN_CONT 5 → u.reg o = s.reg o) ∧
        ∃ x, (⟨src, dst, ttl - 1, b, mbits m 32 32, .passed mtype (BitVec.ofNat 160 (mbits m 64 160)) x⟩ : TitMsg) ∈
          u.titMsgs b ∧ (mtype ≠ 9 → x = 0) ∧ (mtype = 9 → residence ≤ x)))

/-- A whole-unit pair (R222, R371, R372, R379 to R386). -/
def Obligations.PairHandsOverAsCommanded : Prop :=
  (∀ (s : State) (t : Time), s.pwr.held = false →
    (∀ key : Byte, ∃ u, exec (.resign key t) s = .next u ∧ (key ≠ 0x4E → u = s.advance t) ∧
      (key = 0x4E → s.redSt = 1 ∧ (s.hub s.partner).hb.ready = true →
        u.stk.resignAt = some ((s.cyc + 64) % 2 ^ 32) ∧ (∀ o, o ≠ R.GEN_CONT 5 → u.reg o = s.reg o) ∧
        (⟨s.hubId, s.partner, 15, s.farRing s.partner, s.cyc, .resign ((s.cyc + 64) % 2 ^ 32)⟩ : TitMsg) ∈
          u.titMsgs (s.farRing s.partner)) ∧
      (key = 0x4E → s.redSt ≠ 1 ∨ (s.hub s.partner).hb.ready = false →
        u.rdB F.STK_ERR_RES_REF = true ∧ u.stk = s.stk)) ∧
    (∀ k : Word, ∃ u, exec (.resignMessage k t) s = .next u ∧ u.regs = s.regs ∧
      u.stk.takeAt = (if s.redSt = 2 then some k.toNat else s.stk.takeAt)) ∧
    (∀ k : Word, ∃ u, exec (.revert k t) s = .next u ∧ u.regs = s.regs ∧
      u.stk.resignAt = (if s.redSt = 1 ∧ s.hubId % 2 = 1 then some k.toNat else s.stk.resignAt)) ∧
    (∃ u, exec (.revertHold t) s = .next u ∧ (∀ o, o ≠ R.GEN_CONT 5 → u.reg o = s.reg o) ∧ (s.stk.readyAt = none → u = s.advance t) ∧
      ∀ a (due : Bool), s.stk.readyAt = some a →
        due = (s.redSt == 2 && s.hubId % 2 == 0 && s.rdB F.STK_RED_CFG_AUTO_REVERT && s.readyNow && s.stk.takeAt.isNone &&
          decide (a + clampN 1 1000 (s.rd F.STK_RED_CFG_HOLD) * 100 * millisecond ≤ (s.advance t).clk.now)) →
        (due = false → u = s.advance t) ∧
        (due = true → u.stk.takeAt = some ((s.cyc + 64) % 2 ^ 32) ∧ u.stk.reverting = true ∧
          (⟨s.hubId, s.partner, 15, s.farRing s.partner, s.cyc, .revert ((s.cyc + 64) % 2 ^ 32)⟩ : TitMsg) ∈
            u.titMsgs (s.farRing s.partner))) ∧
    (∀ (d : Hub) (other e : Nat), other = (if d.val % 2 = 0 then d.val + 1 else d.val - 1) →
      e = (if other = s.hubId then s.rd F.STK_EPOCH_EPOCH else (s.hub other).hb.epoch) →
      ∃ u, exec (.stkAdmit d t) s = .next u ∧
      (s.isNewel = true → (s.hub d).cyc ≠ none → (s.hub d).hb.fenced = true → (s.hub d).hb.healthy = true →
        (⟨s.hubId, d, 15, s.farRing d, s.cyc, .admitHub e⟩ : TitMsg) ∈ u.titMsgs (s.farRing d) ∧
        ∀ o, o ≠ R.GEN_CONT 5 → u.reg o = s.reg o) ∧
      (s.isNewel = false ∨ (s.hub d).cyc = none ∨ (s.hub d).hb.fenced = false ∨ (s.hub d).hb.healthy = false →
        u.rdB F.STK_ERR_ADM_REF = true ∧ u.stk = s.stk)) ∧
    (∀ e : Fin 65536, ∃ u, exec (.admitMessage e t) s = .next u ∧ (s.redSt ≠ 4 → u = s.advance t) ∧
      (s.redSt = 4 → u.redSt = 2 ∧ u.stk.base = none ∧ u.stk.jrnl = [] ∧ u.rdB F.STK_RED_STAT_JRNL_OK = false ∧
        (s.PortFree → s.readOnly (prbBlockOf R.STK_EPOCH) = false →
          u.prb.busy = some ⟨.hubHw, R.STK_EPOCH, BitVec.ofNat 32 e, 0⟩)))) ∧
  (∀ (s : State) (r : Ring) (dir : Fin 4) (block commit land : Bool) (pfar : Pos) (hop : Fin 64) (cars carts : List Slot)
    (epoch : Fin 65536) (k : Word) (t tk : Time), s.pwr.held = false →
    tk = (match s.clk.starts.find? (fun c => c.1 == k.toNat) with | some c => c.2.2 | none => s.clk.tkHall) →
    ∃ u, exec (.relayDn r dir block commit land pfar hop cars carts epoch k t) s = .next u ∧
      (s.roleOf r ≠ 2 ∨ s.pst r ≠ 4 ∨ 16383 * 4096 < (s.advance t).clk.hall - tk → u = s.advance t) ∧
      (s.roleOf r = 2 → s.pst r = 4 → (s.advance t).clk.hall - tk ≤ 16383 * 4096 → u.stk.relayCyc = some k.toNat ∧ (u.port r).emitted = (s.port r).emitted + 1 ∧
        ∃ h more, (u.port r).txFrame = mkFrame h cars (carts ++ more) hop pfar ∧ h.ftype = ftControl ∧ h.dir = dir ∧ h.epoch = epoch ∧
          h.cycle = k.toNat ∧ h.commit = commit ∧ (block = true → h.block = true))) ∧
  (∀ (s : State) (r : Ring) (f : Frame) (t : Time), s.pwr.held = false →
    ∃ u, exec (.relayUp r f t) s = .next u ∧ (s.farSeg r ≠ some (32 + r.val) → u = s.advance t) ∧
      (s.farSeg r = some (32 + r.val) → u.rd (F.RP_RELAY_IN_LAG r) = min 4095 (250 + s.rd F.STK_PAIR_TSTK))) ∧
  (∀ (s : State) (x : Snap) (t : Time), s.pwr.held = false →
    (∀ e ∈ x.est, e.i < 1024) → x.cyc < 2 ^ 32 →
    ∃ u, exec (.snapshot x t) s = .next u ∧ (s.redSt ≠ 2 ∨ s.stk.snapAt = some x.cyc → u = s.advance t) ∧
      (s.redSt = 2 → s.stk.snapAt ≠ some x.cyc → x.good = true → x.dig = s.cfgDig → s.since x.cyc < 32 →
        u.stk.base = some x ∧ u.rdB F.STK_RED_STAT_JRNL_OK = s.noneLost x.cyc ∧ u.rd F.STK_SNAP_BASE_CYC = x.cyc % 2 ^ F.STK_SNAP_BASE_CYC.w) ∧
      (s.redSt = 2 → s.stk.snapAt ≠ some x.cyc → x.good = false ∨ x.dig ≠ s.cfgDig ∨ 32 < s.since x.cyc → u.stk.base = s.stk.base ∧
        u.latchBit 0x06C = true)) ∧
  (∀ (s : State) (j : JRec) (t : Time), s.pwr.held = false →
    ∃ u, exec (.journal j t) s = .next u ∧ (s.redSt ≠ 2 → u = s.advance t) ∧
      (s.redSt = 2 → j.good = true → s.since j.cyc < 16 →
        u.stk.jrnl = s.stk.jrnl.filter (fun y => y.cyc != j.cyc) ++ [j] ∧ u.stk.base = s.stk.base) ∧
      (s.redSt = 2 → j.good = false ∨ 16 ≤ s.since j.cyc → u.rdB F.STK_RED_STAT_JRNL_OK = false ∧ u.stk = s.stk)) ∧
  (∀ (s : State) (t : Time) (x : Take) (b : Snap), s.pwr.held = false → s.stk.take = some x → s.stk.base = some b →
    (∃ u, exec (.snapshotLoadDone t) s = .next u ∧ (x.phase ≠ 2 → u = s.advance t) ∧
      (x.phase = 2 → u.stk.take = some { x with phase := 3 } ∧ u.ace.blks = b.blks)) ∧
    (∃ u, exec (.replayDone t) s = .next u ∧ (x.phase ≠ 4 → u = s.advance t) ∧
      (x.phase = 4 → u.stk.take = some { x with phase := 5 } ∧
        (s.stk.jrnl = [] → s.PortFree → s.readOnly (prbBlockOf R.STK_EPOCH) = false →
          u.prb.busy = some ⟨.hubHw, R.STK_EPOCH, BitVec.ofNat 32 ((b.epoch + 1) % 2 ^ 16), 0⟩))))

/-- The host's commands (R409 to R420). -/
def Obligations.HostCommandsCompleteAsTheirRulesSay : Prop :=
  (∀ (s : State) (n : HRing) (cid : Nat) (t : Time), s.pwr.held = false → s.CommandAt n → n.val < 16 →
    (∃ u, exec (.nop n 0 cid t) s = .next u ∧ s.Took u n ∧ s.Answered u n cid 0 0 s.cyc) ∧
    (∀ opc, opc ≠ 0 → ∃ u, exec (.nop n opc cid t) s = .next u ∧ s.Took u n ∧ s.Answered u n cid 1 0 s.cyc) ∧
    (∀ (off : Nat) (v mask : Word) (r : RegRow), plainWrite off = true → regRow off = some r → r.pw = 0 → r.lrw = 0 →
      off % 4 = 0 → (s.advance t).reaches .host off = true → ∀ new : Word,
      new = (((s.advance t).peek .host off &&& ~~~mask) ||| (v &&& mask)) →
      ∃ u, exec (.regWr n cid off v mask t) s = .next u ∧ s.Took u n ∧
        s.Answered u n cid 0 ((s.advance t).peek .host off).toNat s.cyc ∧
        u.reg off = ((s.reg off &&& ~~~ (BitVec.ofNat 32 r.rw)) ||| (new &&& BitVec.ofNat 32 r.rw)) &&&
          ~~~ (new &&& BitVec.ofNat 32 r.w1c &&& (s.advance t).before off)) ∧
    (∀ (j : Fin 2048) (v mask : Word), s.PortFree → s.readOnly (prbBlockOf (R.PRB_USER j)) = false →
      ∃ u, exec (.regWr n cid (R.PRB_USER j) v mask t) s = .next u ∧ s.Took u n ∧
        (u.hring n).wait = .pw cid (R.PRB_USER j) (s.reg (R.PRB_USER j)) ∧
        u.prb.busy = some ⟨.host, R.PRB_USER j, (s.reg (R.PRB_USER j) &&& ~~~mask) ||| (v &&& mask), n + 1⟩) ∧
    (∀ (off : Nat) (v mask : Word), off % 4 ≠ 0 ∨ 0x1000000 ≤ off →
      (∃ u, exec (.regWr n cid off v mask t) s = .next u ∧ s.Took u n ∧ s.Answered u n cid 2 0 s.cyc) ∧
      ∃ u, exec (.regRd n cid off t) s = .next u ∧ s.Took u n ∧ s.Answered u n cid 2 0 s.cyc) ∧
    (∀ (off : Nat) (v mask : Word), off % 4 = 0 → 0x400000 ≤ off → off < 0x480000 →
      (∃ u, exec (.regWr n cid off v mask t) s = .next u ∧ s.Took u n ∧ s.Answered u n cid 5 0 s.cyc) ∧
      ∃ u, exec (.regRd n cid off t) s = .next u ∧ s.Took u n ∧ s.Answered u n cid 5 0 s.cyc) ∧
    (∀ (off : Nat) (r : RegRow), plainRead off = true → regRow off = some r → off % 4 = 0 → off < 0x400000 →
      s.heldBack off = false → (s.advance t).reaches .host off = true → ∃ u, exec (.regRd n cid off t) s = .next u ∧ s.Took u n ∧
        s.Answered u n cid 0 ((s.advance t).seen .host off).toNat s.cyc)) ∧
  (∀ (s : State) (n : HRing) (cid m : Nat) (words : List Word) (t : Time), s.pwr.held = false → s.CommandAt n →
    n.val < 16 →
    ∃ u, exec (.mbxCommit n cid m words t) s = .next u ∧ s.Took u n ∧
      (bitOf (s.stgStat 4) 0 = true → (u.hring n).wait = .mbxFree cid (m % 64) words ∧ u.ace = s.ace) ∧
      (bitOf (s.stgStat 4) 0 = false → (u.hring n).wait = .mbxGrant cid (m % 64) ∧
        u.ace.waiting = s.ace.waiting ++ [{ slot := s.cyc, who := 4, mbx := m % 64, words := words }] ∧
        ∀ j < 4, Store.get u.ace.staging 0 (16 + j) = words.getD j 0)) ∧
  (∀ (s : State) (n : HRing) (cid mask : Nat) (t : Time), s.pwr.held = false → s.CommandAt n → n.val < 16 →
    (∃ u, exec (.armDeblock n cid mask t) s = .next u ∧ s.Took u n ∧
      ((s.advance t).deblockRefusal (mask % 64) = 0 →
        u.host.armReq = s.host.armReq ++ [(true, mask % 64, (s.advance t).clk.now)] ∧
        s.Answered u n cid 0 0 ((s.advance t).cycFrom ((s.advance t).clk.now + ns 100))) ∧
      ((s.advance t).deblockRefusal (mask % 64) ≠ 0 → u.host.armReq = s.host.armReq ∧
        s.Answered u n cid 3 ((s.advance t).deblockRefusal (mask % 64)) s.cyc)) ∧
    (∃ u, exec (.armBlock n cid mask t) s = .next u ∧ s.Took u n ∧
      u.host.armReq = s.host.armReq ++ [(false, mask % 64, (s.advance t).clk.now)] ∧
      s.Answered u n cid 0 0 ((s.advance t).cycFrom ((s.advance t).clk.now + ns 100))) ∧
    (∀ k : Nat, ∃ u, exec (.ringCommit n cid mask k true t) s = .next u ∧ s.Took u n ∧
      u.host.commits = s.host.commits ++ [(mask, none, (s.advance t).clk.now)] ∧
      s.Answered u n cid 0 mask ((s.advance t).cycFrom ((s.advance t).clk.now + ns 1000))) ∧
    (∀ (k : Nat) (late : Bool), late = (!serialLt s.cyc k ||
        decide (s.clk.tk + (k + 2 ^ 32 - s.cyc) % 2 ^ 32 * s.cycT < (s.advance t).clk.now + ns 1000)) →
      ∃ u, exec (.ringCommit n cid mask k false t) s = .next u ∧ s.Took u n ∧
        (late = true → u.host.commits = s.host.commits ∧ s.Answered u n cid 4 0 k) ∧
        (late = false → u.host.commits = s.host.commits ++ [(mask, some k, (s.advance t).clk.now)] ∧
          s.Answered u n cid 0 mask k)) ∧
    (∀ (i : Cell) (duty on : Nat) (ok : Bool),
      ok = (match s.armOf (i.val / 32) with | some a => s.carrierMode a | none => false) →
      ∃ u, exec (.carDuty n cid i duty on t) s = .next u ∧ s.Took u n ∧
        (ok = true → u.host.dutyReq = s.host.dutyReq ++ [(i.val, duty % 2 ^ 19, on % 4, (s.advance t).clk.now)] ∧
          s.Answered u n cid 0 0 ((s.advance t).cycFrom ((s.advance t).clk.now + ns 1000))) ∧
        (ok = false → u.host.dutyReq = s.host.dutyReq ∧ s.Answered u n cid 3 0 s.cyc)) ∧
    (∀ k : Nat, ∃ u, exec (.waitCycle n cid k t) s = .next u ∧ s.Took u n ∧
      (serialLt s.cyc k = true → (u.hring n).wait = .cycle cid k ∧ u.rdB (F.HQ_RING_STAT_STALL n) = true) ∧
      (serialLt s.cyc k = false → s.Answered u n cid 4 0 k))) ∧
  (∀ (s : State) (n : HRing) (cid : Nat) (r : Ring) (op pos arg data raddr : Nat) (t : Time), s.pwr.held = false →
    (s.CommandAt n → n.val < 16 → ∃ u, exec (.cart .host n cid r op pos arg data raddr t) s = .next u ∧ s.Took u n ∧
      s.Answered u n cid 1 0 s.cyc) ∧
    (s.CommandAt n → 56 ≤ n.val → n.val < 60 → (s.hring n).flight.length < 64 →
      ∃ u, exec (.cart .host n cid r op pos arg data raddr t) s = .next u ∧ s.Took u n ∧
        (op = 0 ∨ 8 < op ∨ raddr % 16 ≠ 0 → (u.port r).carts = (s.port r).carts ∧ s.Answered u n cid 2 0 s.cyc) ∧
        (1 ≤ op → op ≤ 8 → raddr % 16 = 0 → s.cartRefused r op = true → u.latchBit 0x00B = true ∧
          (u.port r).carts = (s.port r).carts) ∧
        (1 ≤ op → op ≤ 8 → raddr % 16 = 0 → s.cartRefused r op = false →
          (u.hring n).flight.length = (s.hring n).flight.length + 1 ∧
          ∃ c, (u.port r).carts = (s.port r).carts ++ [c] ∧ c.who = .cartRing (Fin.ofNat 4 (n - 56)) ∧ c.op = op ∧
            c.pos = pos ∧ c.arg = arg ∧ c.data = data ∧ c.raddr = raddr)) ∧
    (∀ c : CoreNo, ∃ u, exec (.cart (.core c) n cid r op pos arg data raddr t) s = .next u ∧
      (s.cartRefused r op = true → u.latchBit 0x00B = true ∧ (u.port r).carts = (s.port r).carts) ∧
      (s.cartRefused r op = false → u.regs = s.regs ∧
        (u.port r).carts = (s.port r).carts ++ [{ who := .core c, op := op, pos := pos, arg := arg, data := data, cid := cid }])))

/-- The host island (R401 to R408, R411, R423, R424). -/
def Obligations.HostIslandFollowsItsCommands : Prop :=
  (∀ (s : State) (lost : Bool) (t : Time), s.pwr.held = false → ∃ u, exec (.hostReset lost t) s = .next u ∧
    (∀ o, hostIslandReg o = true → u.reg o = hubReset o) ∧ u.host.rings = [] ∧ u.can = [] ∧ u.host.armReq = s.host.armReq ∧
    u.host.rxbuf0 = [] ∧ u.host.rxbuf1 = [] ∧ u.coreMem = s.coreMem ∧
    (∀ (n : HRing) cid m, n.val < 16 → (s.hring n).wait = .mbxGrant cid m → bitOf (u.stgStat 4) 0 = false ∧
      ∀ c ∈ u.ace.waiting, c.who ≠ 4) ∧
    (lost = true → u.rdB F.HQ_STAT_LINK_UP = false ∧ u.liveBit 0x0E0 = true)) ∧
  (∀ (s : State) (off : Nat) (bytes : List Byte) (t : Time), s.pwr.held = false → off + bytes.length ≤ 0x1800000 →
    ∃ u, exec (.bar2Write off bytes t) s = .next u ∧ u = { s.advance t with coreMem := u.coreMem } ∧
      (∀ j < bytes.length, s.rdB F.HQ_CTRL_BAR2_WE = true → readByte u.coreMem (off + j) = bytes.getD j 0) ∧
      (∀ a, a < off ∨ off + bytes.length ≤ a → readByte u.coreMem a = readByte s.coreMem a) ∧
      (s.rdB F.HQ_CTRL_BAR2_WE = false → u.coreMem = s.coreMem)) ∧
  (∀ (s : State) (off n : Nat) (t : Time), s.pwr.held = false →
    (∃ u, exec (.badAcc true off n t) s = .next u ∧ u.rdB F.HQ_ERR_BAD_ACC = true ∧
      ∀ o, o < 0x470000 → o ≠ R.HQ_ERR → u.reg o = s.reg o) ∧
    (∃ u, exec (.badAcc false off n t) s = .next u ∧ u.regs = s.regs ∧
      ((1 ≤ n ∧ n ≤ 4 - off % 4) → u.rdata = BitVec.ofNat 32
        (bits ((s.advance t).peek .host (off - off % 4)).toNat (8 * (off % 4)) (8 * n))))) ∧
  (∀ (s : State) (n : HRing) (idx : Nat) (t : Time), s.pwr.held = false → ∃ u, exec (.doorbell n idx t) s = .next u ∧
    (idx < s.ringSize n → (u.hring n).hostIdx = idx) ∧
    (idx < s.ringSize n → hostWritten n = true → u.regs = s.regs) ∧
    (s.ringSize n ≤ idx → (u.hring n).hostIdx = (s.hring n).hostIdx ∧ u.rdB F.HQ_ERR_DB_RANGE = true ∧
      u.latchBit 0x0E1 = true)) ∧
  (∀ (s : State) (n : HRing) (v : Word) (t : Time), s.pwr.held = false →
    (∃ u, exec (.ringConfigWrite n 0 v t) s = .next u ∧
      (s.ringOn n = false → u.reg (R.HQ_RING_BASEL n) = v &&& 0xFFFFF000) ∧
      (s.ringOn n = true → u.reg (R.HQ_RING_BASEL n) = s.reg (R.HQ_RING_BASEL n) ∧ u.rdB F.HQ_ERR_CFG_WR = true)) ∧
    (∃ u, exec (.ringConfigWrite n 1 v t) s = .next u ∧
      (s.ringOn n = false → u.reg (R.HQ_RING_BASEH n) = v) ∧
      (s.ringOn n = true → u.reg (R.HQ_RING_BASEH n) = s.reg (R.HQ_RING_BASEH n) ∧ u.rdB F.HQ_ERR_CFG_WR = true)) ∧
    (∃ u, exec (.ringConfigWrite n 2 v t) s = .next u ∧
      (s.ringOn n = false → u.rd (F.HQ_RING_CFG_LOG2SIZE n) = bits v.toNat 1 5 ∧ u.rd (F.HQ_RING_CFG_CQ n) = bits v.toNat 8 4 ∧
        u.ringOn n = bitOf v.toNat 0 ∧ (bitOf v.toNat 0 = true → u.rd (F.HQ_RING_STAT_HUB_IDX n) = 0 ∧
          u.rd (F.HQ_RING_STAT_PHASE n) = 1 ∧ (u.hring n).hostIdx = 0)) ∧
      (s.ringOn n = true → u.rd (F.HQ_RING_CFG_LOG2SIZE n) = s.rd (F.HQ_RING_CFG_LOG2SIZE n) ∧
        u.rd (F.HQ_RING_CFG_CQ n) = s.rd (F.HQ_RING_CFG_CQ n) ∧
        (bits v.toNat 1 5 ≠ s.rd (F.HQ_RING_CFG_LOG2SIZE n) → u.rdB F.HQ_ERR_CFG_WR = true) ∧
        (bitOf v.toNat 0 = false → (s.hring n).wait = .idle → (s.hring n).flight = [] → u.ringOn n = false) ∧
        (bitOf v.toNat 0 = false → (s.hring n).wait ≠ .idle → u.ringOn n = true ∧ (u.hring n).closing = true))) ∧
    (∀ which : Fin 8, 3 ≤ which.val → ∃ u, exec (.ringConfigWrite n which v t) s = .next u ∧
      u.reg (R.HQ_RING_MOD n) = v &&& 0xFFFF ∧ ∀ o, o ≠ R.HQ_RING_MOD n → u.reg o = s.reg o)) ∧
  (∀ (s : State) (n : HRing) (t : Time), s.pwr.held = false →
    (∃ u, exec (.readFail n t) s = .next u ∧ (s.ringOn n = false → u = s.advance t) ∧
      (s.ringOn n = true → u.rdB (F.HQ_RING_STAT_ERR n) = true ∧ u.rdB F.HQ_ERR_RD_FAIL = true ∧ u.latchBit 0x0E1 = true)) ∧
    (∃ u, exec (.moderationTimer n t) s = .next u ∧ ((s.hring n).timer = none → u = s.advance t) ∧
      (∀ (a : Time) (vec : Nat) (due : Bool), (s.hring n).timer = some a → vec = s.rd (F.HQ_RING_CFG_VEC n) →
        due = (s.rd (F.HQ_RING_MOD_MOD_TMR n) != 0 && s.ringOn n && s.rdB (F.HQ_RING_CFG_VEC_EN n) &&
          decide (a + ns (1000 * s.rd (F.HQ_RING_MOD_MOD_TMR n)) ≤ (s.advance t).clk.now)) →
        (due = false → u = s.advance t) ∧
        (due = true → (u.hring n).timer = none ∧ (u.hring n).sinceMsg = 0 ∧
          (s.rdB F.HQ_STAT_MSIX_EN = false ∨ s.rdB F.HQ_STAT_BME = false ∨ bitOf (s.reg (0x47000C + 16 * vec)).toNat 0 = true →
            u.rdB ⟨0x478000 + 4 * (vec / 32), vec % 32, 1⟩ = true ∧ u.hostMem = s.hostMem) ∧
          (s.rdB F.HQ_STAT_MSIX_EN = true → s.rdB F.HQ_STAT_BME = true → bitOf (s.reg (0x47000C + 16 * vec)).toNat 0 = false →
            readBytes u.hostMem ((s.reg (0x470000 + 16 * vec)).toNat + 2 ^ 32 * (s.reg (0x470004 + 16 * vec)).toNat) 4 =
              (s.reg (0x470008 + 16 * vec)).toNat)))) ∧
    (∀ speed width : Nat, ∃ u, exec (.pcieLinkUp speed width t) s = .next u ∧ u.rdB F.HQ_STAT_LINK_UP = true ∧
      u.rd F.HQ_STAT_SPEED = speed % 2 ^ F.HQ_STAT_SPEED.w ∧ u.rd F.HQ_STAT_WIDTH = width % 2 ^ F.HQ_STAT_WIDTH.w ∧
      u.liveBit 0x0E0 = false) ∧
    (∀ msix : Bool, ∃ u, exec (.busMasterEnableWrite false msix t) s = .next u ∧ u.rdB F.HQ_STAT_BME = false ∧
      u.rdB F.HQ_STAT_MSIX_EN = msix ∧ u.rdB F.HQ_ERR_BME_OFF = true ∧
      (s.ringOn n = true → u.rdB (F.HQ_RING_STAT_STALL n) = true)) ∧
    (∀ msix : Bool, ∃ u, exec (.busMasterEnableWrite true msix t) s = .next u ∧ u.rdB F.HQ_STAT_BME = true ∧
      u.rdB F.HQ_STAT_MSIX_EN = msix ∧
      (n.val < 16 → s.ringOn n = true → (s.hring n).wait = .idle → u.rdB (F.HQ_RING_STAT_STALL n) = false)))

/-- Ethernet (R244, R245, R421, R422). -/
def Obligations.EthernetSendsAndReceives : Prop :=
  (∀ (s : State) (n : HRing) (cid port tsid : Nat) (frame : List Byte) (ts : Bool) (t : Time), s.pwr.held = false → s.CommandAt n →
    n.val < 16 →
    (∃ u, exec (.ethTx n cid port ts tsid frame t) s = .next u ∧ s.Took u n ∧
      (1 ≤ frame.length → frame.length ≤ 1522 → (u.hring n).wait = .eth cid (port % 2) ts tsid frame) ∧
      (frame = [] ∨ 1522 < frame.length → s.Answered u n cid 2 0 s.cyc)) ∧
    (∀ addr len : Nat, ∃ u, exec (.ethRxbuf n cid port addr len t) s = .next u ∧ s.Took u n ∧
      (len < 1536 → u.rxbufs (port % 2) = s.rxbufs (port % 2) ∧ s.Answered u n cid 2 0 s.cyc) ∧
      (1536 ≤ len → 256 ≤ (s.rxbufs (port % 2)).length → u.rxbufs (port % 2) = s.rxbufs (port % 2) ∧
        s.Answered u n cid 3 0 s.cyc) ∧
      (1536 ≤ len → (s.rxbufs (port % 2)).length < 256 →
        u.rxbufs (port % 2) = s.rxbufs (port % 2) ++ [⟨cid, addr, len⟩] ∧ s.Answered u n cid 0 0 s.cyc))) ∧
  (∀ (s : State) (n : HRing) (age cid port tsid : Nat) (frame : List Byte) (ts : Bool) (t : Time), s.pwr.held = false → s.CqFree n →
    (s.hring n).wait = .eth cid port ts tsid frame → n.val < 16 → port < 2 →
    ∃ u, exec (.ethTxComplete n age t) s = .next u ∧ s.Answered u n cid 0 (tsid % 65536) s.cyc ∧
      ((ts && s.ptpEvent port frame) = false → u.txq port = s.txq port) ∧
      ((ts && s.ptpEvent port frame) = true → (s.txq port).length < 16 → u.txq port = s.txq port ++
        [⟨tsid % 65536, (s.advance t).clk.hall - ns age + s.rd (F.HT_ETH_TXLAT_LAT port) * 256⟩])) ∧
  (∀ (s : State) (n : HRing) (age : Nat) (t : Time), s.pwr.held = false → (s.hring n).wait = .idle →
    ∃ u, exec (.ethTxComplete n age t) s = .next u ∧ u = s.advance t) ∧
  (∀ (s : State) (port : Fin 2) (bytes : List Byte) (fcsOk : Bool) (age : Nat) (t : Time) (ring : Nat) (room : Bool) (drop : Fld),
    s.pwr.held = false →
    ring = 32 + s.rd (if port = 0 then F.HQ_EV_ROUTE_ETH0_RING else F.HQ_EV_ROUTE_ETH1_RING) →
    room = (s.rdB (if port = 0 then F.HQ_EV_ROUTE_ETH0_EN else F.HQ_EV_ROUTE_ETH1_EN) && s.ringOn ring &&
      !s.ringFull ring && s.rdB F.HQ_STAT_BME) →
    drop = (if port = 0 then F.HQ_ETH_CNT_DROP0 else F.HQ_ETH_CNT_DROP1) →
    ∃ u, exec (.ethReceive port bytes fcsOk age t) s = .next u ∧
      (s.rdB (F.HQ_ETH_CFG_EN port) = false ∨ s.ethAccept port bytes = false → u = s.advance t) ∧
      (s.rdB (F.HQ_ETH_CFG_EN port) = true → s.ethAccept port bytes = true →
        room = false ∨ fcsOk = false ∨ 1522 < bytes.length ∨ s.rxbufs port = [] →
        u.rd drop = min (s.rd drop + 1) 65535 ∧ u.rdB F.HQ_ERR_ETH_DROP = true ∧ u.rxbufs port = s.rxbufs port) ∧
      (∀ b l, s.rdB (F.HQ_ETH_CFG_EN port) = true → s.ethAccept port bytes = true → room = true → fcsOk = true →
        bytes.length ≤ 1522 → s.rxbufs port = b :: l → s.rdB (F.HQ_RING_CFG_VEC_EN ring) = false →
        u.rxbufs port = l ∧ u.rd (F.HQ_RING_STAT_HUB_IDX ring) = (s.rd (F.HQ_RING_STAT_HUB_IDX ring) + 1) % s.ringSize ring ∧
        ∀ a, a = s.ringBase ring + 32 * s.rd (F.HQ_RING_STAT_HUB_IDX ring) →
        (∀ j < bytes.length, b.addr + j < a ∨ a + 32 ≤ b.addr + j → readByte u.hostMem (b.addr + j) = bytes.getD j 0) ∧
        ∃ e, (∀ j < 32, (readByte u.hostMem (a + j)).toNat = bits e (8 * j) 8) ∧ bits e 0 8 = 2 ∧
          bits e 16 16 = (s.hring ring).seq % 65536 ∧ bits e 128 16 = bytes.length ∧ bits e 144 1 = port ∧
          bits e 160 16 = b.cid % 2 ^ 16))

/-- Scheduler operations (R434 to R439). -/
def Obligations.SchedulerOperationsMoveThreads : Prop :=
  (∀ (s : State) (who : Option CoreNo) (th : Fin 256) (t : Time), s.pwr.held = false →
    (∃ u, exec (.schReady who th t) s = .next u ∧ u.reg (resFld (coreOf who)) = 0 ∧
      (s.thrState th = 3 → u.thrState th = 1) ∧
      (s.thrState th ≠ 3 → (s.advance t).justOut th none = false → u.thrState th = s.thrState th ∧ u.rdB (F.SCH_THR_STAT_PEND th) = true ∧
        (s.rdB (F.SCH_THR_STAT_PEND th) = true → u.rd F.SCH_CNT_SIG_LOST = min (s.rd F.SCH_CNT_SIG_LOST + 1) 65535))) ∧
    (∀ prio : Fin 32, ∃ u, exec (.schPrio who th prio t) s = .next u ∧ u.reg (resFld (coreOf who)) = 0 ∧
      u.thrPrio th = prio ∧ ∀ j : Fin 256, u.thrState j = s.thrState j) ∧
    (s.ThreadsExist → ∃ u, exec (.schSuspend who th t) s = .next u ∧
      (1 ≤ s.thrState th → s.thrState th ≤ 7 → u.thrState th = 8 ∧ u.rdB (F.SCH_THR_STAT_TKV th) = false ∧
        u.reg (resFld (coreOf who)) = (if (match who with | some c => s.coreRun c == some th.val | none => false) then 2 else 0)) ∧
      (s.thrState th = 0 ∨ 8 ≤ s.thrState th → u.thrState th = s.thrState th ∧ u.reg (resFld (coreOf who)) = 1)) ∧
    (∃ u, exec (.schResume who th t) s = .next u ∧
      (s.thrState th = 8 → u.thrState th = 1 ∧ (u.thr th).susp = true ∧ u.reg (resFld (coreOf who)) = 0) ∧
      (s.thrState th ≠ 8 → u.thrState th = s.thrState th ∧ u.reg (resFld (coreOf who)) = 1)) ∧
    (∃ u, exec (.start who th t) s = .next u ∧
      (s.thrState th = 0 ∨ s.thrState th = 9 → u.thrState th = 1 ∧ u.reg (resFld (coreOf who)) = 0) ∧
      (s.thrState th ≠ 0 → s.thrState th ≠ 9 → u.thrState th = s.thrState th ∧ u.reg (resFld (coreOf who)) = 1))) ∧
  (∀ (s : State) (who : Option CoreNo) (q : Fin 256) (f : Fin 16) (t : Time), s.pwr.held = false →
    (∀ c, who = some c → s.coreRun c = none) →
    ∀ i ∈ [Instr.schWait who t, .schSleep who t, .waitQ who q t, .waitCyc who t, .flowEnter who f t, .flowRelease who f t,
      .exit who t], ∃ u, exec i s = .next u ∧ u.reg (resFld (coreOf who)) = 1 ∧
        ∀ o, o ≠ resFld (coreOf who) → u.reg o = s.reg o) ∧
  (∀ (s : State) (c : CoreNo) (v arg : Nat) (t : Time), s.pwr.held = false → s.coreRun c = some v →
    arg = s.rd (F.SCH_ARG_ARG c) →
    (∃ u, exec (.schWait (some c) t) s = .next u ∧
      (s.rdB (F.SCH_THR_STAT_PEND v) = true → u.rdB (F.SCH_THR_STAT_PEND v) = false ∧ u.reg (R.SCH_RES c) = 0 ∧
        u.thrState v = s.thrState v) ∧
      (s.rdB (F.SCH_THR_STAT_PEND v) = false → u.thrState v = 3 ∧ u.rdB (F.SCH_RES_BLOCKED c) = true ∧
        (∀ d : CoreNo, u.coreNext d ≠ some v) ∧
        (u.thr v).wake = (if arg = 0 then none else some ((s.advance t).schTick + arg)))) ∧
    (∃ u, exec (.schSleep (some c) t) s = .next u ∧
      (arg = 0 ∨ 2 ^ 31 ≤ arg → u.reg (R.SCH_RES c) = 1 ∧ u.thrState v = s.thrState v) ∧
      (1 ≤ arg → arg < 2 ^ 31 → u.thrState v = 4 ∧ u.rdB (F.SCH_RES_BLOCKED c) = true ∧
        (u.thr v).wake = some ((s.advance t).schTick + arg))) ∧
    (∀ q : Fin 256, ∃ u, exec (.waitQ (some c) q t) s = .next u ∧
      (48 ≤ q.val → u.reg (R.SCH_RES c) = 1 ∧ u.thrState v = s.thrState v) ∧
      (q.val < 48 → (s.iqSeen q).items ≠ [] → u.reg (R.SCH_RES c) = 0 ∧ u.thrState v = s.thrState v) ∧
      (q.val < 48 → (s.iqSeen q).items = [] → u.thrState v = 5 ∧ u.rdB (F.SCH_RES_BLOCKED c) = true ∧ (u.thr v).q = some q.val ∧
        (u.thr v).wake = (if arg = 0 then none else some ((s.advance t).schTick + arg)))) ∧
    (∃ u, exec (.waitCyc (some c) t) s = .next u ∧
      (serialLt s.cyc arg = true → u.thrState v = 6 ∧ u.rdB (F.SCH_RES_BLOCKED c) = true ∧ (u.thr v).cyc = some arg) ∧
      (serialLt s.cyc arg = false → u.thrState v = s.thrState v ∧ u.rdB (F.SCH_RES_LATE c) = true ∧
        u.rdB (F.SCH_RES_BLOCKED c) = false)) ∧
    (∀ f : Fin 16, ∃ u, exec (.flowEnter (some c) f t) s = .next u ∧
      (s.rdB (F.SCH_THR_STAT_TKV v) = true → u.reg (R.SCH_RES c) = 1 ∧ u.flow f = s.flow f) ∧
      (s.rdB (F.SCH_THR_STAT_TKV v) = false → (s.flow f).out.length < 64 →
        u.rdB (F.SCH_THR_STAT_TKV v) = true ∧ u.rd (F.SCH_THR_STAT_FLOW v) = f ∧
        u.rd (F.SCH_THR_STAT_TICKET v) = s.rd (F.SCH_FLOW_NEXT_TICKET f) ∧
        u.rd (F.SCH_RES_TICKET c) = s.rd (F.SCH_FLOW_NEXT_TICKET f) ∧
        u.rd (F.SCH_FLOW_NEXT_TICKET f) = (s.rd (F.SCH_FLOW_NEXT_TICKET f) + 1) % 65536 ∧
        (u.flow f).out = (s.flow f).out ++ [(s.rd (F.SCH_FLOW_NEXT_TICKET f), v)]) ∧
      (s.rdB (F.SCH_THR_STAT_TKV v) = false → 64 ≤ (s.flow f).out.length →
        u.thrState v = 7 ∧ u.rdB (F.SCH_RES_BLOCKED c) = true ∧ (u.flow f).enter = (s.flow f).enter ++ [v] ∧
        u.rd (F.SCH_FLOW_CNT_FULL_WAITS f) = min (s.rd (F.SCH_FLOW_CNT_FULL_WAITS f) + 1) 65535)) ∧
    (∀ f : Fin 16, s.ThreadsExist → v ∉ (s.flow f).enter → ∃ u, exec (.flowRelease (some c) f t) s = .next u ∧
      (s.rdB (F.SCH_THR_STAT_TKV v) = false ∨ s.rd (F.SCH_THR_STAT_FLOW v) ≠ f.val → u.reg (R.SCH_RES c) = 1) ∧
      (∀ k r, s.rdB (F.SCH_THR_STAT_TKV v) = true → s.rd (F.SCH_THR_STAT_FLOW v) = f.val → (s.flow f).out = (k, v) :: r →
        u.rdB (F.SCH_THR_STAT_TKV v) = false ∧ u.reg (R.SCH_RES c) = 0) ∧
      (∀ k w r, s.rdB (F.SCH_THR_STAT_TKV v) = true → s.rd (F.SCH_THR_STAT_FLOW v) = f.val → (s.flow f).out = (k, w) :: r →
        w ≠ v → u.thrState v = 7 ∧ u.rdB (F.SCH_RES_BLOCKED c) = true ∧ (u.thr v).rel = true ∧
          u.rdB (F.SCH_THR_STAT_TKV v) = true)) ∧
    (s.ThreadsExist → ∃ u, exec (.exit (some c) t) s = .next u ∧ u.thrState v = 0 ∧ u.rdB (F.SCH_THR_STAT_TKV v) = false ∧
      u.rdB (F.SCH_RES_BLOCKED c) = true ∧ ∀ d : CoreNo, u.coreNext d ≠ some v))

/-- Dispatch and cores (R426, R428, R431 to R435, R437, R441). -/
def Obligations.CoresRunWhatTheSchedulerDispatches : Prop :=
  (∀ (s : State) (t : Time), s.pwr.held = false → s.ThreadsExist →
    (∃ u, exec (.schTimeout t) s = .next u ∧ ((∀ p ∈ s.sch.threads, p.2.wake = none) → u = s.advance t) ∧
      ∀ (th : Fin 256) (w : Nat), (s.thr th).wake = some w →
        ((s.advance t).schTick + 2 ^ 32 - w % 2 ^ 32) % 2 ^ 32 < 2 ^ 31 → u.thrState th = 1 ∧ (u.thr th).wake = none ∧
          (s.thrState th ≠ 4 → u.rdB (F.SCH_THR_STAT_TIMEOUT th) = true)) ∧
    (∃ u, exec (.dispatch t) s = .next u ∧
      (s.sch.released = [] → (∀ th : Fin 256, s.thrState th = 1 → s.coreFor th = none) →
        ∀ th : Fin 256, u.thrState th = s.thrState th) ∧
      (∀ (v : Fin 256) (c : Nat) (r : List Nat), s.sch.released = [] → s.sch.counted = v.val :: r → s.thrState v = 1 →
        s.coreFor v = some c → u.thrState v = 2 ∧ u.coreNext c = some v.val) ∧
      (∀ (v : Fin 256) (c : Nat), s.sch.released = [] → s.thrState v = 1 → s.coreFor v = some c →
        (∀ w ∈ s.sch.counted, s.coreFor w = none) →
        (∀ w : Fin 256, s.thrState w = 1 → s.coreFor w ≠ none →
          s.thrPrio w < s.thrPrio v ∨ (s.thrPrio w = s.thrPrio v ∧ v ≤ w)) →
        u.thrState v = 2 ∧ u.coreNext c = some v.val ∧ (s.coreRun c ≠ some v.val → bitOf u.sch.irq c = true) ∧
        ∀ w, s.coreNext c = some w → w ≠ v.val → u.thrState w = 1) ∧
      (∀ x r, s.sch.released = x :: r → u.sch.released = r ∧ (u.thrState x = 1 ∨ u.thrState x = 2)))) ∧
  (∀ (s : State) (c : CoreNo) (t : Time), s.pwr.held = false →
    (∀ (th : Fin 256) (idle : Bool) (want : Option Nat), want = (if idle then none else some th.val) →
      ∃ u, exec (.schSwitch c th idle t) s = .next u ∧
      (s.coreNext c = want → u.coreRun c = want ∧ bitOf u.sch.irq c = false ∧ u.rdB (F.SCH_RES_REFUSED c) = false) ∧
      (s.coreNext c ≠ want → u.coreRun c = s.coreRun c ∧ u.rdB (F.SCH_RES_REFUSED c) = true)) ∧
    (∃ u, exec (.schResRead c t) s = .next u ∧ u.rdata = s.reg (R.SCH_RES c) &&& 0xFFFF001F ∧
      u = { s.advance t with rdata := u.rdata }) ∧
    (s.ThreadsExist → ∃ u, exec (.lockstepMismatch c t) s = .next u ∧ u.latchBit (0x0B8 + c) = true ∧
      u.rdB (F.SCH_CORE_STAT_LSF c) = true ∧ u.rdB (F.SCH_CORE_STAT_HALT c) = true ∧ u.coreLive c = false ∧
      u.coreRun c = none ∧ u.coreNext c = none ∧ (∀ v, s.coreRun c = some v → u.thrState v = 9) ∧
      ∀ w, s.coreNext c = some w → s.coreRun c ≠ some w → u.thrState w = 1) ∧
    (∀ v ok : Bool, ok = (v && !s.rdB (F.SCH_CORE_CTRL_RUN c) && !s.latchBit (0x0B8 + c)) →
      ∃ u, exec (.coreRun c v t) s = .next u ∧ (ok = false → u = s.advance t) ∧
      (ok = true → u.rdB (F.SCH_CORE_CTRL_RUN c) = true ∧ u.rdB (F.SCH_CORE_STAT_HALT c) = false ∧
        u.rdB (F.SCH_CORE_STAT_LSF c) = false ∧ u.coreRun c = none ∧ u.coreNext c = none)) ∧
    (∀ src : Fin 5, ∃ u, exec (.uncorrectableEccError src t) s = .next u ∧ u.latchBit (0x0C0 + src) = true ∧
      u.coreMem = s.coreMem ∧ ∀ o, quietReg o → u.reg o = s.reg o))

/-- The CAN controllers send (R456 to R466). -/
def Obligations.CanControllersSend : Prop :=
  (∀ (s : State) (n : Fin 2) (t : Time), s.pwr.held = false →
    (∃ u, exec (.canInitWrite n true t) s = .next u ∧ u.rdB (F.CAN_CTRL_INIT n) = true ∧ u.rd (F.CAN_STAT_STATE n) = 0 ∧
      (u.canSt n).txq = [] ∧ (u.canSt n).urg = none ∧ (u.canSt n).bus = none ∧ (u.canSt n).rx0 = [] ∧ (u.canSt n).rx1 = [] ∧
      u.liveBit (0x0E2 + n) = false ∧ ∀ m : Fin 4, u.rdB (F.CAN_SMB_STAT_NEW n m) = false ∧
        u.rdB (F.CAN_SMB_STAT_LOCKED n m) = false ∧ u.rdB (F.CAN_SMB_STAT_PEND n m) = false) ∧
    (∃ u, exec (.canInitWrite n false t) s = .next u ∧ u.rdB (F.CAN_CTRL_INIT n) = false ∧
      u.rd (F.CAN_STAT_STATE n) = (if s.rdB (F.CAN_CTRL_INIT n) then 1 else s.rd (F.CAN_STAT_STATE n))) ∧
    (∃ u, exec (.canIntegrationDone n t) s = .next u ∧ (s.rd (F.CAN_STAT_STATE n) = 1 → (s.advance t).canBits n 11 = true →
        u.rd (F.CAN_STAT_STATE n) = (if 127 < s.rd (F.CAN_STAT_TEC n) ∨ 127 < s.rd (F.CAN_STAT_REC n) then 3 else 2)) ∧
      (s.rd (F.CAN_STAT_STATE n) ≠ 1 ∨ (s.advance t).canBits n 11 = false → u = s.advance t)) ∧
    (∃ u, exec (.canProtocolException n t) s = .next u ∧
      (s.canActive n = true → u.rd (F.CAN_STAT_STATE n) = 1 ∧
        u.rd (F.CAN_CNT_PEXC n) = min (s.rd (F.CAN_CNT_PEXC n) + 1) (2 ^ (F.CAN_CNT_PEXC n).w - 1)) ∧
      (s.canActive n = false → u = s.advance t)) ∧
    (∀ who, ∃ u, exec (.push n who t) s = .next u ∧
      ((s.canSt n).txq.length < 32 → (u.canSt n).txq = (s.canSt n).txq ++ [{ words := s.staged n who }] ∧
        u.rd (F.CAN_STAT_TXQ_LEVEL n) = (s.canSt n).txq.length + 1) ∧
      (32 ≤ (s.canSt n).txq.length → u.can = s.can ∧ u.rdB (F.CAN_ERR_TXQ_FULL n) = true)) ∧
    (∀ who, ∃ u, exec (.urgent n who t) s = .next u ∧
      ((s.canSt n).urg = none → (u.canSt n).urg = some { words := s.staged n who } ∧ u.rdB (F.CAN_STAT_URG_FULL n) = true) ∧
      ((s.canSt n).urg ≠ none → u.can = s.can ∧ u.rdB (F.CAN_ERR_URG_BUSY n) = true)) ∧
    (∀ tag, ∃ u, exec (.cancel n true tag t) s = .next u ∧ ((s.canSt n).urg = none → u = s.advance t) ∧
      (∀ f, (s.canSt n).urg = some f → (s.canSt n).bus ≠ some true → (u.canSt n).urg = none ∧
        (f.ring = false → u.rd (F.CAN_TXRES_OUTCOME n) = 2 ∧ u.rd (F.CAN_TXRES_TAG n) = entryTag f.words)) ∧
      (∀ f, (s.canSt n).urg = some f → (s.canSt n).bus = some true → (u.canSt n).urg = some { f with cancel := true } ∧
        u.regs = s.regs)) ∧
    (∀ tag : Fin 65536, ∃ u, exec (.cancel n false tag t) s = .next u ∧
      ((∀ f ∈ (s.canSt n).txq, entryTag f.words ≠ tag) → u = s.advance t) ∧
      (∀ pre f post, (s.canSt n).txq = pre ++ f :: post → (∀ g ∈ pre, entryTag g.words ≠ tag) → entryTag f.words = tag →
        (pre ≠ [] ∨ (s.canSt n).bus ≠ some false → (u.canSt n).txq = pre ++ post ∧
          (f.ring = false → u.rd (F.CAN_TXRES_OUTCOME n) = 2 ∧ u.rd (F.CAN_TXRES_TAG n) = tag)) ∧
        (pre = [] → (s.canSt n).bus = some false → (u.canSt n).txq = { f with cancel := true } :: post))) ∧
    (∃ u, exec (.recover n t) s = .next u ∧ (s.rd (F.CAN_STAT_STATE n) = 4 → u.rd (F.CAN_STAT_STATE n) = 5) ∧
      (s.rd (F.CAN_STAT_STATE n) ≠ 4 → u = s.advance t)) ∧
    (∀ words (ok : Bool), ok = (s.rdB (F.CAN_CTRL_TXRING n) && s.canFetch (60 + 2 * n) && decide ((s.canSt n).txq.length < 32)) →
      ∃ u, exec (.canRingFetch n words t) s = .next u ∧ (ok = false → u = s.advance t) ∧
      (ok = true → (u.canSt n).txq = (s.canSt n).txq ++ [{ words := words.take 24, ring := true }] ∧
        u.rd (F.HQ_RING_STAT_HUB_IDX (60 + 2 * n)) =
          (s.rd (F.HQ_RING_STAT_HUB_IDX (60 + 2 * n)) + 1) % s.ringSize (60 + 2 * n))) ∧
    (∃ u, exec (.canStartOfFrame n t) s = .next u ∧ (u.canSt n).restr = s.rdB (F.CAN_CTRL_RESTR n) ∧
      (u.canSt n).urg = (s.canSt n).urg ∧ (u.canSt n).txq.map CanTx.words = (s.canSt n).txq.map CanTx.words ∧
      (s.canActive n = false ∨ s.rdB (F.CAN_CTRL_RESTR n) = true ∨ (s.canSt n).bus ≠ none → (u.canSt n).bus = (s.canSt n).bus) ∧
      (s.canActive n = true → s.rdB (F.CAN_CTRL_RESTR n) = false → (s.canSt n).bus = none →
        (u.canSt n).bus = (if (s.canSt n).urg.isSome then some true else if (s.canSt n).txq = [] then none else some false))) ∧
    (∃ u, exec (.canBusOff n t) s = .next u ∧
      (s.canActive n = false ∨ (s.canSt n).restr = true → u = s.advance t) ∧
      (s.canActive n = true → (s.canSt n).restr = false → u.rdB (F.CAN_ERR_BUSOFF n) = true ∧ u.liveBit (0x0E2 + n) = true ∧
      u.rd (F.CAN_STAT_STATE n) = (if s.rdB (F.CAN_CTRL_AUTO_REC n) then 5 else 4) ∧ (u.canSt n).bus = none ∧
      (u.canSt n).txq = (s.canSt n).txq.map (fun f => { f with tries := 0 }))) ∧
    (∃ u, exec (.canRecoveryDone n t) s = .next u ∧ (s.rd (F.CAN_STAT_STATE n) ≠ 5 ∨ (s.advance t).canBits n 1408 = false → u = s.advance t) ∧
      (s.rd (F.CAN_STAT_STATE n) = 5 → (s.advance t).canBits n 1408 = true → u.rd (F.CAN_STAT_STATE n) = 2 ∧ u.rd (F.CAN_STAT_TEC n) = 0 ∧
        u.rd (F.CAN_STAT_REC n) = 0 ∧ u.liveBit (0x0E2 + n) = false))) ∧
  (∀ (s : State) (n : Fin 2) (e : CanEnd) (delay tec rec : Nat) (t : Time), s.pwr.held = false →
    ∃ u, exec (.canTxDone n e delay tec rec t) s = .next u ∧ ((s.canSt n).bus = none → u = s.advance t) ∧
      (e = .error → 255 < tec → (s.canSt n).restr = false → s.canActive n = true → (s.canSt n).bus ≠ none →
        u.rdB (F.CAN_ERR_BUSOFF n) = true ∧ (u.canSt n).bus = none ∧ (u.canSt n).txq.map CanTx.words = (s.canSt n).txq.map CanTx.words) ∧
      ∀ (b : Bool) (f : CanTx) (o : Option Nat), (e = .error → tec ≤ 255 ∨ (s.canSt n).restr = true) → (s.canSt n).bus = some b →
        (if b then (s.canSt n).urg else (s.canSt n).txq.head?) = some f →
        o = (match e with
          | .lost => if f.cancel then some 2 else none
          | .sent => some (if f.cancel then 1 else 0)
          | .error => if f.cancel then some 4
            else if s.rd (F.CAN_CTRL_RETRY n) < 16 ∧ s.rd (F.CAN_CTRL_RETRY n) ≤ f.tries then some 3 else none) →
        (u.canSt n).bus = none ∧
        (e = .lost → u.rd (F.CAN_CNT_ARBLOST n) = min (s.rd (F.CAN_CNT_ARBLOST n) + 1) (2 ^ (F.CAN_CNT_ARBLOST n).w - 1)) ∧
        (e = .error → u.rd (F.CAN_CNT_ERRFR n) = min (s.rd (F.CAN_CNT_ERRFR n) + 1) (2 ^ (F.CAN_CNT_ERRFR n).w - 1)) ∧
        (∀ x, o = some x →
          (b = true → (u.canSt n).urg = none ∧ (u.canSt n).txq = (s.canSt n).txq) ∧
          (b = false → (u.canSt n).txq = (s.canSt n).txq.drop 1 ∧ (u.canSt n).urg = (s.canSt n).urg) ∧
          (f.ring = false → u.rd (F.CAN_TXRES_OUTCOME n) = x ∧ u.rd (F.CAN_TXRES_TAG n) = entryTag f.words)) ∧
        (o = none → ∀ g, g = { f with tries := f.tries + (if e = .error then 1 else 0) } →
          (b = true → (u.canSt n).urg = some g ∧ (u.canSt n).txq = (s.canSt n).txq) ∧
          (b = false → (u.canSt n).txq = g :: (s.canSt n).txq.drop 1 ∧ (u.canSt n).urg = (s.canSt n).urg)))

/-- The CAN controllers receive (R467 to R470). -/
def Obligations.CanControllersReceive : Prop :=
  (∀ (s : State) (n : Fin 2) (f : CanFrame) (age tec rec : Nat) (t : Time) (h : Time), s.pwr.held = false →
    h = (s.advance t).clk.hall - ns age → (∀ q : Fin 2, s.rdB (F.CAN_RXQ_CFG_RING n q) = false) →
    (∃ u, exec (.canReceive n f false age tec rec t) s = .next u ∧ (s.canActive n = false → u = s.advance t) ∧
      (s.canActive n = true → u.can = s.can ∧
        u.rd (F.CAN_CNT_ERRFR n) = min (s.rd (F.CAN_CNT_ERRFR n) + 1) (2 ^ (F.CAN_CNT_ERRFR n).w - 1))) ∧
    (∃ u, exec (.canReceive n f true age tec rec t) s = .next u ∧ (s.canActive n = false → u = s.advance t) ∧
      (∀ (k : Nat) (hit : Option (Nat × Nat)), s.canActive n = true → hit = s.canMatch n f →
        (hit = some (k, 0) ∨ (hit = none ∧ s.rdB (F.CAN_CTRL_ACC_ALL n) = true ∧ k = 31) →
          ((s.canSt n).rx0.length < 64 → (u.canSt n).rx0 = (s.canSt n).rx0 ++
            [⟨canWords f k (s.canSt n).seq0 h, (s.canSt n).num⟩] ∧ (u.canSt n).rx1 = (s.canSt n).rx1) ∧
          (64 ≤ (s.canSt n).rx0.length → u.can = s.can ∧
            u.rd (F.CAN_RXQ_STAT_LOST n 0) = min (s.rd (F.CAN_RXQ_STAT_LOST n 0) + 1) (2 ^ (F.CAN_RXQ_STAT_LOST n 0).w - 1))) ∧
        (hit = some (k, 1) →
          ((s.canSt n).rx1.length < 64 → (u.canSt n).rx1 = (s.canSt n).rx1 ++
            [⟨canWords f k (s.canSt n).seq1 h, (s.canSt n).num⟩] ∧ (u.canSt n).rx0 = (s.canSt n).rx0) ∧
          (64 ≤ (s.canSt n).rx1.length → u.can = s.can ∧
            u.rd (F.CAN_RXQ_STAT_LOST n 1) = min (s.rd (F.CAN_RXQ_STAT_LOST n 1) + 1) (2 ^ (F.CAN_RXQ_STAT_LOST n 1).w - 1))) ∧
        (∀ m : Fin 4, hit = some (k, m.val + 2) →
          (s.rdB (F.CAN_SMB_STAT_LOCKED n m) = false → u.rdB (F.CAN_SMB_STAT_NEW n m) = true ∧
            ∀ w < 24, u.reg (R.CAN_SMB n m w) = nth (canWords f k 0 h) w 0) ∧
          (s.rdB (F.CAN_SMB_STAT_LOCKED n m) = true → u.rdB (F.CAN_SMB_STAT_PEND n m) = true ∧
            Store.get (u.canSt n).pend none m = some (canWords f k 0 h) ∧
            ∀ w < 24, u.reg (R.CAN_SMB n m w) = s.reg (R.CAN_SMB n m w))) ∧
        (hit = none → s.rdB (F.CAN_CTRL_ACC_ALL n) = false → u.can = s.can)))) ∧
  (∀ (s : State) (n q : Fin 2) (t : Time), s.pwr.held = false → ∃ u, exec (.rxqAck n q t) s = .next u ∧
    (u.canSt n).rx0 = (if q = 0 then (s.canSt n).rx0.drop 1 else (s.canSt n).rx0) ∧
    (u.canSt n).rx1 = (if q = 0 then (s.canSt n).rx1 else (s.canSt n).rx1.drop 1) ∧
    u.rd (F.CAN_RXQ_STAT_LEVEL n 0) = (u.canSt n).rx0.length % 2 ^ (F.CAN_RXQ_STAT_LEVEL n 0).w) ∧
  (∀ (s : State) (who : Requester) (n : Fin 2) (m : Fin 4) (t : Time), s.pwr.held = false →
    (s.advance t).reaches who (R.CAN_SMB n m 0) = true → (s.advance t).reaches who (R.CAN_SMB n m 23) = true →
    s.heldBack (R.CAN_SMB n m 0) = false → s.heldBack (R.CAN_SMB n m 23) = false →
    (∃ u, exec (.smbLockRead who n m t) s = .next u ∧ u.rdata = s.reg (R.CAN_SMB n m 0) ∧
      u.rdB (F.CAN_SMB_STAT_LOCKED n m) = true ∧ u.rdB (F.CAN_SMB_STAT_NEW n m) = false ∧
      ∀ w < 24, u.reg (R.CAN_SMB n m w) = s.reg (R.CAN_SMB n m w)) ∧
    ∀ i ∈ [Instr.smbUnlockRead who n m t, .unlock n m t], ∃ u, exec i s = .next u ∧
      (i = .smbUnlockRead who n m t → u.rdata = s.reg (R.CAN_SMB n m 23)) ∧
      u.rdB (F.CAN_SMB_STAT_LOCKED n m) = false ∧
      (Store.get (s.canSt n).pend none m = none → u.can = s.can ∧
        ∀ w < 24, u.reg (R.CAN_SMB n m w) = s.reg (R.CAN_SMB n m w)) ∧
      (∀ ws, Store.get (s.canSt n).pend none m = some ws → u.rdB (F.CAN_SMB_STAT_NEW n m) = true ∧
        u.rdB (F.CAN_SMB_STAT_PEND n m) = false ∧ Store.get (u.canSt n).pend none m = none ∧
        ∀ w < 24, u.reg (R.CAN_SMB n m w) = nth ws w 0))

/-- Held in reset, or without supply (R480, R486, R523). -/
def Obligations.HeldHubAndUnsuppliedTreadTakeNoCommand : Prop :=
  (∀ (c : Instr) (s : State), s.pwr.held = true → c.cell = none → c.whileHeld = false → exec c s = .next s) ∧
  ∀ (c : Instr) (i : Cell) (s : State), c.cell = some i → (∀ full uv t, c ≠ .treadSupplyGood i full uv t) →
    (s.tread i).powered = false → exec c s = .next s

/-- Core memory: who changes it, and its canonical form in every step. -/
def Obligations.StepsKeepCoreMemoryInForm : Prop :=
  (∀ (c : Instr) (s u : State), exec c s = .next u → c ≠ .enginePass → (∀ off bytes t, c ≠ .bar2Write off bytes t) →
    (∀ a b t, c ≠ .bootVerify a b t) → u.coreMem = s.coreMem) ∧
  ∀ s u : State, Memory.wf s.coreMem → step s = .next u → Memory.wf u.coreMem

/-- The half-bridges of no Tread are ever shorted by a step. -/
def Obligations.NoStepShortsACell : Prop :=
  ∀ s u : State, s.noShort → step s = .next u → u.noShort

/-- The invariants hold at reset. -/
def Obligations.ResetMeetsTheInvariants : Prop :=
  State.reset.noShort ∧ Memory.wf State.reset.coreMem ∧ State.reset.pending = []

/-- The factory topology (R44). -/
def Obligations.NewPartHasNoArms : Prop :=
  State.reset.rd F.GEN_TOPO_DUP_MODE = 0 ∧ (∀ n : Fin 6, State.reset.reg (R.GEN_ARM_CFG n) = 0) ∧
    (∀ n : Fin 4, State.reset.reg (R.GEN_RING_ARM n) = 0xFFFFFFFF) ∧
    (∀ a : Fin 6, State.reset.rdB (F.GEN_ARM_CFG_EN a) = false ∧ State.reset.armOn a = false) ∧
    ∀ r : Ring, State.reset.armOf r = none

/-- The factory values of a Tread (R288). -/
def Obligations.NewTreadHasItsDriverParameters : Prop :=
  (∀ i : Cell, (State.reset.tread i).reg R.T_SW_DT = 0x000A0032 ∧ (State.reset.tread i).reg R.T_SW_DTB = 0x00C8000A ∧
    (State.reset.tread i).reg R.T_GFB_CFG = 0x000A0064 ∧ (State.reset.tread i).reg R.T_REFR_CFG = 0x0000050A ∧
    (State.reset.tread i).reg R.T_BYP_CFG = 0x00010A94) ∧
  ∀ o ∈ [R.T_SW_DT, R.T_SW_DTB, R.T_GFB_CFG, R.T_REFR_CFG, R.T_BYP_CFG], ∃ r, treadRow o = some r ∧ r.pw ≠ 0

/-- The factory state of the safety island (R366). -/
def Obligations.NewPartHasNoSafetyFunction : Prop :=
  (∀ p : Fin 8, State.reset.reg (R.SAF_SI p) = 0 ∧ State.reset.siFunc p = 0 ∧ State.reset.reg (R.SAF_BCH p) = 0 ∧
    State.reset.rdB (F.SAF_BCH_EN p) = false) ∧
  (∀ n : Fin 4, State.reset.reg (R.SAF_SBO n) = 0) ∧ State.reset.sboEnabled = 0 ∧
  (∀ a : Fin 6, State.reset.reg (R.SAF_SLC a) = 0 ∧ State.reset.rdB (F.SAF_SLC_EN a) = false) ∧
  State.reset.reg R.SAF_PWR_CFG = 0 ∧ State.reset.rdB F.SAF_PWR_CFG_SLR_EN = false ∧
  State.reset.rdB F.SAF_PWR_CFG_SLD_EN = false ∧ State.reset.reg R.SAF_SLR_RATE = 0 ∧ State.reset.reg R.SAF_SLR_BAND = 0 ∧
  State.reset.reg R.SAF_SLD_CFG = 0 ∧
  [0x070, 0x071, 0x072, 0x073, 0x074, 0x075, 0x0A7].map State.reset.sevOf = [4, 4, 3, 4, 3, 4, 4] ∧
  (∀ p : Fin 8, State.reset.sevOf (0x078 + p) = 3) ∧
  ∀ t : Time, ∃ u, exec (.sboRel 0x6B t) (State.reset.wr F.SAF_STAT_STATE 1) = .next u ∧ u.safState = 2

/-- The threads after reset (R430). -/
def Obligations.ThreadsAreDormantAfterReset : Prop :=
  (∀ th : Fin 256, State.reset.thrState th = 0 ∧ State.reset.thrPrio th = 0 ∧ State.reset.thrAff th = 15) ∧
  ∀ (s : State) (th : Fin 256), s.thrPrio th ≤ 31 ∧ s.thrAff th ≤ 15

/-- R178. -/
def Obligations.EstimateLoadsAreAcceptedWhileFree : Prop :=
  ∀ (s : State) (i : Cell) (which : Fin 3) (v : Word) (t : Time) (free : Bool), s.pwr.held = false →
    free = (s.rd (F.GAL_CELL_STAT_EXCL i) != 0 ||
      (match s.armOf (i.val / 32) with | some a => !s.deblocked a | none => true)) →
    ∃ u, exec (.estimateLoad i which v t) s = .next u ∧
      (free = true → u.rd (F.GAL_CELL_CONF_NACC i) = 64 ∧
        (u.galCell i).estA = (if which = 0 then b64.put (b32.dec v.toNat) else (s.galCell i).estA) ∧
        (u.galCell i).estB = (if which = 1 then b64.put (b32.dec v.toNat) else (s.galCell i).estB) ∧
        (u.galCell i).estE = (if which = 2 then b64.put (b32.dec v.toNat) else (s.galCell i).estE) ∧
        u.flt = s.flt) ∧
      (free = false → u.galCell i = s.galCell i ∧ u.rd (F.GAL_CELL_CONF_NACC i) = s.rd (F.GAL_CELL_CONF_NACC i) ∧
        u.latchBit 0x009 = true)

/-- R337. -/
def Obligations.QueueReadsGiveTheOldestItem : Prop :=
  ∀ (s : State) (q : Fin 48) (x : BitVec 64) (r : List (BitVec 64)) (t : Time), s.pwr.held = false →
    iqWriter q ∉ s.pwr.noClock → (s.iq q).items = x :: r →
    ∃ u, exec (.iqRead q 0 t) s = .next u ∧ u.rdata = x.extractLsb' 0 32 ∧ u.reg (R.FLT_IQ_RDH q) = x.extractLsb' 32 32 ∧
      (u.iq q).items = r ∧ (∀ j : Nat, j ≠ q.val → u.iq j = s.iq j) ∧ ∀ o, o ≠ R.FLT_IQ_RDH q → u.reg o = s.reg o

/-- What a frame carries is read back from it. -/
def Obligations.FramesCarryWhatTheyAreMadeOf : Prop :=
  (∀ (h : Header) (slots carts : List Slot) (hop pfar : Nat), h.ftype < 8 → h.dir < 2 → h.baseJ < 8 → h.lag < 2 ^ 14 →
    h.cycle < 2 ^ 32 → h.epoch < 2 ^ 16 → hallS h.e < 2 ^ 48 → hop < 64 → pfar < 64 → ∀ f, f = mkFrame h slots carts hop pfar →
    hcrcOk f = true ∧ fcrcOk f = true ∧ headerOf f = h ∧
      (∀ x : Fin 32, slotOf f x = nth slots x 0 ∧ slotOk f x = true) ∧
      (∀ c : Fin 8, cartOf f c = nth carts c (sealCart 0)) ∧
      retHop (retOf f) = hop ∧ retPfar (retOf f) = pfar ∧ retLbv (retOf f) = false) ∧
  ∀ (op tag pos arg data : Nat) (rpl : Bool), op < 16 → tag < 64 → pos < 32 → arg < 2 ^ 16 → data < 2 ^ 64 →
    ∀ v, v = mkCart op tag pos rpl arg data →
    cOp v = op ∧ cTag v = tag ∧ cPos v = pos ∧ cRpl v = rpl ∧ cArg v = arg ∧ cData v = data ∧
      sbits v 112 16 = crc16 112 (sbits v 0 112)

/-- The frame of the commands beside the control path. -/
def Obligations.SideCommandsLeaveTheControlPath : Prop :=
  ∀ (c : Instr) (s u : State), c.beside = true → exec c s = .next u →
    (∀ o, o < 0x380000 → o ≠ R.GEN_CONT 5 → u.reg o = s.reg o) ∧ u.treads = s.treads ∧ u.coreMem = s.coreMem ∧ u.gal = s.gal ∧ u.ace = s.ace

/-- The frame of the commands outside the control path. -/
def Obligations.OutsideCommandsLeaveTheControlPath : Prop :=
  ∀ (c : Instr) (s u : State), c.outside = true → exec c s = .next u →
    (∀ o, 0x40000 ≤ o → o < 0x300000 → u.reg o = s.reg o) ∧ u.treads = s.treads ∧ u.coreMem = s.coreMem ∧ u.gal = s.gal ∧
      u.ace = s.ace
end

