-- ==== Sys2Proof/Laws/Store.lean ====
section
/-!
SUPPORT. Laws/Store.lean: sparse stores and memories: a read after a write, and the canonical form.
-/

namespace Sys2Proof.Machine

theorem Store.get_ins_same {α : Type} (s : Store α) (d : α) (k : Nat) (v : α) : Store.get (Store.ins s k v) d k = v ∨
    ∃ w, (k, w) ∈ s := by
  induction s with
  | nil => left; simp [Store.ins, Store.get]
  | cons p r ih =>
    obtain ⟨a, w⟩ := p
    by_cases h : k < a
    · left; simp [Store.ins, h, Store.get]
    · by_cases e : a = k
      · right; exact ⟨w, by simp [e]⟩
      · rcases ih with ih | ⟨w', hw⟩
        · left; simp [Store.ins, h, Store.get, e, ih]
        · right; exact ⟨w', by simp [hw]⟩

theorem Store.get_ins_other {α : Type} (s : Store α) (d : α) (k j : Nat) (v : α) (h : j ≠ k) :
    Store.get (Store.ins s k v) d j = Store.get s d j := by
  induction s with
  | nil => simp [Store.ins, Store.get, Ne.symm h]
  | cons p r ih =>
    obtain ⟨a, w⟩ := p
    by_cases hk : k < a
    · simp [Store.ins, hk, Store.get, Ne.symm h]
    · simp [Store.ins, hk, Store.get, ih]

theorem Store.mem_del {α : Type} (s : Store α) (k : Nat) (p : Nat × α) : p ∈ Store.del s k ↔ p ∈ s ∧ p.1 ≠ k := by
  simp [Store.del]

theorem Store.get_del_same {α : Type} (s : Store α) (d : α) (k : Nat) : Store.get (Store.del s k) d k = d := by
  induction s with
  | nil => simp [Store.del, Store.get]
  | cons p r ih =>
    obtain ⟨a, w⟩ := p
    by_cases e : a = k
    · simpa [Store.del, e] using ih
    · simpa [Store.del, e, Store.get] using ih

theorem Store.get_del_other {α : Type} (s : Store α) (d : α) (k j : Nat) (h : j ≠ k) :
    Store.get (Store.del s k) d j = Store.get s d j := by
  induction s with
  | nil => simp [Store.del, Store.get]
  | cons p r ih =>
    obtain ⟨a, w⟩ := p
    have hd : Store.del ((a, w) :: r) k = if a = k then Store.del r k else (a, w) :: Store.del r k := by
      by_cases e : a = k <;> simp [Store.del, e]
    rw [hd]
    by_cases e : a = k
    · have hj : ¬ a = j := by omega
      rw [if_pos e, ih]
      simp [Store.get, hj]
    · rw [if_neg e]
      simp only [Store.get, ih]

/-- A read of the key just written. -/
@[simp] theorem Store.get_put_same {α : Type} [DecidableEq α] (s : Store α) (d : α) (k : Nat) (v : α) :
    Store.get (Store.put s d k v) d k = v := by
  unfold Store.put
  split
  · next h => rw [h]; exact Store.get_del_same s d k
  · rcases Store.get_ins_same (Store.del s k) d k v with h | ⟨w, hw⟩
    · exact h
    · simp [Store.mem_del] at hw

/-- A read of another key. -/
theorem Store.get_put_other {α : Type} [DecidableEq α] (s : Store α) (d : α) (k j : Nat) (v : α) (h : j ≠ k) :
    Store.get (Store.put s d k v) d j = Store.get s d j := by
  unfold Store.put
  split
  · exact Store.get_del_other s d k j h
  · rw [Store.get_ins_other _ _ _ _ _ h, Store.get_del_other s d k j h]

/-- A read of another key, whatever each of the two reads as when it is not listed. -/
theorem Store.get_put_key {α : Type} [DecidableEq α] (s : Store α) (d e : α) (k j : Nat) (v : α) (h : j ≠ k) :
    Store.get (Store.put s d k v) e j = Store.get s e j := by
  unfold Store.put
  split
  · exact Store.get_del_other s e k j h
  · rw [Store.get_ins_other _ _ _ _ _ h, Store.get_del_other s e k j h]

theorem Store.mem_ins {α : Type} (s : Store α) (k : Nat) (v : α) (p : Nat × α) (h : p ∈ Store.ins s k v) :
    p = (k, v) ∨ p ∈ s := by
  induction s with
  | nil => simpa [Store.ins] using h
  | cons q r ih =>
    obtain ⟨a, w⟩ := q
    by_cases hk : k < a
    · simp only [Store.ins, hk, if_true, List.mem_cons] at h ⊢
      exact h
    · simp only [Store.ins, hk, if_false, List.mem_cons] at h ⊢
      rcases h with h | h
      · exact .inr (.inl h)
      · rcases ih h with h | h
        · exact .inl h
        · exact .inr (.inr h)

theorem Store.wf_del {α : Type} (s : Store α) (d : Nat → α) (k : Nat) (h : Store.Wf s d) : Store.Wf (Store.del s k) d :=
  ⟨h.1.sublist List.filter_sublist, fun p hp => h.2 p ((Store.mem_del s k p).1 hp).1⟩

theorem Store.wf_ins {α : Type} (s : Store α) (d : Nat → α) (k : Nat) (v : α) (hv : v ≠ d k) (h : Store.Wf s d)
    (hk : ∀ p ∈ s, p.1 ≠ k) : Store.Wf (Store.ins s k v) d := by
  induction s with
  | nil => exact ⟨by simp [Store.ins], by simpa [Store.ins] using hv⟩
  | cons q r ih =>
    obtain ⟨a, w⟩ := q
    have ha : a ≠ k := hk (a, w) (by simp)
    by_cases hl : k < a
    · refine ⟨?_, ?_⟩
      · simp only [Store.ins, hl, if_true, List.pairwise_cons]
        refine ⟨?_, List.pairwise_cons.1 h.1⟩
        intro p hp
        rcases List.mem_cons.1 hp with rfl | hp
        · exact hl
        · exact Nat.lt_trans hl ((List.pairwise_cons.1 h.1).1 p hp)
      · intro p hp
        simp only [Store.ins, hl, if_true, List.mem_cons] at hp
        rcases hp with rfl | hp
        · exact hv
        · exact h.2 p (List.mem_cons.2 hp)
    · have hr : Store.Wf r d := ⟨(List.pairwise_cons.1 h.1).2, fun p hp => h.2 p (List.mem_cons.2 (.inr hp))⟩
      have ihr := ih hr (fun p hp => hk p (List.mem_cons.2 (.inr hp)))
      refine ⟨?_, ?_⟩
      · simp only [Store.ins, hl, if_false, List.pairwise_cons]
        refine ⟨?_, ihr.1⟩
        intro p hp
        rcases Store.mem_ins r k v p hp with rfl | hp
        · show a < k; omega
        · exact (List.pairwise_cons.1 h.1).1 p hp
      · intro p hp
        simp only [Store.ins, hl, if_false, List.mem_cons] at hp
        rcases hp with rfl | hp
        · exact h.2 _ (by simp)
        · exact ihr.2 p hp

/-- A write keeps the canonical form. -/
theorem Store.wf_put {α : Type} [DecidableEq α] (s : Store α) (d : Nat → α) (k : Nat) (v : α) (h : Store.Wf s d) :
    Store.Wf (Store.put s (d k) k v) d := by
  unfold Store.put
  split
  · exact Store.wf_del s d k h
  · next hv => exact Store.wf_ins _ d k v hv (Store.wf_del s d k h) (fun p hp => ((Store.mem_del s k p).1 hp).2)

/-! Memory. -/

@[simp] theorem readByte_writeByte_same (m : List Host.Cell) (a : Nat) (b : Byte) : readByte (writeByte m a b) a = b :=
  Store.get_put_same m 0 a b

theorem readByte_writeByte_other (m : List Host.Cell) (a x : Nat) (b : Byte) (h : x ≠ a) :
    readByte (writeByte m a b) x = readByte m x := Store.get_put_other m 0 a x b h

theorem wf_writeByte (m : List Host.Cell) (a : Nat) (b : Byte) (h : Memory.wf m) : Memory.wf (writeByte m a b) :=
  Store.wf_put m (fun _ => 0) a b h

/-- A write of `n` bytes leaves every address outside them. -/
theorem readByte_writeBytes_other (m : List Host.Cell) (a n v x : Nat) (h : x < a ∨ a + n ≤ x) :
    readByte (writeBytes m a n v) x = readByte m x := by
  induction n generalizing m a v with
  | zero => rfl
  | succ k ih =>
    rw [writeBytes, ih _ _ _ (by omega), readByte_writeByte_other _ _ _ _ (by omega)]

theorem wf_writeBytes (m : List Host.Cell) (a n v : Nat) (h : Memory.wf m) : Memory.wf (writeBytes m a n v) := by
  induction n generalizing m a v with
  | zero => exact h
  | succ k ih => exact ih _ _ _ (wf_writeByte m a _ h)

/-- Byte `i` of a write of `n` bytes. -/
theorem readByte_writeBytes (m : List Host.Cell) (a n v i : Nat) (h : i < n) :
    readByte (writeBytes m a n v) (a + i) = BitVec.ofNat 8 (v / 256 ^ i) := by
  induction n generalizing m a v i with
  | zero => omega
  | succ k ih =>
    cases i with
    | zero => rw [writeBytes, readByte_writeBytes_other _ _ _ _ _ (by omega)]; simp
    | succ j =>
      rw [writeBytes, show a + (j + 1) = a + 1 + j by omega, ih _ _ _ _ (by omega), Nat.div_div_eq_div_mul,
        Nat.pow_succ, Nat.mul_comm]

end Sys2Proof.Machine
end

