-- ==== Sys2Proof/Laws/Reg.lean ====
section
/-!
SUPPORT. Laws/Reg.lean: reading a register or a field after a write of the same or of another one.
-/

namespace Sys2Proof.Machine

/-! Bit fields. -/

/-- A field read after it has been set. -/
@[simp] theorem bits_setBits_same (v lo w x : Nat) : bits (setBits v lo w x) lo w = x % 2 ^ w := by
  unfold bits setBits
  have h1 : v % 2 ^ lo < 2 ^ lo := Nat.mod_lt _ (Nat.two_pow_pos lo)
  have e : v % 2 ^ lo + x % 2 ^ w * 2 ^ lo + v / 2 ^ (lo + w) * 2 ^ (lo + w)
      = v % 2 ^ lo + 2 ^ lo * (x % 2 ^ w + 2 ^ w * (v / 2 ^ (lo + w))) := by
    have a : v / 2 ^ (lo + w) * (2 ^ lo * 2 ^ w) = 2 ^ lo * (2 ^ w * (v / 2 ^ (lo + w))) := by ac_rfl
    have b : x % 2 ^ w * 2 ^ lo = 2 ^ lo * (x % 2 ^ w) := Nat.mul_comm _ _
    rw [show 2 ^ (lo + w) = 2 ^ lo * 2 ^ w from Nat.pow_add 2 lo w] at a ⊢
    rw [Nat.mul_add]
    omega
  rw [e, Nat.add_mul_div_left _ _ (Nat.two_pow_pos lo), Nat.div_eq_of_lt h1, Nat.zero_add, Nat.add_mul_mod_self_left,
    Nat.mod_mod]

/-- Bit `i` of a number with a field set. -/
theorem testBit_setBits (v lo w x i : Nat) :
    (setBits v lo w x).testBit i = if lo ≤ i ∧ i < lo + w then x.testBit (i - lo) else v.testBit i := by
  unfold setBits
  have h1 : v % 2 ^ lo < 2 ^ lo := Nat.mod_lt _ (Nat.two_pow_pos lo)
  have e : v % 2 ^ lo + x % 2 ^ w * 2 ^ lo + v / 2 ^ (lo + w) * 2 ^ (lo + w)
      = 2 ^ lo * (2 ^ w * (v / 2 ^ (lo + w)) + x % 2 ^ w) + v % 2 ^ lo := by
    have a : v / 2 ^ (lo + w) * (2 ^ lo * 2 ^ w) = 2 ^ lo * (2 ^ w * (v / 2 ^ (lo + w))) := by ac_rfl
    have b : x % 2 ^ w * 2 ^ lo = 2 ^ lo * (x % 2 ^ w) := Nat.mul_comm _ _
    rw [show 2 ^ (lo + w) = 2 ^ lo * 2 ^ w from Nat.pow_add 2 lo w] at a ⊢
    rw [Nat.mul_add]
    omega
  rw [e, Nat.testBit_two_pow_mul_add _ h1]
  have h2 : x % 2 ^ w < 2 ^ w := Nat.mod_lt _ (Nat.two_pow_pos w)
  by_cases hl : i < lo
  · have : ¬ (lo ≤ i ∧ i < lo + w) := by omega
    simp [hl, this, Nat.testBit_mod_two_pow]
  · rw [if_neg hl, Nat.testBit_two_pow_mul_add _ h2]
    by_cases hw : i - lo < w
    · have : lo ≤ i ∧ i < lo + w := by omega
      simp [hw, this, Nat.testBit_mod_two_pow]
    · have h3 : ¬ (lo ≤ i ∧ i < lo + w) := by omega
      rw [if_neg hw, if_neg h3, Nat.testBit_div_two_pow]
      congr 1; omega

theorem testBit_bits (v lo w i : Nat) : (bits v lo w).testBit i = (decide (i < w) && v.testBit (lo + i)) := by
  unfold bits
  rw [Nat.testBit_mod_two_pow, Nat.testBit_div_two_pow, Nat.add_comm i lo]

theorem bits_lt (v lo w : Nat) : bits v lo w < 2 ^ w := Nat.mod_lt _ (Nat.two_pow_pos w)

/-- A field read after another one has been set. -/
theorem bits_setBits_other (v lo w x lo' w' : Nat) (h : lo + w ≤ lo' ∨ lo' + w' ≤ lo) :
    bits (setBits v lo w x) lo' w' = bits v lo' w' := by
  apply Nat.eq_of_testBit_eq
  intro i
  rw [testBit_bits, testBit_bits, testBit_setBits]
  by_cases hi : i < w'
  · have : ¬ (lo ≤ lo' + i ∧ lo' + i < lo + w) := by omega
    rw [if_neg this]
  · simp [hi]

/-- A field inside 32 bits is kept by the storage of a word. -/
theorem bits_toNat_ofNat (v lo w : Nat) (h : lo + w ≤ 32) : bits (BitVec.ofNat 32 v).toNat lo w = bits v lo w := by
  apply Nat.eq_of_testBit_eq
  intro i
  rw [testBit_bits, testBit_bits, BitVec.toNat_ofNat, Nat.testBit_mod_two_pow]
  by_cases hi : i < w
  · have : lo + i < 32 := by omega
    simp [hi, this]
  · simp [hi]

theorem b2n_ne_zero (b : Bool) : (b2n b != 0) = b := by cases b <;> rfl
@[simp] theorem b2n_true : b2n true = 1 := rfl
@[simp] theorem b2n_false : b2n false = 0 := rfl

/-! Registers of the hub. -/

@[simp] theorem State.reg_setReg_same (s : State) (o : Nat) (v : Word) : (s.setReg o v).reg o = v :=
  Store.get_put_same _ _ _ _

theorem State.reg_setReg_other (s : State) (o p : Nat) (v : Word) (h : p ≠ o) : (s.setReg o v).reg p = s.reg p :=
  Store.get_put_key _ _ _ _ _ _ h

theorem State.reg_wr_other (s : State) (f : Fld) (v p : Nat) (h : p ≠ f.reg) : (s.wr f v).reg p = s.reg p :=
  State.reg_setReg_other _ _ _ _ h

/-- A field inside its word reads what was written, cut to its width. -/
theorem State.rd_wr_same (s : State) (f : Fld) (v : Nat) (h : f.lo + f.w ≤ 32) : (s.wr f v).rd f = v % 2 ^ f.w := by
  unfold State.rd State.wr
  rw [State.reg_setReg_same, bits_toNat_ofNat _ _ _ h, bits_setBits_same]

/-- A field of another register. -/
theorem State.rd_wr_reg (s : State) (f g : Fld) (v : Nat) (h : g.reg ≠ f.reg) : (s.wr f v).rd g = s.rd g := by
  unfold State.rd
  rw [State.reg_wr_other _ _ _ _ h]

/-- Another field of the same register. -/
theorem State.rd_wr_fld (s : State) (f g : Fld) (v : Nat) (hg : g.lo + g.w ≤ 32)
    (h : f.lo + f.w ≤ g.lo ∨ g.lo + g.w ≤ f.lo) : (s.wr f v).rd g = s.rd g := by
  by_cases e : g.reg = f.reg
  · unfold State.rd State.wr
    rw [e, State.reg_setReg_same, bits_toNat_ofNat _ _ _ hg, bits_setBits_other _ _ _ _ _ _ h]
  · exact State.rd_wr_reg s f g v e

theorem State.rdB_wrB_same (s : State) (f : Fld) (b : Bool) (h : f.lo + f.w ≤ 32) (hw : 0 < f.w) :
    (s.wrB f b).rdB f = b := by
  have h2 : b2n b < 2 ^ f.w := Nat.lt_of_lt_of_le (by cases b <;> decide) (Nat.pow_le_pow_right (by decide) hw)
  unfold State.rdB State.wrB
  rw [State.rd_wr_same _ _ _ h, Nat.mod_eq_of_lt h2, b2n_ne_zero]


/-- A write changes nothing but the registers. -/
theorem State.setReg_eq (s : State) (o : Nat) (v : Word) : s.setReg o v = { s with regs := (s.setReg o v).regs } := rfl
theorem State.wr_eq (s : State) (f : Fld) (v : Nat) : s.wr f v = { s with regs := (s.wr f v).regs } := rfl

end Sys2Proof.Machine
end

