-- ==== Sys2Proof/Laws/State.lean ====
section
/-!
SUPPORT. Laws/State.lean: for each update of the state, the fields that it leaves. True by unfolding one record update;
stated once so that no later proof unfolds one.
-/

namespace Sys2Proof.Machine

/-- Hall time passes: only the clock changes. -/
theorem State.advanceHall_eq (s : State) (h : Time) : ∃ c, s.advanceHall h = { s with clk := c } := by
  unfold State.advanceHall
  split
  · exact ⟨s.clk, rfl⟩
  · exact ⟨_, rfl⟩

/-! `State.setReg` -/
@[simp] theorem State.setReg_eff (s : State) (o : Nat) (v : Word) : (s.setReg o v).eff = s.eff := (rfl)
@[simp] theorem State.setReg_clk (s : State) (o : Nat) (v : Word) : (s.setReg o v).clk = s.clk := (rfl)
@[simp] theorem State.setReg_prb (s : State) (o : Nat) (v : Word) : (s.setReg o v).prb = s.prb := (rfl)
@[simp] theorem State.setReg_pwr (s : State) (o : Nat) (v : Word) : (s.setReg o v).pwr = s.pwr := (rfl)
@[simp] theorem State.setReg_arb (s : State) (o : Nat) (v : Word) : (s.setReg o v).arb = s.arb := (rfl)
@[simp] theorem State.setReg_flt (s : State) (o : Nat) (v : Word) : (s.setReg o v).flt = s.flt := (rfl)
@[simp] theorem State.setReg_evc (s : State) (o : Nat) (v : Word) : (s.setReg o v).evc = s.evc := (rfl)
@[simp] theorem State.setReg_recd (s : State) (o : Nat) (v : Word) : (s.setReg o v).recd = s.recd := (rfl)
@[simp] theorem State.setReg_host (s : State) (o : Nat) (v : Word) : (s.setReg o v).host = s.host := (rfl)
@[simp] theorem State.setReg_hostMem (s : State) (o : Nat) (v : Word) : (s.setReg o v).hostMem = s.hostMem := (rfl)
@[simp] theorem State.setReg_coreMem (s : State) (o : Nat) (v : Word) : (s.setReg o v).coreMem = s.coreMem := (rfl)
@[simp] theorem State.setReg_ports (s : State) (o : Nat) (v : Word) : (s.setReg o v).ports = s.ports := (rfl)
@[simp] theorem State.setReg_mi (s : State) (o : Nat) (v : Word) : (s.setReg o v).mi = s.mi := (rfl)
@[simp] theorem State.setReg_miApply (s : State) (o : Nat) (v : Word) : (s.setReg o v).miApply = s.miApply := (rfl)
@[simp] theorem State.setReg_miLog (s : State) (o : Nat) (v : Word) : (s.setReg o v).miLog = s.miLog := (rfl)
@[simp] theorem State.setReg_miHeld (s : State) (o : Nat) (v : Word) : (s.setReg o v).miHeld = s.miHeld := (rfl)
@[simp] theorem State.setReg_ace (s : State) (o : Nat) (v : Word) : (s.setReg o v).ace = s.ace := (rfl)
@[simp] theorem State.setReg_gal (s : State) (o : Nat) (v : Word) : (s.setReg o v).gal = s.gal := (rfl)
@[simp] theorem State.setReg_treads (s : State) (o : Nat) (v : Word) : (s.setReg o v).treads = s.treads := (rfl)
@[simp] theorem State.setReg_uplinks (s : State) (o : Nat) (v : Word) : (s.setReg o v).uplinks = s.uplinks := (rfl)
@[simp] theorem State.setReg_downlinks (s : State) (o : Nat) (v : Word) : (s.setReg o v).downlinks = s.downlinks := (rfl)
@[simp] theorem State.setReg_cellWin (s : State) (o : Nat) (v : Word) : (s.setReg o v).cellWin = s.cellWin := (rfl)
@[simp] theorem State.setReg_saf (s : State) (o : Nat) (v : Word) : (s.setReg o v).saf = s.saf := (rfl)
@[simp] theorem State.setReg_stk (s : State) (o : Nat) (v : Word) : (s.setReg o v).stk = s.stk := (rfl)
@[simp] theorem State.setReg_sch (s : State) (o : Nat) (v : Word) : (s.setReg o v).sch = s.sch := (rfl)
@[simp] theorem State.setReg_can (s : State) (o : Nat) (v : Word) : (s.setReg o v).can = s.can := (rfl)
@[simp] theorem State.setReg_freeCtr (s : State) (o : Nat) (v : Word) : (s.setReg o v).freeCtr = s.freeCtr := (rfl)
@[simp] theorem State.setReg_rdata (s : State) (o : Nat) (v : Word) : (s.setReg o v).rdata = s.rdata := (rfl)
@[simp] theorem State.setReg_pending (s : State) (o : Nat) (v : Word) : (s.setReg o v).pending = s.pending := (rfl)

/-! `State.wr` -/
@[simp] theorem State.wr_eff (s : State) (f : Fld) (v : Nat) : (s.wr f v).eff = s.eff := (rfl)
@[simp] theorem State.wr_clk (s : State) (f : Fld) (v : Nat) : (s.wr f v).clk = s.clk := (rfl)
@[simp] theorem State.wr_prb (s : State) (f : Fld) (v : Nat) : (s.wr f v).prb = s.prb := (rfl)
@[simp] theorem State.wr_pwr (s : State) (f : Fld) (v : Nat) : (s.wr f v).pwr = s.pwr := (rfl)
@[simp] theorem State.wr_arb (s : State) (f : Fld) (v : Nat) : (s.wr f v).arb = s.arb := (rfl)
@[simp] theorem State.wr_flt (s : State) (f : Fld) (v : Nat) : (s.wr f v).flt = s.flt := (rfl)
@[simp] theorem State.wr_evc (s : State) (f : Fld) (v : Nat) : (s.wr f v).evc = s.evc := (rfl)
@[simp] theorem State.wr_recd (s : State) (f : Fld) (v : Nat) : (s.wr f v).recd = s.recd := (rfl)
@[simp] theorem State.wr_host (s : State) (f : Fld) (v : Nat) : (s.wr f v).host = s.host := (rfl)
@[simp] theorem State.wr_hostMem (s : State) (f : Fld) (v : Nat) : (s.wr f v).hostMem = s.hostMem := (rfl)
@[simp] theorem State.wr_coreMem (s : State) (f : Fld) (v : Nat) : (s.wr f v).coreMem = s.coreMem := (rfl)
@[simp] theorem State.wr_ports (s : State) (f : Fld) (v : Nat) : (s.wr f v).ports = s.ports := (rfl)
@[simp] theorem State.wr_mi (s : State) (f : Fld) (v : Nat) : (s.wr f v).mi = s.mi := (rfl)
@[simp] theorem State.wr_miApply (s : State) (f : Fld) (v : Nat) : (s.wr f v).miApply = s.miApply := (rfl)
@[simp] theorem State.wr_miLog (s : State) (f : Fld) (v : Nat) : (s.wr f v).miLog = s.miLog := (rfl)
@[simp] theorem State.wr_miHeld (s : State) (f : Fld) (v : Nat) : (s.wr f v).miHeld = s.miHeld := (rfl)
@[simp] theorem State.wr_ace (s : State) (f : Fld) (v : Nat) : (s.wr f v).ace = s.ace := (rfl)
@[simp] theorem State.wr_gal (s : State) (f : Fld) (v : Nat) : (s.wr f v).gal = s.gal := (rfl)
@[simp] theorem State.wr_treads (s : State) (f : Fld) (v : Nat) : (s.wr f v).treads = s.treads := (rfl)
@[simp] theorem State.wr_uplinks (s : State) (f : Fld) (v : Nat) : (s.wr f v).uplinks = s.uplinks := (rfl)
@[simp] theorem State.wr_downlinks (s : State) (f : Fld) (v : Nat) : (s.wr f v).downlinks = s.downlinks := (rfl)
@[simp] theorem State.wr_cellWin (s : State) (f : Fld) (v : Nat) : (s.wr f v).cellWin = s.cellWin := (rfl)
@[simp] theorem State.wr_saf (s : State) (f : Fld) (v : Nat) : (s.wr f v).saf = s.saf := (rfl)
@[simp] theorem State.wr_stk (s : State) (f : Fld) (v : Nat) : (s.wr f v).stk = s.stk := (rfl)
@[simp] theorem State.wr_sch (s : State) (f : Fld) (v : Nat) : (s.wr f v).sch = s.sch := (rfl)
@[simp] theorem State.wr_can (s : State) (f : Fld) (v : Nat) : (s.wr f v).can = s.can := (rfl)
@[simp] theorem State.wr_freeCtr (s : State) (f : Fld) (v : Nat) : (s.wr f v).freeCtr = s.freeCtr := (rfl)
@[simp] theorem State.wr_rdata (s : State) (f : Fld) (v : Nat) : (s.wr f v).rdata = s.rdata := (rfl)
@[simp] theorem State.wr_pending (s : State) (f : Fld) (v : Nat) : (s.wr f v).pending = s.pending := (rfl)

/-! `State.wrB` -/
@[simp] theorem State.wrB_eff (s : State) (f : Fld) (b : Bool) : (s.wrB f b).eff = s.eff := (rfl)
@[simp] theorem State.wrB_clk (s : State) (f : Fld) (b : Bool) : (s.wrB f b).clk = s.clk := (rfl)
@[simp] theorem State.wrB_prb (s : State) (f : Fld) (b : Bool) : (s.wrB f b).prb = s.prb := (rfl)
@[simp] theorem State.wrB_pwr (s : State) (f : Fld) (b : Bool) : (s.wrB f b).pwr = s.pwr := (rfl)
@[simp] theorem State.wrB_arb (s : State) (f : Fld) (b : Bool) : (s.wrB f b).arb = s.arb := (rfl)
@[simp] theorem State.wrB_flt (s : State) (f : Fld) (b : Bool) : (s.wrB f b).flt = s.flt := (rfl)
@[simp] theorem State.wrB_evc (s : State) (f : Fld) (b : Bool) : (s.wrB f b).evc = s.evc := (rfl)
@[simp] theorem State.wrB_recd (s : State) (f : Fld) (b : Bool) : (s.wrB f b).recd = s.recd := (rfl)
@[simp] theorem State.wrB_host (s : State) (f : Fld) (b : Bool) : (s.wrB f b).host = s.host := (rfl)
@[simp] theorem State.wrB_hostMem (s : State) (f : Fld) (b : Bool) : (s.wrB f b).hostMem = s.hostMem := (rfl)
@[simp] theorem State.wrB_coreMem (s : State) (f : Fld) (b : Bool) : (s.wrB f b).coreMem = s.coreMem := (rfl)
@[simp] theorem State.wrB_ports (s : State) (f : Fld) (b : Bool) : (s.wrB f b).ports = s.ports := (rfl)
@[simp] theorem State.wrB_mi (s : State) (f : Fld) (b : Bool) : (s.wrB f b).mi = s.mi := (rfl)
@[simp] theorem State.wrB_miApply (s : State) (f : Fld) (b : Bool) : (s.wrB f b).miApply = s.miApply := (rfl)
@[simp] theorem State.wrB_miLog (s : State) (f : Fld) (b : Bool) : (s.wrB f b).miLog = s.miLog := (rfl)
@[simp] theorem State.wrB_miHeld (s : State) (f : Fld) (b : Bool) : (s.wrB f b).miHeld = s.miHeld := (rfl)
@[simp] theorem State.wrB_ace (s : State) (f : Fld) (b : Bool) : (s.wrB f b).ace = s.ace := (rfl)
@[simp] theorem State.wrB_gal (s : State) (f : Fld) (b : Bool) : (s.wrB f b).gal = s.gal := (rfl)
@[simp] theorem State.wrB_treads (s : State) (f : Fld) (b : Bool) : (s.wrB f b).treads = s.treads := (rfl)
@[simp] theorem State.wrB_uplinks (s : State) (f : Fld) (b : Bool) : (s.wrB f b).uplinks = s.uplinks := (rfl)
@[simp] theorem State.wrB_downlinks (s : State) (f : Fld) (b : Bool) : (s.wrB f b).downlinks = s.downlinks := (rfl)
@[simp] theorem State.wrB_cellWin (s : State) (f : Fld) (b : Bool) : (s.wrB f b).cellWin = s.cellWin := (rfl)
@[simp] theorem State.wrB_saf (s : State) (f : Fld) (b : Bool) : (s.wrB f b).saf = s.saf := (rfl)
@[simp] theorem State.wrB_stk (s : State) (f : Fld) (b : Bool) : (s.wrB f b).stk = s.stk := (rfl)
@[simp] theorem State.wrB_sch (s : State) (f : Fld) (b : Bool) : (s.wrB f b).sch = s.sch := (rfl)
@[simp] theorem State.wrB_can (s : State) (f : Fld) (b : Bool) : (s.wrB f b).can = s.can := (rfl)
@[simp] theorem State.wrB_freeCtr (s : State) (f : Fld) (b : Bool) : (s.wrB f b).freeCtr = s.freeCtr := (rfl)
@[simp] theorem State.wrB_rdata (s : State) (f : Fld) (b : Bool) : (s.wrB f b).rdata = s.rdata := (rfl)
@[simp] theorem State.wrB_pending (s : State) (f : Fld) (b : Bool) : (s.wrB f b).pending = s.pending := (rfl)

/-! `State.wrI` -/
@[simp] theorem State.wrI_eff (s : State) (f : Fld) (i : Int) : (s.wrI f i).eff = s.eff := (rfl)
@[simp] theorem State.wrI_clk (s : State) (f : Fld) (i : Int) : (s.wrI f i).clk = s.clk := (rfl)
@[simp] theorem State.wrI_prb (s : State) (f : Fld) (i : Int) : (s.wrI f i).prb = s.prb := (rfl)
@[simp] theorem State.wrI_pwr (s : State) (f : Fld) (i : Int) : (s.wrI f i).pwr = s.pwr := (rfl)
@[simp] theorem State.wrI_arb (s : State) (f : Fld) (i : Int) : (s.wrI f i).arb = s.arb := (rfl)
@[simp] theorem State.wrI_flt (s : State) (f : Fld) (i : Int) : (s.wrI f i).flt = s.flt := (rfl)
@[simp] theorem State.wrI_evc (s : State) (f : Fld) (i : Int) : (s.wrI f i).evc = s.evc := (rfl)
@[simp] theorem State.wrI_recd (s : State) (f : Fld) (i : Int) : (s.wrI f i).recd = s.recd := (rfl)
@[simp] theorem State.wrI_host (s : State) (f : Fld) (i : Int) : (s.wrI f i).host = s.host := (rfl)
@[simp] theorem State.wrI_hostMem (s : State) (f : Fld) (i : Int) : (s.wrI f i).hostMem = s.hostMem := (rfl)
@[simp] theorem State.wrI_coreMem (s : State) (f : Fld) (i : Int) : (s.wrI f i).coreMem = s.coreMem := (rfl)
@[simp] theorem State.wrI_ports (s : State) (f : Fld) (i : Int) : (s.wrI f i).ports = s.ports := (rfl)
@[simp] theorem State.wrI_mi (s : State) (f : Fld) (i : Int) : (s.wrI f i).mi = s.mi := (rfl)
@[simp] theorem State.wrI_miApply (s : State) (f : Fld) (i : Int) : (s.wrI f i).miApply = s.miApply := (rfl)
@[simp] theorem State.wrI_miLog (s : State) (f : Fld) (i : Int) : (s.wrI f i).miLog = s.miLog := (rfl)
@[simp] theorem State.wrI_miHeld (s : State) (f : Fld) (i : Int) : (s.wrI f i).miHeld = s.miHeld := (rfl)
@[simp] theorem State.wrI_ace (s : State) (f : Fld) (i : Int) : (s.wrI f i).ace = s.ace := (rfl)
@[simp] theorem State.wrI_gal (s : State) (f : Fld) (i : Int) : (s.wrI f i).gal = s.gal := (rfl)
@[simp] theorem State.wrI_treads (s : State) (f : Fld) (i : Int) : (s.wrI f i).treads = s.treads := (rfl)
@[simp] theorem State.wrI_uplinks (s : State) (f : Fld) (i : Int) : (s.wrI f i).uplinks = s.uplinks := (rfl)
@[simp] theorem State.wrI_downlinks (s : State) (f : Fld) (i : Int) : (s.wrI f i).downlinks = s.downlinks := (rfl)
@[simp] theorem State.wrI_cellWin (s : State) (f : Fld) (i : Int) : (s.wrI f i).cellWin = s.cellWin := (rfl)
@[simp] theorem State.wrI_saf (s : State) (f : Fld) (i : Int) : (s.wrI f i).saf = s.saf := (rfl)
@[simp] theorem State.wrI_stk (s : State) (f : Fld) (i : Int) : (s.wrI f i).stk = s.stk := (rfl)
@[simp] theorem State.wrI_sch (s : State) (f : Fld) (i : Int) : (s.wrI f i).sch = s.sch := (rfl)
@[simp] theorem State.wrI_can (s : State) (f : Fld) (i : Int) : (s.wrI f i).can = s.can := (rfl)
@[simp] theorem State.wrI_freeCtr (s : State) (f : Fld) (i : Int) : (s.wrI f i).freeCtr = s.freeCtr := (rfl)
@[simp] theorem State.wrI_rdata (s : State) (f : Fld) (i : Int) : (s.wrI f i).rdata = s.rdata := (rfl)
@[simp] theorem State.wrI_pending (s : State) (f : Fld) (i : Int) : (s.wrI f i).pending = s.pending := (rfl)

/-! `State.incSat` -/
@[simp] theorem State.incSat_eff (s : State) (f : Fld) (n : Nat) : (s.incSat f n).eff = s.eff := (rfl)
@[simp] theorem State.incSat_clk (s : State) (f : Fld) (n : Nat) : (s.incSat f n).clk = s.clk := (rfl)
@[simp] theorem State.incSat_prb (s : State) (f : Fld) (n : Nat) : (s.incSat f n).prb = s.prb := (rfl)
@[simp] theorem State.incSat_pwr (s : State) (f : Fld) (n : Nat) : (s.incSat f n).pwr = s.pwr := (rfl)
@[simp] theorem State.incSat_arb (s : State) (f : Fld) (n : Nat) : (s.incSat f n).arb = s.arb := (rfl)
@[simp] theorem State.incSat_flt (s : State) (f : Fld) (n : Nat) : (s.incSat f n).flt = s.flt := (rfl)
@[simp] theorem State.incSat_evc (s : State) (f : Fld) (n : Nat) : (s.incSat f n).evc = s.evc := (rfl)
@[simp] theorem State.incSat_recd (s : State) (f : Fld) (n : Nat) : (s.incSat f n).recd = s.recd := (rfl)
@[simp] theorem State.incSat_host (s : State) (f : Fld) (n : Nat) : (s.incSat f n).host = s.host := (rfl)
@[simp] theorem State.incSat_hostMem (s : State) (f : Fld) (n : Nat) : (s.incSat f n).hostMem = s.hostMem := (rfl)
@[simp] theorem State.incSat_coreMem (s : State) (f : Fld) (n : Nat) : (s.incSat f n).coreMem = s.coreMem := (rfl)
@[simp] theorem State.incSat_ports (s : State) (f : Fld) (n : Nat) : (s.incSat f n).ports = s.ports := (rfl)
@[simp] theorem State.incSat_mi (s : State) (f : Fld) (n : Nat) : (s.incSat f n).mi = s.mi := (rfl)
@[simp] theorem State.incSat_miApply (s : State) (f : Fld) (n : Nat) : (s.incSat f n).miApply = s.miApply := (rfl)
@[simp] theorem State.incSat_miLog (s : State) (f : Fld) (n : Nat) : (s.incSat f n).miLog = s.miLog := (rfl)
@[simp] theorem State.incSat_miHeld (s : State) (f : Fld) (n : Nat) : (s.incSat f n).miHeld = s.miHeld := (rfl)
@[simp] theorem State.incSat_ace (s : State) (f : Fld) (n : Nat) : (s.incSat f n).ace = s.ace := (rfl)
@[simp] theorem State.incSat_gal (s : State) (f : Fld) (n : Nat) : (s.incSat f n).gal = s.gal := (rfl)
@[simp] theorem State.incSat_treads (s : State) (f : Fld) (n : Nat) : (s.incSat f n).treads = s.treads := (rfl)
@[simp] theorem State.incSat_uplinks (s : State) (f : Fld) (n : Nat) : (s.incSat f n).uplinks = s.uplinks := (rfl)
@[simp] theorem State.incSat_downlinks (s : State) (f : Fld) (n : Nat) : (s.incSat f n).downlinks = s.downlinks := (rfl)
@[simp] theorem State.incSat_cellWin (s : State) (f : Fld) (n : Nat) : (s.incSat f n).cellWin = s.cellWin := (rfl)
@[simp] theorem State.incSat_saf (s : State) (f : Fld) (n : Nat) : (s.incSat f n).saf = s.saf := (rfl)
@[simp] theorem State.incSat_stk (s : State) (f : Fld) (n : Nat) : (s.incSat f n).stk = s.stk := (rfl)
@[simp] theorem State.incSat_sch (s : State) (f : Fld) (n : Nat) : (s.incSat f n).sch = s.sch := (rfl)
@[simp] theorem State.incSat_can (s : State) (f : Fld) (n : Nat) : (s.incSat f n).can = s.can := (rfl)
@[simp] theorem State.incSat_freeCtr (s : State) (f : Fld) (n : Nat) : (s.incSat f n).freeCtr = s.freeCtr := (rfl)
@[simp] theorem State.incSat_rdata (s : State) (f : Fld) (n : Nat) : (s.incSat f n).rdata = s.rdata := (rfl)
@[simp] theorem State.incSat_pending (s : State) (f : Fld) (n : Nat) : (s.incSat f n).pending = s.pending := (rfl)

/-! `State.incWrap` -/
@[simp] theorem State.incWrap_eff (s : State) (f : Fld) (n : Nat) : (s.incWrap f n).eff = s.eff := (rfl)
@[simp] theorem State.incWrap_clk (s : State) (f : Fld) (n : Nat) : (s.incWrap f n).clk = s.clk := (rfl)
@[simp] theorem State.incWrap_prb (s : State) (f : Fld) (n : Nat) : (s.incWrap f n).prb = s.prb := (rfl)
@[simp] theorem State.incWrap_pwr (s : State) (f : Fld) (n : Nat) : (s.incWrap f n).pwr = s.pwr := (rfl)
@[simp] theorem State.incWrap_arb (s : State) (f : Fld) (n : Nat) : (s.incWrap f n).arb = s.arb := (rfl)
@[simp] theorem State.incWrap_flt (s : State) (f : Fld) (n : Nat) : (s.incWrap f n).flt = s.flt := (rfl)
@[simp] theorem State.incWrap_evc (s : State) (f : Fld) (n : Nat) : (s.incWrap f n).evc = s.evc := (rfl)
@[simp] theorem State.incWrap_recd (s : State) (f : Fld) (n : Nat) : (s.incWrap f n).recd = s.recd := (rfl)
@[simp] theorem State.incWrap_host (s : State) (f : Fld) (n : Nat) : (s.incWrap f n).host = s.host := (rfl)
@[simp] theorem State.incWrap_hostMem (s : State) (f : Fld) (n : Nat) : (s.incWrap f n).hostMem = s.hostMem := (rfl)
@[simp] theorem State.incWrap_coreMem (s : State) (f : Fld) (n : Nat) : (s.incWrap f n).coreMem = s.coreMem := (rfl)
@[simp] theorem State.incWrap_ports (s : State) (f : Fld) (n : Nat) : (s.incWrap f n).ports = s.ports := (rfl)
@[simp] theorem State.incWrap_mi (s : State) (f : Fld) (n : Nat) : (s.incWrap f n).mi = s.mi := (rfl)
@[simp] theorem State.incWrap_miApply (s : State) (f : Fld) (n : Nat) : (s.incWrap f n).miApply = s.miApply := (rfl)
@[simp] theorem State.incWrap_miLog (s : State) (f : Fld) (n : Nat) : (s.incWrap f n).miLog = s.miLog := (rfl)
@[simp] theorem State.incWrap_miHeld (s : State) (f : Fld) (n : Nat) : (s.incWrap f n).miHeld = s.miHeld := (rfl)
@[simp] theorem State.incWrap_ace (s : State) (f : Fld) (n : Nat) : (s.incWrap f n).ace = s.ace := (rfl)
@[simp] theorem State.incWrap_gal (s : State) (f : Fld) (n : Nat) : (s.incWrap f n).gal = s.gal := (rfl)
@[simp] theorem State.incWrap_treads (s : State) (f : Fld) (n : Nat) : (s.incWrap f n).treads = s.treads := (rfl)
@[simp] theorem State.incWrap_uplinks (s : State) (f : Fld) (n : Nat) : (s.incWrap f n).uplinks = s.uplinks := (rfl)
@[simp] theorem State.incWrap_downlinks (s : State) (f : Fld) (n : Nat) : (s.incWrap f n).downlinks = s.downlinks := (rfl)
@[simp] theorem State.incWrap_cellWin (s : State) (f : Fld) (n : Nat) : (s.incWrap f n).cellWin = s.cellWin := (rfl)
@[simp] theorem State.incWrap_saf (s : State) (f : Fld) (n : Nat) : (s.incWrap f n).saf = s.saf := (rfl)
@[simp] theorem State.incWrap_stk (s : State) (f : Fld) (n : Nat) : (s.incWrap f n).stk = s.stk := (rfl)
@[simp] theorem State.incWrap_sch (s : State) (f : Fld) (n : Nat) : (s.incWrap f n).sch = s.sch := (rfl)
@[simp] theorem State.incWrap_can (s : State) (f : Fld) (n : Nat) : (s.incWrap f n).can = s.can := (rfl)
@[simp] theorem State.incWrap_freeCtr (s : State) (f : Fld) (n : Nat) : (s.incWrap f n).freeCtr = s.freeCtr := (rfl)
@[simp] theorem State.incWrap_rdata (s : State) (f : Fld) (n : Nat) : (s.incWrap f n).rdata = s.rdata := (rfl)
@[simp] theorem State.incWrap_pending (s : State) (f : Fld) (n : Nat) : (s.incWrap f n).pending = s.pending := (rfl)

/-! `State.setBit` -/
@[simp] theorem State.setBit_eff (s : State) (f : Fld) (i : Nat) (b : Bool) : (s.setBit f i b).eff = s.eff := (rfl)
@[simp] theorem State.setBit_clk (s : State) (f : Fld) (i : Nat) (b : Bool) : (s.setBit f i b).clk = s.clk := (rfl)
@[simp] theorem State.setBit_prb (s : State) (f : Fld) (i : Nat) (b : Bool) : (s.setBit f i b).prb = s.prb := (rfl)
@[simp] theorem State.setBit_pwr (s : State) (f : Fld) (i : Nat) (b : Bool) : (s.setBit f i b).pwr = s.pwr := (rfl)
@[simp] theorem State.setBit_arb (s : State) (f : Fld) (i : Nat) (b : Bool) : (s.setBit f i b).arb = s.arb := (rfl)
@[simp] theorem State.setBit_flt (s : State) (f : Fld) (i : Nat) (b : Bool) : (s.setBit f i b).flt = s.flt := (rfl)
@[simp] theorem State.setBit_evc (s : State) (f : Fld) (i : Nat) (b : Bool) : (s.setBit f i b).evc = s.evc := (rfl)
@[simp] theorem State.setBit_recd (s : State) (f : Fld) (i : Nat) (b : Bool) : (s.setBit f i b).recd = s.recd := (rfl)
@[simp] theorem State.setBit_host (s : State) (f : Fld) (i : Nat) (b : Bool) : (s.setBit f i b).host = s.host := (rfl)
@[simp] theorem State.setBit_hostMem (s : State) (f : Fld) (i : Nat) (b : Bool) : (s.setBit f i b).hostMem = s.hostMem := (rfl)
@[simp] theorem State.setBit_coreMem (s : State) (f : Fld) (i : Nat) (b : Bool) : (s.setBit f i b).coreMem = s.coreMem := (rfl)
@[simp] theorem State.setBit_ports (s : State) (f : Fld) (i : Nat) (b : Bool) : (s.setBit f i b).ports = s.ports := (rfl)
@[simp] theorem State.setBit_mi (s : State) (f : Fld) (i : Nat) (b : Bool) : (s.setBit f i b).mi = s.mi := (rfl)
@[simp] theorem State.setBit_miApply (s : State) (f : Fld) (i : Nat) (b : Bool) : (s.setBit f i b).miApply = s.miApply := (rfl)
@[simp] theorem State.setBit_miLog (s : State) (f : Fld) (i : Nat) (b : Bool) : (s.setBit f i b).miLog = s.miLog := (rfl)
@[simp] theorem State.setBit_miHeld (s : State) (f : Fld) (i : Nat) (b : Bool) : (s.setBit f i b).miHeld = s.miHeld := (rfl)
@[simp] theorem State.setBit_ace (s : State) (f : Fld) (i : Nat) (b : Bool) : (s.setBit f i b).ace = s.ace := (rfl)
@[simp] theorem State.setBit_gal (s : State) (f : Fld) (i : Nat) (b : Bool) : (s.setBit f i b).gal = s.gal := (rfl)
@[simp] theorem State.setBit_treads (s : State) (f : Fld) (i : Nat) (b : Bool) : (s.setBit f i b).treads = s.treads := (rfl)
@[simp] theorem State.setBit_uplinks (s : State) (f : Fld) (i : Nat) (b : Bool) : (s.setBit f i b).uplinks = s.uplinks := (rfl)
@[simp] theorem State.setBit_downlinks (s : State) (f : Fld) (i : Nat) (b : Bool) : (s.setBit f i b).downlinks = s.downlinks := (rfl)
@[simp] theorem State.setBit_cellWin (s : State) (f : Fld) (i : Nat) (b : Bool) : (s.setBit f i b).cellWin = s.cellWin := (rfl)
@[simp] theorem State.setBit_saf (s : State) (f : Fld) (i : Nat) (b : Bool) : (s.setBit f i b).saf = s.saf := (rfl)
@[simp] theorem State.setBit_stk (s : State) (f : Fld) (i : Nat) (b : Bool) : (s.setBit f i b).stk = s.stk := (rfl)
@[simp] theorem State.setBit_sch (s : State) (f : Fld) (i : Nat) (b : Bool) : (s.setBit f i b).sch = s.sch := (rfl)
@[simp] theorem State.setBit_can (s : State) (f : Fld) (i : Nat) (b : Bool) : (s.setBit f i b).can = s.can := (rfl)
@[simp] theorem State.setBit_freeCtr (s : State) (f : Fld) (i : Nat) (b : Bool) : (s.setBit f i b).freeCtr = s.freeCtr := (rfl)
@[simp] theorem State.setBit_rdata (s : State) (f : Fld) (i : Nat) (b : Bool) : (s.setBit f i b).rdata = s.rdata := (rfl)
@[simp] theorem State.setBit_pending (s : State) (f : Fld) (i : Nat) (b : Bool) : (s.setBit f i b).pending = s.pending := (rfl)

/-! `State.setThrState` -/
@[simp] theorem State.setThrState_eff (s : State) (t st : Nat) : (s.setThrState t st).eff = s.eff := (rfl)
@[simp] theorem State.setThrState_clk (s : State) (t st : Nat) : (s.setThrState t st).clk = s.clk := (rfl)
@[simp] theorem State.setThrState_prb (s : State) (t st : Nat) : (s.setThrState t st).prb = s.prb := (rfl)
@[simp] theorem State.setThrState_pwr (s : State) (t st : Nat) : (s.setThrState t st).pwr = s.pwr := (rfl)
@[simp] theorem State.setThrState_arb (s : State) (t st : Nat) : (s.setThrState t st).arb = s.arb := (rfl)
@[simp] theorem State.setThrState_flt (s : State) (t st : Nat) : (s.setThrState t st).flt = s.flt := (rfl)
@[simp] theorem State.setThrState_evc (s : State) (t st : Nat) : (s.setThrState t st).evc = s.evc := (rfl)
@[simp] theorem State.setThrState_recd (s : State) (t st : Nat) : (s.setThrState t st).recd = s.recd := (rfl)
@[simp] theorem State.setThrState_host (s : State) (t st : Nat) : (s.setThrState t st).host = s.host := (rfl)
@[simp] theorem State.setThrState_hostMem (s : State) (t st : Nat) : (s.setThrState t st).hostMem = s.hostMem := (rfl)
@[simp] theorem State.setThrState_coreMem (s : State) (t st : Nat) : (s.setThrState t st).coreMem = s.coreMem := (rfl)
@[simp] theorem State.setThrState_ports (s : State) (t st : Nat) : (s.setThrState t st).ports = s.ports := (rfl)
@[simp] theorem State.setThrState_mi (s : State) (t st : Nat) : (s.setThrState t st).mi = s.mi := (rfl)
@[simp] theorem State.setThrState_miApply (s : State) (t st : Nat) : (s.setThrState t st).miApply = s.miApply := (rfl)
@[simp] theorem State.setThrState_miLog (s : State) (t st : Nat) : (s.setThrState t st).miLog = s.miLog := (rfl)
@[simp] theorem State.setThrState_miHeld (s : State) (t st : Nat) : (s.setThrState t st).miHeld = s.miHeld := (rfl)
@[simp] theorem State.setThrState_ace (s : State) (t st : Nat) : (s.setThrState t st).ace = s.ace := (rfl)
@[simp] theorem State.setThrState_gal (s : State) (t st : Nat) : (s.setThrState t st).gal = s.gal := (rfl)
@[simp] theorem State.setThrState_treads (s : State) (t st : Nat) : (s.setThrState t st).treads = s.treads := (rfl)
@[simp] theorem State.setThrState_uplinks (s : State) (t st : Nat) : (s.setThrState t st).uplinks = s.uplinks := (rfl)
@[simp] theorem State.setThrState_downlinks (s : State) (t st : Nat) : (s.setThrState t st).downlinks = s.downlinks := (rfl)
@[simp] theorem State.setThrState_cellWin (s : State) (t st : Nat) : (s.setThrState t st).cellWin = s.cellWin := (rfl)
@[simp] theorem State.setThrState_saf (s : State) (t st : Nat) : (s.setThrState t st).saf = s.saf := (rfl)
@[simp] theorem State.setThrState_stk (s : State) (t st : Nat) : (s.setThrState t st).stk = s.stk := (rfl)
@[simp] theorem State.setThrState_sch (s : State) (t st : Nat) : (s.setThrState t st).sch = s.sch := (rfl)
@[simp] theorem State.setThrState_can (s : State) (t st : Nat) : (s.setThrState t st).can = s.can := (rfl)
@[simp] theorem State.setThrState_freeCtr (s : State) (t st : Nat) : (s.setThrState t st).freeCtr = s.freeCtr := (rfl)
@[simp] theorem State.setThrState_rdata (s : State) (t st : Nat) : (s.setThrState t st).rdata = s.rdata := (rfl)
@[simp] theorem State.setThrState_pending (s : State) (t st : Nat) : (s.setThrState t st).pending = s.pending := (rfl)

/-! `State.setPst` -/
@[simp] theorem State.setPst_eff (s : State) (q st : Nat) : (s.setPst q st).eff = s.eff := (rfl)
@[simp] theorem State.setPst_clk (s : State) (q st : Nat) : (s.setPst q st).clk = s.clk := (rfl)
@[simp] theorem State.setPst_prb (s : State) (q st : Nat) : (s.setPst q st).prb = s.prb := (rfl)
@[simp] theorem State.setPst_pwr (s : State) (q st : Nat) : (s.setPst q st).pwr = s.pwr := (rfl)
@[simp] theorem State.setPst_arb (s : State) (q st : Nat) : (s.setPst q st).arb = s.arb := (rfl)
@[simp] theorem State.setPst_flt (s : State) (q st : Nat) : (s.setPst q st).flt = s.flt := (rfl)
@[simp] theorem State.setPst_evc (s : State) (q st : Nat) : (s.setPst q st).evc = s.evc := (rfl)
@[simp] theorem State.setPst_recd (s : State) (q st : Nat) : (s.setPst q st).recd = s.recd := (rfl)
@[simp] theorem State.setPst_host (s : State) (q st : Nat) : (s.setPst q st).host = s.host := (rfl)
@[simp] theorem State.setPst_hostMem (s : State) (q st : Nat) : (s.setPst q st).hostMem = s.hostMem := (rfl)
@[simp] theorem State.setPst_coreMem (s : State) (q st : Nat) : (s.setPst q st).coreMem = s.coreMem := (rfl)
@[simp] theorem State.setPst_ports (s : State) (q st : Nat) : (s.setPst q st).ports = s.ports := (rfl)
@[simp] theorem State.setPst_mi (s : State) (q st : Nat) : (s.setPst q st).mi = s.mi := (rfl)
@[simp] theorem State.setPst_miApply (s : State) (q st : Nat) : (s.setPst q st).miApply = s.miApply := (rfl)
@[simp] theorem State.setPst_miLog (s : State) (q st : Nat) : (s.setPst q st).miLog = s.miLog := (rfl)
@[simp] theorem State.setPst_miHeld (s : State) (q st : Nat) : (s.setPst q st).miHeld = s.miHeld := (rfl)
@[simp] theorem State.setPst_ace (s : State) (q st : Nat) : (s.setPst q st).ace = s.ace := (rfl)
@[simp] theorem State.setPst_gal (s : State) (q st : Nat) : (s.setPst q st).gal = s.gal := (rfl)
@[simp] theorem State.setPst_treads (s : State) (q st : Nat) : (s.setPst q st).treads = s.treads := (rfl)
@[simp] theorem State.setPst_uplinks (s : State) (q st : Nat) : (s.setPst q st).uplinks = s.uplinks := (rfl)
@[simp] theorem State.setPst_downlinks (s : State) (q st : Nat) : (s.setPst q st).downlinks = s.downlinks := (rfl)
@[simp] theorem State.setPst_cellWin (s : State) (q st : Nat) : (s.setPst q st).cellWin = s.cellWin := (rfl)
@[simp] theorem State.setPst_saf (s : State) (q st : Nat) : (s.setPst q st).saf = s.saf := (rfl)
@[simp] theorem State.setPst_stk (s : State) (q st : Nat) : (s.setPst q st).stk = s.stk := (rfl)
@[simp] theorem State.setPst_sch (s : State) (q st : Nat) : (s.setPst q st).sch = s.sch := (rfl)
@[simp] theorem State.setPst_can (s : State) (q st : Nat) : (s.setPst q st).can = s.can := (rfl)
@[simp] theorem State.setPst_freeCtr (s : State) (q st : Nat) : (s.setPst q st).freeCtr = s.freeCtr := (rfl)
@[simp] theorem State.setPst_rdata (s : State) (q st : Nat) : (s.setPst q st).rdata = s.rdata := (rfl)
@[simp] theorem State.setPst_pending (s : State) (q st : Nat) : (s.setPst q st).pending = s.pending := (rfl)

/-! `State.advance` -/
@[simp] theorem State.advance_regs (s : State) (t : Time) : (s.advance t).regs = s.regs := by unfold State.advance; split <;> rfl
@[simp] theorem State.advance_eff (s : State) (t : Time) : (s.advance t).eff = s.eff := by unfold State.advance; split <;> rfl
@[simp] theorem State.advance_prb (s : State) (t : Time) : (s.advance t).prb = s.prb := by unfold State.advance; split <;> rfl
@[simp] theorem State.advance_pwr (s : State) (t : Time) : (s.advance t).pwr = s.pwr := by unfold State.advance; split <;> rfl
@[simp] theorem State.advance_arb (s : State) (t : Time) : (s.advance t).arb = s.arb := by unfold State.advance; split <;> rfl
@[simp] theorem State.advance_flt (s : State) (t : Time) : (s.advance t).flt = s.flt := by unfold State.advance; split <;> rfl
@[simp] theorem State.advance_evc (s : State) (t : Time) : (s.advance t).evc = s.evc := by unfold State.advance; split <;> rfl
@[simp] theorem State.advance_recd (s : State) (t : Time) : (s.advance t).recd = s.recd := by unfold State.advance; split <;> rfl
@[simp] theorem State.advance_host (s : State) (t : Time) : (s.advance t).host = s.host := by unfold State.advance; split <;> rfl
@[simp] theorem State.advance_hostMem (s : State) (t : Time) : (s.advance t).hostMem = s.hostMem := by unfold State.advance; split <;> rfl
@[simp] theorem State.advance_coreMem (s : State) (t : Time) : (s.advance t).coreMem = s.coreMem := by unfold State.advance; split <;> rfl
@[simp] theorem State.advance_ports (s : State) (t : Time) : (s.advance t).ports = s.ports := by unfold State.advance; split <;> rfl
@[simp] theorem State.advance_mi (s : State) (t : Time) : (s.advance t).mi = s.mi := by unfold State.advance; split <;> rfl
@[simp] theorem State.advance_miApply (s : State) (t : Time) : (s.advance t).miApply = s.miApply := by unfold State.advance; split <;> rfl
@[simp] theorem State.advance_miLog (s : State) (t : Time) : (s.advance t).miLog = s.miLog := by unfold State.advance; split <;> rfl
@[simp] theorem State.advance_miHeld (s : State) (t : Time) : (s.advance t).miHeld = s.miHeld := by unfold State.advance; split <;> rfl
@[simp] theorem State.advance_ace (s : State) (t : Time) : (s.advance t).ace = s.ace := by unfold State.advance; split <;> rfl
@[simp] theorem State.advance_gal (s : State) (t : Time) : (s.advance t).gal = s.gal := by unfold State.advance; split <;> rfl
@[simp] theorem State.advance_treads (s : State) (t : Time) : (s.advance t).treads = s.treads := by unfold State.advance; split <;> rfl
@[simp] theorem State.advance_uplinks (s : State) (t : Time) : (s.advance t).uplinks = s.uplinks := by unfold State.advance; split <;> rfl
@[simp] theorem State.advance_downlinks (s : State) (t : Time) : (s.advance t).downlinks = s.downlinks := by unfold State.advance; split <;> rfl
@[simp] theorem State.advance_cellWin (s : State) (t : Time) : (s.advance t).cellWin = s.cellWin := by unfold State.advance; split <;> rfl
@[simp] theorem State.advance_saf (s : State) (t : Time) : (s.advance t).saf = s.saf := by unfold State.advance; split <;> rfl
@[simp] theorem State.advance_stk (s : State) (t : Time) : (s.advance t).stk = s.stk := by unfold State.advance; split <;> rfl
@[simp] theorem State.advance_sch (s : State) (t : Time) : (s.advance t).sch = s.sch := by unfold State.advance; split <;> rfl
@[simp] theorem State.advance_can (s : State) (t : Time) : (s.advance t).can = s.can := by unfold State.advance; split <;> rfl
@[simp] theorem State.advance_freeCtr (s : State) (t : Time) : (s.advance t).freeCtr = s.freeCtr := by unfold State.advance; split <;> rfl
@[simp] theorem State.advance_rdata (s : State) (t : Time) : (s.advance t).rdata = s.rdata := by unfold State.advance; split <;> rfl
@[simp] theorem State.advance_pending (s : State) (t : Time) : (s.advance t).pending = s.pending := by unfold State.advance; split <;> rfl

/-! `State.advanceHall` -/
@[simp] theorem State.advanceHall_regs (s : State) (h : Time) : (s.advanceHall h).regs = s.regs := by
  obtain ⟨c, e⟩ := State.advanceHall_eq s h
  rw [e]
@[simp] theorem State.advanceHall_eff (s : State) (h : Time) : (s.advanceHall h).eff = s.eff := by
  obtain ⟨c, e⟩ := State.advanceHall_eq s h
  rw [e]
@[simp] theorem State.advanceHall_prb (s : State) (h : Time) : (s.advanceHall h).prb = s.prb := by
  obtain ⟨c, e⟩ := State.advanceHall_eq s h
  rw [e]
@[simp] theorem State.advanceHall_pwr (s : State) (h : Time) : (s.advanceHall h).pwr = s.pwr := by
  obtain ⟨c, e⟩ := State.advanceHall_eq s h
  rw [e]
@[simp] theorem State.advanceHall_arb (s : State) (h : Time) : (s.advanceHall h).arb = s.arb := by
  obtain ⟨c, e⟩ := State.advanceHall_eq s h
  rw [e]
@[simp] theorem State.advanceHall_flt (s : State) (h : Time) : (s.advanceHall h).flt = s.flt := by
  obtain ⟨c, e⟩ := State.advanceHall_eq s h
  rw [e]
@[simp] theorem State.advanceHall_evc (s : State) (h : Time) : (s.advanceHall h).evc = s.evc := by
  obtain ⟨c, e⟩ := State.advanceHall_eq s h
  rw [e]
@[simp] theorem State.advanceHall_recd (s : State) (h : Time) : (s.advanceHall h).recd = s.recd := by
  obtain ⟨c, e⟩ := State.advanceHall_eq s h
  rw [e]
@[simp] theorem State.advanceHall_host (s : State) (h : Time) : (s.advanceHall h).host = s.host := by
  obtain ⟨c, e⟩ := State.advanceHall_eq s h
  rw [e]
@[simp] theorem State.advanceHall_hostMem (s : State) (h : Time) : (s.advanceHall h).hostMem = s.hostMem := by
  obtain ⟨c, e⟩ := State.advanceHall_eq s h
  rw [e]
@[simp] theorem State.advanceHall_coreMem (s : State) (h : Time) : (s.advanceHall h).coreMem = s.coreMem := by
  obtain ⟨c, e⟩ := State.advanceHall_eq s h
  rw [e]
@[simp] theorem State.advanceHall_ports (s : State) (h : Time) : (s.advanceHall h).ports = s.ports := by
  obtain ⟨c, e⟩ := State.advanceHall_eq s h
  rw [e]
@[simp] theorem State.advanceHall_mi (s : State) (h : Time) : (s.advanceHall h).mi = s.mi := by
  obtain ⟨c, e⟩ := State.advanceHall_eq s h
  rw [e]
@[simp] theorem State.advanceHall_miApply (s : State) (h : Time) : (s.advanceHall h).miApply = s.miApply := by
  obtain ⟨c, e⟩ := State.advanceHall_eq s h
  rw [e]
@[simp] theorem State.advanceHall_miLog (s : State) (h : Time) : (s.advanceHall h).miLog = s.miLog := by
  obtain ⟨c, e⟩ := State.advanceHall_eq s h
  rw [e]
@[simp] theorem State.advanceHall_miHeld (s : State) (h : Time) : (s.advanceHall h).miHeld = s.miHeld := by
  obtain ⟨c, e⟩ := State.advanceHall_eq s h
  rw [e]
@[simp] theorem State.advanceHall_ace (s : State) (h : Time) : (s.advanceHall h).ace = s.ace := by
  obtain ⟨c, e⟩ := State.advanceHall_eq s h
  rw [e]
@[simp] theorem State.advanceHall_gal (s : State) (h : Time) : (s.advanceHall h).gal = s.gal := by
  obtain ⟨c, e⟩ := State.advanceHall_eq s h
  rw [e]
@[simp] theorem State.advanceHall_treads (s : State) (h : Time) : (s.advanceHall h).treads = s.treads := by
  obtain ⟨c, e⟩ := State.advanceHall_eq s h
  rw [e]
@[simp] theorem State.advanceHall_uplinks (s : State) (h : Time) : (s.advanceHall h).uplinks = s.uplinks := by
  obtain ⟨c, e⟩ := State.advanceHall_eq s h
  rw [e]
@[simp] theorem State.advanceHall_downlinks (s : State) (h : Time) : (s.advanceHall h).downlinks = s.downlinks := by
  obtain ⟨c, e⟩ := State.advanceHall_eq s h
  rw [e]
@[simp] theorem State.advanceHall_cellWin (s : State) (h : Time) : (s.advanceHall h).cellWin = s.cellWin := by
  obtain ⟨c, e⟩ := State.advanceHall_eq s h
  rw [e]
@[simp] theorem State.advanceHall_saf (s : State) (h : Time) : (s.advanceHall h).saf = s.saf := by
  obtain ⟨c, e⟩ := State.advanceHall_eq s h
  rw [e]
@[simp] theorem State.advanceHall_stk (s : State) (h : Time) : (s.advanceHall h).stk = s.stk := by
  obtain ⟨c, e⟩ := State.advanceHall_eq s h
  rw [e]
@[simp] theorem State.advanceHall_sch (s : State) (h : Time) : (s.advanceHall h).sch = s.sch := by
  obtain ⟨c, e⟩ := State.advanceHall_eq s h
  rw [e]
@[simp] theorem State.advanceHall_can (s : State) (h : Time) : (s.advanceHall h).can = s.can := by
  obtain ⟨c, e⟩ := State.advanceHall_eq s h
  rw [e]
@[simp] theorem State.advanceHall_freeCtr (s : State) (h : Time) : (s.advanceHall h).freeCtr = s.freeCtr := by
  obtain ⟨c, e⟩ := State.advanceHall_eq s h
  rw [e]
@[simp] theorem State.advanceHall_rdata (s : State) (h : Time) : (s.advanceHall h).rdata = s.rdata := by
  obtain ⟨c, e⟩ := State.advanceHall_eq s h
  rw [e]
@[simp] theorem State.advanceHall_pending (s : State) (h : Time) : (s.advanceHall h).pending = s.pending := by
  obtain ⟨c, e⟩ := State.advanceHall_eq s h
  rw [e]

/-! `State.count` -/
@[simp] theorem State.count_regs (s : State) (src n : Nat) : (s.count src n).regs = s.regs := by unfold State.count; split <;> rfl
@[simp] theorem State.count_eff (s : State) (src n : Nat) : (s.count src n).eff = s.eff := by unfold State.count; split <;> rfl
@[simp] theorem State.count_clk (s : State) (src n : Nat) : (s.count src n).clk = s.clk := by unfold State.count; split <;> rfl
@[simp] theorem State.count_prb (s : State) (src n : Nat) : (s.count src n).prb = s.prb := by unfold State.count; split <;> rfl
@[simp] theorem State.count_pwr (s : State) (src n : Nat) : (s.count src n).pwr = s.pwr := by unfold State.count; split <;> rfl
@[simp] theorem State.count_arb (s : State) (src n : Nat) : (s.count src n).arb = s.arb := by unfold State.count; split <;> rfl
@[simp] theorem State.count_flt (s : State) (src n : Nat) : (s.count src n).flt = s.flt := by unfold State.count; split <;> rfl
@[simp] theorem State.count_recd (s : State) (src n : Nat) : (s.count src n).recd = s.recd := by unfold State.count; split <;> rfl
@[simp] theorem State.count_host (s : State) (src n : Nat) : (s.count src n).host = s.host := by unfold State.count; split <;> rfl
@[simp] theorem State.count_hostMem (s : State) (src n : Nat) : (s.count src n).hostMem = s.hostMem := by unfold State.count; split <;> rfl
@[simp] theorem State.count_coreMem (s : State) (src n : Nat) : (s.count src n).coreMem = s.coreMem := by unfold State.count; split <;> rfl
@[simp] theorem State.count_ports (s : State) (src n : Nat) : (s.count src n).ports = s.ports := by unfold State.count; split <;> rfl
@[simp] theorem State.count_mi (s : State) (src n : Nat) : (s.count src n).mi = s.mi := by unfold State.count; split <;> rfl
@[simp] theorem State.count_miApply (s : State) (src n : Nat) : (s.count src n).miApply = s.miApply := by unfold State.count; split <;> rfl
@[simp] theorem State.count_miLog (s : State) (src n : Nat) : (s.count src n).miLog = s.miLog := by unfold State.count; split <;> rfl
@[simp] theorem State.count_miHeld (s : State) (src n : Nat) : (s.count src n).miHeld = s.miHeld := by unfold State.count; split <;> rfl
@[simp] theorem State.count_ace (s : State) (src n : Nat) : (s.count src n).ace = s.ace := by unfold State.count; split <;> rfl
@[simp] theorem State.count_gal (s : State) (src n : Nat) : (s.count src n).gal = s.gal := by unfold State.count; split <;> rfl
@[simp] theorem State.count_treads (s : State) (src n : Nat) : (s.count src n).treads = s.treads := by unfold State.count; split <;> rfl
@[simp] theorem State.count_uplinks (s : State) (src n : Nat) : (s.count src n).uplinks = s.uplinks := by unfold State.count; split <;> rfl
@[simp] theorem State.count_downlinks (s : State) (src n : Nat) : (s.count src n).downlinks = s.downlinks := by unfold State.count; split <;> rfl
@[simp] theorem State.count_cellWin (s : State) (src n : Nat) : (s.count src n).cellWin = s.cellWin := by unfold State.count; split <;> rfl
@[simp] theorem State.count_saf (s : State) (src n : Nat) : (s.count src n).saf = s.saf := by unfold State.count; split <;> rfl
@[simp] theorem State.count_stk (s : State) (src n : Nat) : (s.count src n).stk = s.stk := by unfold State.count; split <;> rfl
@[simp] theorem State.count_sch (s : State) (src n : Nat) : (s.count src n).sch = s.sch := by unfold State.count; split <;> rfl
@[simp] theorem State.count_can (s : State) (src n : Nat) : (s.count src n).can = s.can := by unfold State.count; split <;> rfl
@[simp] theorem State.count_freeCtr (s : State) (src n : Nat) : (s.count src n).freeCtr = s.freeCtr := by unfold State.count; split <;> rfl
@[simp] theorem State.count_rdata (s : State) (src n : Nat) : (s.count src n).rdata = s.rdata := by unfold State.count; split <;> rfl
@[simp] theorem State.count_pending (s : State) (src n : Nat) : (s.count src n).pending = s.pending := by unfold State.count; split <;> rfl

/-! `State.tick` -/
@[simp] theorem State.tick_regs (s : State) : (s.tick).regs = s.regs := (rfl)
@[simp] theorem State.tick_eff (s : State) : (s.tick).eff = s.eff := (rfl)
@[simp] theorem State.tick_clk (s : State) : (s.tick).clk = s.clk := (rfl)
@[simp] theorem State.tick_prb (s : State) : (s.tick).prb = s.prb := (rfl)
@[simp] theorem State.tick_pwr (s : State) : (s.tick).pwr = s.pwr := (rfl)
@[simp] theorem State.tick_arb (s : State) : (s.tick).arb = s.arb := (rfl)
@[simp] theorem State.tick_flt (s : State) : (s.tick).flt = s.flt := (rfl)
@[simp] theorem State.tick_evc (s : State) : (s.tick).evc = s.evc := (rfl)
@[simp] theorem State.tick_recd (s : State) : (s.tick).recd = s.recd := (rfl)
@[simp] theorem State.tick_host (s : State) : (s.tick).host = s.host := (rfl)
@[simp] theorem State.tick_hostMem (s : State) : (s.tick).hostMem = s.hostMem := (rfl)
@[simp] theorem State.tick_coreMem (s : State) : (s.tick).coreMem = s.coreMem := (rfl)
@[simp] theorem State.tick_ports (s : State) : (s.tick).ports = s.ports := (rfl)
@[simp] theorem State.tick_mi (s : State) : (s.tick).mi = s.mi := (rfl)
@[simp] theorem State.tick_miApply (s : State) : (s.tick).miApply = s.miApply := (rfl)
@[simp] theorem State.tick_miLog (s : State) : (s.tick).miLog = s.miLog := (rfl)
@[simp] theorem State.tick_miHeld (s : State) : (s.tick).miHeld = s.miHeld := (rfl)
@[simp] theorem State.tick_ace (s : State) : (s.tick).ace = s.ace := (rfl)
@[simp] theorem State.tick_gal (s : State) : (s.tick).gal = s.gal := (rfl)
@[simp] theorem State.tick_treads (s : State) : (s.tick).treads = s.treads := (rfl)
@[simp] theorem State.tick_uplinks (s : State) : (s.tick).uplinks = s.uplinks := (rfl)
@[simp] theorem State.tick_downlinks (s : State) : (s.tick).downlinks = s.downlinks := (rfl)
@[simp] theorem State.tick_cellWin (s : State) : (s.tick).cellWin = s.cellWin := (rfl)
@[simp] theorem State.tick_saf (s : State) : (s.tick).saf = s.saf := (rfl)
@[simp] theorem State.tick_stk (s : State) : (s.tick).stk = s.stk := (rfl)
@[simp] theorem State.tick_sch (s : State) : (s.tick).sch = s.sch := (rfl)
@[simp] theorem State.tick_can (s : State) : (s.tick).can = s.can := (rfl)
@[simp] theorem State.tick_rdata (s : State) : (s.tick).rdata = s.rdata := (rfl)
@[simp] theorem State.tick_pending (s : State) : (s.tick).pending = s.pending := (rfl)

/-! `State.setWaiting` -/
@[simp] theorem State.setWaiting_regs (s : State) (res : Nat) (l : List WaitReq) : (s.setWaiting res l).regs = s.regs := (rfl)
@[simp] theorem State.setWaiting_eff (s : State) (res : Nat) (l : List WaitReq) : (s.setWaiting res l).eff = s.eff := (rfl)
@[simp] theorem State.setWaiting_clk (s : State) (res : Nat) (l : List WaitReq) : (s.setWaiting res l).clk = s.clk := (rfl)
@[simp] theorem State.setWaiting_prb (s : State) (res : Nat) (l : List WaitReq) : (s.setWaiting res l).prb = s.prb := (rfl)
@[simp] theorem State.setWaiting_pwr (s : State) (res : Nat) (l : List WaitReq) : (s.setWaiting res l).pwr = s.pwr := (rfl)
@[simp] theorem State.setWaiting_flt (s : State) (res : Nat) (l : List WaitReq) : (s.setWaiting res l).flt = s.flt := (rfl)
@[simp] theorem State.setWaiting_evc (s : State) (res : Nat) (l : List WaitReq) : (s.setWaiting res l).evc = s.evc := (rfl)
@[simp] theorem State.setWaiting_recd (s : State) (res : Nat) (l : List WaitReq) : (s.setWaiting res l).recd = s.recd := (rfl)
@[simp] theorem State.setWaiting_host (s : State) (res : Nat) (l : List WaitReq) : (s.setWaiting res l).host = s.host := (rfl)
@[simp] theorem State.setWaiting_hostMem (s : State) (res : Nat) (l : List WaitReq) : (s.setWaiting res l).hostMem = s.hostMem := (rfl)
@[simp] theorem State.setWaiting_coreMem (s : State) (res : Nat) (l : List WaitReq) : (s.setWaiting res l).coreMem = s.coreMem := (rfl)
@[simp] theorem State.setWaiting_ports (s : State) (res : Nat) (l : List WaitReq) : (s.setWaiting res l).ports = s.ports := (rfl)
@[simp] theorem State.setWaiting_mi (s : State) (res : Nat) (l : List WaitReq) : (s.setWaiting res l).mi = s.mi := (rfl)
@[simp] theorem State.setWaiting_miApply (s : State) (res : Nat) (l : List WaitReq) : (s.setWaiting res l).miApply = s.miApply := (rfl)
@[simp] theorem State.setWaiting_miLog (s : State) (res : Nat) (l : List WaitReq) : (s.setWaiting res l).miLog = s.miLog := (rfl)
@[simp] theorem State.setWaiting_miHeld (s : State) (res : Nat) (l : List WaitReq) : (s.setWaiting res l).miHeld = s.miHeld := (rfl)
@[simp] theorem State.setWaiting_ace (s : State) (res : Nat) (l : List WaitReq) : (s.setWaiting res l).ace = s.ace := (rfl)
@[simp] theorem State.setWaiting_gal (s : State) (res : Nat) (l : List WaitReq) : (s.setWaiting res l).gal = s.gal := (rfl)
@[simp] theorem State.setWaiting_treads (s : State) (res : Nat) (l : List WaitReq) : (s.setWaiting res l).treads = s.treads := (rfl)
@[simp] theorem State.setWaiting_uplinks (s : State) (res : Nat) (l : List WaitReq) : (s.setWaiting res l).uplinks = s.uplinks := (rfl)
@[simp] theorem State.setWaiting_downlinks (s : State) (res : Nat) (l : List WaitReq) : (s.setWaiting res l).downlinks = s.downlinks := (rfl)
@[simp] theorem State.setWaiting_cellWin (s : State) (res : Nat) (l : List WaitReq) : (s.setWaiting res l).cellWin = s.cellWin := (rfl)
@[simp] theorem State.setWaiting_saf (s : State) (res : Nat) (l : List WaitReq) : (s.setWaiting res l).saf = s.saf := (rfl)
@[simp] theorem State.setWaiting_stk (s : State) (res : Nat) (l : List WaitReq) : (s.setWaiting res l).stk = s.stk := (rfl)
@[simp] theorem State.setWaiting_sch (s : State) (res : Nat) (l : List WaitReq) : (s.setWaiting res l).sch = s.sch := (rfl)
@[simp] theorem State.setWaiting_can (s : State) (res : Nat) (l : List WaitReq) : (s.setWaiting res l).can = s.can := (rfl)
@[simp] theorem State.setWaiting_freeCtr (s : State) (res : Nat) (l : List WaitReq) : (s.setWaiting res l).freeCtr = s.freeCtr := (rfl)
@[simp] theorem State.setWaiting_rdata (s : State) (res : Nat) (l : List WaitReq) : (s.setWaiting res l).rdata = s.rdata := (rfl)
@[simp] theorem State.setWaiting_pending (s : State) (res : Nat) (l : List WaitReq) : (s.setWaiting res l).pending = s.pending := (rfl)

/-! `State.setPort` -/
@[simp] theorem State.setPort_regs (s : State) (r : Nat) (p : Port) : (s.setPort r p).regs = s.regs := (rfl)
@[simp] theorem State.setPort_eff (s : State) (r : Nat) (p : Port) : (s.setPort r p).eff = s.eff := (rfl)
@[simp] theorem State.setPort_clk (s : State) (r : Nat) (p : Port) : (s.setPort r p).clk = s.clk := (rfl)
@[simp] theorem State.setPort_prb (s : State) (r : Nat) (p : Port) : (s.setPort r p).prb = s.prb := (rfl)
@[simp] theorem State.setPort_pwr (s : State) (r : Nat) (p : Port) : (s.setPort r p).pwr = s.pwr := (rfl)
@[simp] theorem State.setPort_arb (s : State) (r : Nat) (p : Port) : (s.setPort r p).arb = s.arb := (rfl)
@[simp] theorem State.setPort_flt (s : State) (r : Nat) (p : Port) : (s.setPort r p).flt = s.flt := (rfl)
@[simp] theorem State.setPort_evc (s : State) (r : Nat) (p : Port) : (s.setPort r p).evc = s.evc := (rfl)
@[simp] theorem State.setPort_recd (s : State) (r : Nat) (p : Port) : (s.setPort r p).recd = s.recd := (rfl)
@[simp] theorem State.setPort_host (s : State) (r : Nat) (p : Port) : (s.setPort r p).host = s.host := (rfl)
@[simp] theorem State.setPort_hostMem (s : State) (r : Nat) (p : Port) : (s.setPort r p).hostMem = s.hostMem := (rfl)
@[simp] theorem State.setPort_coreMem (s : State) (r : Nat) (p : Port) : (s.setPort r p).coreMem = s.coreMem := (rfl)
@[simp] theorem State.setPort_mi (s : State) (r : Nat) (p : Port) : (s.setPort r p).mi = s.mi := (rfl)
@[simp] theorem State.setPort_miApply (s : State) (r : Nat) (p : Port) : (s.setPort r p).miApply = s.miApply := (rfl)
@[simp] theorem State.setPort_miLog (s : State) (r : Nat) (p : Port) : (s.setPort r p).miLog = s.miLog := (rfl)
@[simp] theorem State.setPort_miHeld (s : State) (r : Nat) (p : Port) : (s.setPort r p).miHeld = s.miHeld := (rfl)
@[simp] theorem State.setPort_ace (s : State) (r : Nat) (p : Port) : (s.setPort r p).ace = s.ace := (rfl)
@[simp] theorem State.setPort_gal (s : State) (r : Nat) (p : Port) : (s.setPort r p).gal = s.gal := (rfl)
@[simp] theorem State.setPort_treads (s : State) (r : Nat) (p : Port) : (s.setPort r p).treads = s.treads := (rfl)
@[simp] theorem State.setPort_uplinks (s : State) (r : Nat) (p : Port) : (s.setPort r p).uplinks = s.uplinks := (rfl)
@[simp] theorem State.setPort_downlinks (s : State) (r : Nat) (p : Port) : (s.setPort r p).downlinks = s.downlinks := (rfl)
@[simp] theorem State.setPort_cellWin (s : State) (r : Nat) (p : Port) : (s.setPort r p).cellWin = s.cellWin := (rfl)
@[simp] theorem State.setPort_saf (s : State) (r : Nat) (p : Port) : (s.setPort r p).saf = s.saf := (rfl)
@[simp] theorem State.setPort_stk (s : State) (r : Nat) (p : Port) : (s.setPort r p).stk = s.stk := (rfl)
@[simp] theorem State.setPort_sch (s : State) (r : Nat) (p : Port) : (s.setPort r p).sch = s.sch := (rfl)
@[simp] theorem State.setPort_can (s : State) (r : Nat) (p : Port) : (s.setPort r p).can = s.can := (rfl)
@[simp] theorem State.setPort_freeCtr (s : State) (r : Nat) (p : Port) : (s.setPort r p).freeCtr = s.freeCtr := (rfl)
@[simp] theorem State.setPort_rdata (s : State) (r : Nat) (p : Port) : (s.setPort r p).rdata = s.rdata := (rfl)
@[simp] theorem State.setPort_pending (s : State) (r : Nat) (p : Port) : (s.setPort r p).pending = s.pending := (rfl)

/-! `State.updPort` -/
@[simp] theorem State.updPort_regs (s : State) (r : Nat) (f : Port → Port) : (s.updPort r f).regs = s.regs := (rfl)
@[simp] theorem State.updPort_eff (s : State) (r : Nat) (f : Port → Port) : (s.updPort r f).eff = s.eff := (rfl)
@[simp] theorem State.updPort_clk (s : State) (r : Nat) (f : Port → Port) : (s.updPort r f).clk = s.clk := (rfl)
@[simp] theorem State.updPort_prb (s : State) (r : Nat) (f : Port → Port) : (s.updPort r f).prb = s.prb := (rfl)
@[simp] theorem State.updPort_pwr (s : State) (r : Nat) (f : Port → Port) : (s.updPort r f).pwr = s.pwr := (rfl)
@[simp] theorem State.updPort_arb (s : State) (r : Nat) (f : Port → Port) : (s.updPort r f).arb = s.arb := (rfl)
@[simp] theorem State.updPort_flt (s : State) (r : Nat) (f : Port → Port) : (s.updPort r f).flt = s.flt := (rfl)
@[simp] theorem State.updPort_evc (s : State) (r : Nat) (f : Port → Port) : (s.updPort r f).evc = s.evc := (rfl)
@[simp] theorem State.updPort_recd (s : State) (r : Nat) (f : Port → Port) : (s.updPort r f).recd = s.recd := (rfl)
@[simp] theorem State.updPort_host (s : State) (r : Nat) (f : Port → Port) : (s.updPort r f).host = s.host := (rfl)
@[simp] theorem State.updPort_hostMem (s : State) (r : Nat) (f : Port → Port) : (s.updPort r f).hostMem = s.hostMem := (rfl)
@[simp] theorem State.updPort_coreMem (s : State) (r : Nat) (f : Port → Port) : (s.updPort r f).coreMem = s.coreMem := (rfl)
@[simp] theorem State.updPort_mi (s : State) (r : Nat) (f : Port → Port) : (s.updPort r f).mi = s.mi := (rfl)
@[simp] theorem State.updPort_miApply (s : State) (r : Nat) (f : Port → Port) : (s.updPort r f).miApply = s.miApply := (rfl)
@[simp] theorem State.updPort_miLog (s : State) (r : Nat) (f : Port → Port) : (s.updPort r f).miLog = s.miLog := (rfl)
@[simp] theorem State.updPort_miHeld (s : State) (r : Nat) (f : Port → Port) : (s.updPort r f).miHeld = s.miHeld := (rfl)
@[simp] theorem State.updPort_ace (s : State) (r : Nat) (f : Port → Port) : (s.updPort r f).ace = s.ace := (rfl)
@[simp] theorem State.updPort_gal (s : State) (r : Nat) (f : Port → Port) : (s.updPort r f).gal = s.gal := (rfl)
@[simp] theorem State.updPort_treads (s : State) (r : Nat) (f : Port → Port) : (s.updPort r f).treads = s.treads := (rfl)
@[simp] theorem State.updPort_uplinks (s : State) (r : Nat) (f : Port → Port) : (s.updPort r f).uplinks = s.uplinks := (rfl)
@[simp] theorem State.updPort_downlinks (s : State) (r : Nat) (f : Port → Port) : (s.updPort r f).downlinks = s.downlinks := (rfl)
@[simp] theorem State.updPort_cellWin (s : State) (r : Nat) (f : Port → Port) : (s.updPort r f).cellWin = s.cellWin := (rfl)
@[simp] theorem State.updPort_saf (s : State) (r : Nat) (f : Port → Port) : (s.updPort r f).saf = s.saf := (rfl)
@[simp] theorem State.updPort_stk (s : State) (r : Nat) (f : Port → Port) : (s.updPort r f).stk = s.stk := (rfl)
@[simp] theorem State.updPort_sch (s : State) (r : Nat) (f : Port → Port) : (s.updPort r f).sch = s.sch := (rfl)
@[simp] theorem State.updPort_can (s : State) (r : Nat) (f : Port → Port) : (s.updPort r f).can = s.can := (rfl)
@[simp] theorem State.updPort_freeCtr (s : State) (r : Nat) (f : Port → Port) : (s.updPort r f).freeCtr = s.freeCtr := (rfl)
@[simp] theorem State.updPort_rdata (s : State) (r : Nat) (f : Port → Port) : (s.updPort r f).rdata = s.rdata := (rfl)
@[simp] theorem State.updPort_pending (s : State) (r : Nat) (f : Port → Port) : (s.updPort r f).pending = s.pending := (rfl)

/-! `State.setHring` -/
@[simp] theorem State.setHring_regs (s : State) (n : Nat) (h : HostRing) : (s.setHring n h).regs = s.regs := (rfl)
@[simp] theorem State.setHring_eff (s : State) (n : Nat) (h : HostRing) : (s.setHring n h).eff = s.eff := (rfl)
@[simp] theorem State.setHring_clk (s : State) (n : Nat) (h : HostRing) : (s.setHring n h).clk = s.clk := (rfl)
@[simp] theorem State.setHring_prb (s : State) (n : Nat) (h : HostRing) : (s.setHring n h).prb = s.prb := (rfl)
@[simp] theorem State.setHring_pwr (s : State) (n : Nat) (h : HostRing) : (s.setHring n h).pwr = s.pwr := (rfl)
@[simp] theorem State.setHring_arb (s : State) (n : Nat) (h : HostRing) : (s.setHring n h).arb = s.arb := (rfl)
@[simp] theorem State.setHring_flt (s : State) (n : Nat) (h : HostRing) : (s.setHring n h).flt = s.flt := (rfl)
@[simp] theorem State.setHring_evc (s : State) (n : Nat) (h : HostRing) : (s.setHring n h).evc = s.evc := (rfl)
@[simp] theorem State.setHring_recd (s : State) (n : Nat) (h : HostRing) : (s.setHring n h).recd = s.recd := (rfl)
@[simp] theorem State.setHring_hostMem (s : State) (n : Nat) (h : HostRing) : (s.setHring n h).hostMem = s.hostMem := (rfl)
@[simp] theorem State.setHring_coreMem (s : State) (n : Nat) (h : HostRing) : (s.setHring n h).coreMem = s.coreMem := (rfl)
@[simp] theorem State.setHring_ports (s : State) (n : Nat) (h : HostRing) : (s.setHring n h).ports = s.ports := (rfl)
@[simp] theorem State.setHring_mi (s : State) (n : Nat) (h : HostRing) : (s.setHring n h).mi = s.mi := (rfl)
@[simp] theorem State.setHring_miApply (s : State) (n : Nat) (h : HostRing) : (s.setHring n h).miApply = s.miApply := (rfl)
@[simp] theorem State.setHring_miLog (s : State) (n : Nat) (h : HostRing) : (s.setHring n h).miLog = s.miLog := (rfl)
@[simp] theorem State.setHring_miHeld (s : State) (n : Nat) (h : HostRing) : (s.setHring n h).miHeld = s.miHeld := (rfl)
@[simp] theorem State.setHring_ace (s : State) (n : Nat) (h : HostRing) : (s.setHring n h).ace = s.ace := (rfl)
@[simp] theorem State.setHring_gal (s : State) (n : Nat) (h : HostRing) : (s.setHring n h).gal = s.gal := (rfl)
@[simp] theorem State.setHring_treads (s : State) (n : Nat) (h : HostRing) : (s.setHring n h).treads = s.treads := (rfl)
@[simp] theorem State.setHring_uplinks (s : State) (n : Nat) (h : HostRing) : (s.setHring n h).uplinks = s.uplinks := (rfl)
@[simp] theorem State.setHring_downlinks (s : State) (n : Nat) (h : HostRing) : (s.setHring n h).downlinks = s.downlinks := (rfl)
@[simp] theorem State.setHring_cellWin (s : State) (n : Nat) (h : HostRing) : (s.setHring n h).cellWin = s.cellWin := (rfl)
@[simp] theorem State.setHring_saf (s : State) (n : Nat) (h : HostRing) : (s.setHring n h).saf = s.saf := (rfl)
@[simp] theorem State.setHring_stk (s : State) (n : Nat) (h : HostRing) : (s.setHring n h).stk = s.stk := (rfl)
@[simp] theorem State.setHring_sch (s : State) (n : Nat) (h : HostRing) : (s.setHring n h).sch = s.sch := (rfl)
@[simp] theorem State.setHring_can (s : State) (n : Nat) (h : HostRing) : (s.setHring n h).can = s.can := (rfl)
@[simp] theorem State.setHring_freeCtr (s : State) (n : Nat) (h : HostRing) : (s.setHring n h).freeCtr = s.freeCtr := (rfl)
@[simp] theorem State.setHring_rdata (s : State) (n : Nat) (h : HostRing) : (s.setHring n h).rdata = s.rdata := (rfl)
@[simp] theorem State.setHring_pending (s : State) (n : Nat) (h : HostRing) : (s.setHring n h).pending = s.pending := (rfl)

/-! `State.updHring` -/
@[simp] theorem State.updHring_regs (s : State) (n : Nat) (f : HostRing → HostRing) : (s.updHring n f).regs = s.regs := (rfl)
@[simp] theorem State.updHring_eff (s : State) (n : Nat) (f : HostRing → HostRing) : (s.updHring n f).eff = s.eff := (rfl)
@[simp] theorem State.updHring_clk (s : State) (n : Nat) (f : HostRing → HostRing) : (s.updHring n f).clk = s.clk := (rfl)
@[simp] theorem State.updHring_prb (s : State) (n : Nat) (f : HostRing → HostRing) : (s.updHring n f).prb = s.prb := (rfl)
@[simp] theorem State.updHring_pwr (s : State) (n : Nat) (f : HostRing → HostRing) : (s.updHring n f).pwr = s.pwr := (rfl)
@[simp] theorem State.updHring_arb (s : State) (n : Nat) (f : HostRing → HostRing) : (s.updHring n f).arb = s.arb := (rfl)
@[simp] theorem State.updHring_flt (s : State) (n : Nat) (f : HostRing → HostRing) : (s.updHring n f).flt = s.flt := (rfl)
@[simp] theorem State.updHring_evc (s : State) (n : Nat) (f : HostRing → HostRing) : (s.updHring n f).evc = s.evc := (rfl)
@[simp] theorem State.updHring_recd (s : State) (n : Nat) (f : HostRing → HostRing) : (s.updHring n f).recd = s.recd := (rfl)
@[simp] theorem State.updHring_hostMem (s : State) (n : Nat) (f : HostRing → HostRing) : (s.updHring n f).hostMem = s.hostMem := (rfl)
@[simp] theorem State.updHring_coreMem (s : State) (n : Nat) (f : HostRing → HostRing) : (s.updHring n f).coreMem = s.coreMem := (rfl)
@[simp] theorem State.updHring_ports (s : State) (n : Nat) (f : HostRing → HostRing) : (s.updHring n f).ports = s.ports := (rfl)
@[simp] theorem State.updHring_mi (s : State) (n : Nat) (f : HostRing → HostRing) : (s.updHring n f).mi = s.mi := (rfl)
@[simp] theorem State.updHring_miApply (s : State) (n : Nat) (f : HostRing → HostRing) : (s.updHring n f).miApply = s.miApply := (rfl)
@[simp] theorem State.updHring_miLog (s : State) (n : Nat) (f : HostRing → HostRing) : (s.updHring n f).miLog = s.miLog := (rfl)
@[simp] theorem State.updHring_miHeld (s : State) (n : Nat) (f : HostRing → HostRing) : (s.updHring n f).miHeld = s.miHeld := (rfl)
@[simp] theorem State.updHring_ace (s : State) (n : Nat) (f : HostRing → HostRing) : (s.updHring n f).ace = s.ace := (rfl)
@[simp] theorem State.updHring_gal (s : State) (n : Nat) (f : HostRing → HostRing) : (s.updHring n f).gal = s.gal := (rfl)
@[simp] theorem State.updHring_treads (s : State) (n : Nat) (f : HostRing → HostRing) : (s.updHring n f).treads = s.treads := (rfl)
@[simp] theorem State.updHring_uplinks (s : State) (n : Nat) (f : HostRing → HostRing) : (s.updHring n f).uplinks = s.uplinks := (rfl)
@[simp] theorem State.updHring_downlinks (s : State) (n : Nat) (f : HostRing → HostRing) : (s.updHring n f).downlinks = s.downlinks := (rfl)
@[simp] theorem State.updHring_cellWin (s : State) (n : Nat) (f : HostRing → HostRing) : (s.updHring n f).cellWin = s.cellWin := (rfl)
@[simp] theorem State.updHring_saf (s : State) (n : Nat) (f : HostRing → HostRing) : (s.updHring n f).saf = s.saf := (rfl)
@[simp] theorem State.updHring_stk (s : State) (n : Nat) (f : HostRing → HostRing) : (s.updHring n f).stk = s.stk := (rfl)
@[simp] theorem State.updHring_sch (s : State) (n : Nat) (f : HostRing → HostRing) : (s.updHring n f).sch = s.sch := (rfl)
@[simp] theorem State.updHring_can (s : State) (n : Nat) (f : HostRing → HostRing) : (s.updHring n f).can = s.can := (rfl)
@[simp] theorem State.updHring_freeCtr (s : State) (n : Nat) (f : HostRing → HostRing) : (s.updHring n f).freeCtr = s.freeCtr := (rfl)
@[simp] theorem State.updHring_rdata (s : State) (n : Nat) (f : HostRing → HostRing) : (s.updHring n f).rdata = s.rdata := (rfl)
@[simp] theorem State.updHring_pending (s : State) (n : Nat) (f : HostRing → HostRing) : (s.updHring n f).pending = s.pending := (rfl)

/-! `State.setIq` -/
@[simp] theorem State.setIq_regs (s : State) (q : Nat) (x : IQueue) : (s.setIq q x).regs = s.regs := (rfl)
@[simp] theorem State.setIq_eff (s : State) (q : Nat) (x : IQueue) : (s.setIq q x).eff = s.eff := (rfl)
@[simp] theorem State.setIq_clk (s : State) (q : Nat) (x : IQueue) : (s.setIq q x).clk = s.clk := (rfl)
@[simp] theorem State.setIq_prb (s : State) (q : Nat) (x : IQueue) : (s.setIq q x).prb = s.prb := (rfl)
@[simp] theorem State.setIq_pwr (s : State) (q : Nat) (x : IQueue) : (s.setIq q x).pwr = s.pwr := (rfl)
@[simp] theorem State.setIq_arb (s : State) (q : Nat) (x : IQueue) : (s.setIq q x).arb = s.arb := (rfl)
@[simp] theorem State.setIq_evc (s : State) (q : Nat) (x : IQueue) : (s.setIq q x).evc = s.evc := (rfl)
@[simp] theorem State.setIq_recd (s : State) (q : Nat) (x : IQueue) : (s.setIq q x).recd = s.recd := (rfl)
@[simp] theorem State.setIq_host (s : State) (q : Nat) (x : IQueue) : (s.setIq q x).host = s.host := (rfl)
@[simp] theorem State.setIq_hostMem (s : State) (q : Nat) (x : IQueue) : (s.setIq q x).hostMem = s.hostMem := (rfl)
@[simp] theorem State.setIq_coreMem (s : State) (q : Nat) (x : IQueue) : (s.setIq q x).coreMem = s.coreMem := (rfl)
@[simp] theorem State.setIq_ports (s : State) (q : Nat) (x : IQueue) : (s.setIq q x).ports = s.ports := (rfl)
@[simp] theorem State.setIq_mi (s : State) (q : Nat) (x : IQueue) : (s.setIq q x).mi = s.mi := (rfl)
@[simp] theorem State.setIq_miApply (s : State) (q : Nat) (x : IQueue) : (s.setIq q x).miApply = s.miApply := (rfl)
@[simp] theorem State.setIq_miLog (s : State) (q : Nat) (x : IQueue) : (s.setIq q x).miLog = s.miLog := (rfl)
@[simp] theorem State.setIq_miHeld (s : State) (q : Nat) (x : IQueue) : (s.setIq q x).miHeld = s.miHeld := (rfl)
@[simp] theorem State.setIq_ace (s : State) (q : Nat) (x : IQueue) : (s.setIq q x).ace = s.ace := (rfl)
@[simp] theorem State.setIq_gal (s : State) (q : Nat) (x : IQueue) : (s.setIq q x).gal = s.gal := (rfl)
@[simp] theorem State.setIq_treads (s : State) (q : Nat) (x : IQueue) : (s.setIq q x).treads = s.treads := (rfl)
@[simp] theorem State.setIq_uplinks (s : State) (q : Nat) (x : IQueue) : (s.setIq q x).uplinks = s.uplinks := (rfl)
@[simp] theorem State.setIq_downlinks (s : State) (q : Nat) (x : IQueue) : (s.setIq q x).downlinks = s.downlinks := (rfl)
@[simp] theorem State.setIq_cellWin (s : State) (q : Nat) (x : IQueue) : (s.setIq q x).cellWin = s.cellWin := (rfl)
@[simp] theorem State.setIq_saf (s : State) (q : Nat) (x : IQueue) : (s.setIq q x).saf = s.saf := (rfl)
@[simp] theorem State.setIq_stk (s : State) (q : Nat) (x : IQueue) : (s.setIq q x).stk = s.stk := (rfl)
@[simp] theorem State.setIq_sch (s : State) (q : Nat) (x : IQueue) : (s.setIq q x).sch = s.sch := (rfl)
@[simp] theorem State.setIq_can (s : State) (q : Nat) (x : IQueue) : (s.setIq q x).can = s.can := (rfl)
@[simp] theorem State.setIq_freeCtr (s : State) (q : Nat) (x : IQueue) : (s.setIq q x).freeCtr = s.freeCtr := (rfl)
@[simp] theorem State.setIq_rdata (s : State) (q : Nat) (x : IQueue) : (s.setIq q x).rdata = s.rdata := (rfl)
@[simp] theorem State.setIq_pending (s : State) (q : Nat) (x : IQueue) : (s.setIq q x).pending = s.pending := (rfl)

/-! `State.setThr` -/
@[simp] theorem State.setThr_regs (s : State) (t : Nat) (x : Thr) : (s.setThr t x).regs = s.regs := (rfl)
@[simp] theorem State.setThr_eff (s : State) (t : Nat) (x : Thr) : (s.setThr t x).eff = s.eff := (rfl)
@[simp] theorem State.setThr_clk (s : State) (t : Nat) (x : Thr) : (s.setThr t x).clk = s.clk := (rfl)
@[simp] theorem State.setThr_prb (s : State) (t : Nat) (x : Thr) : (s.setThr t x).prb = s.prb := (rfl)
@[simp] theorem State.setThr_pwr (s : State) (t : Nat) (x : Thr) : (s.setThr t x).pwr = s.pwr := (rfl)
@[simp] theorem State.setThr_arb (s : State) (t : Nat) (x : Thr) : (s.setThr t x).arb = s.arb := (rfl)
@[simp] theorem State.setThr_flt (s : State) (t : Nat) (x : Thr) : (s.setThr t x).flt = s.flt := (rfl)
@[simp] theorem State.setThr_evc (s : State) (t : Nat) (x : Thr) : (s.setThr t x).evc = s.evc := (rfl)
@[simp] theorem State.setThr_recd (s : State) (t : Nat) (x : Thr) : (s.setThr t x).recd = s.recd := (rfl)
@[simp] theorem State.setThr_host (s : State) (t : Nat) (x : Thr) : (s.setThr t x).host = s.host := (rfl)
@[simp] theorem State.setThr_hostMem (s : State) (t : Nat) (x : Thr) : (s.setThr t x).hostMem = s.hostMem := (rfl)
@[simp] theorem State.setThr_coreMem (s : State) (t : Nat) (x : Thr) : (s.setThr t x).coreMem = s.coreMem := (rfl)
@[simp] theorem State.setThr_ports (s : State) (t : Nat) (x : Thr) : (s.setThr t x).ports = s.ports := (rfl)
@[simp] theorem State.setThr_mi (s : State) (t : Nat) (x : Thr) : (s.setThr t x).mi = s.mi := (rfl)
@[simp] theorem State.setThr_miApply (s : State) (t : Nat) (x : Thr) : (s.setThr t x).miApply = s.miApply := (rfl)
@[simp] theorem State.setThr_miLog (s : State) (t : Nat) (x : Thr) : (s.setThr t x).miLog = s.miLog := (rfl)
@[simp] theorem State.setThr_miHeld (s : State) (t : Nat) (x : Thr) : (s.setThr t x).miHeld = s.miHeld := (rfl)
@[simp] theorem State.setThr_ace (s : State) (t : Nat) (x : Thr) : (s.setThr t x).ace = s.ace := (rfl)
@[simp] theorem State.setThr_gal (s : State) (t : Nat) (x : Thr) : (s.setThr t x).gal = s.gal := (rfl)
@[simp] theorem State.setThr_treads (s : State) (t : Nat) (x : Thr) : (s.setThr t x).treads = s.treads := (rfl)
@[simp] theorem State.setThr_uplinks (s : State) (t : Nat) (x : Thr) : (s.setThr t x).uplinks = s.uplinks := (rfl)
@[simp] theorem State.setThr_downlinks (s : State) (t : Nat) (x : Thr) : (s.setThr t x).downlinks = s.downlinks := (rfl)
@[simp] theorem State.setThr_cellWin (s : State) (t : Nat) (x : Thr) : (s.setThr t x).cellWin = s.cellWin := (rfl)
@[simp] theorem State.setThr_saf (s : State) (t : Nat) (x : Thr) : (s.setThr t x).saf = s.saf := (rfl)
@[simp] theorem State.setThr_stk (s : State) (t : Nat) (x : Thr) : (s.setThr t x).stk = s.stk := (rfl)
@[simp] theorem State.setThr_can (s : State) (t : Nat) (x : Thr) : (s.setThr t x).can = s.can := (rfl)
@[simp] theorem State.setThr_freeCtr (s : State) (t : Nat) (x : Thr) : (s.setThr t x).freeCtr = s.freeCtr := (rfl)
@[simp] theorem State.setThr_rdata (s : State) (t : Nat) (x : Thr) : (s.setThr t x).rdata = s.rdata := (rfl)
@[simp] theorem State.setThr_pending (s : State) (t : Nat) (x : Thr) : (s.setThr t x).pending = s.pending := (rfl)

/-! `State.setTread` -/
@[simp] theorem State.setTread_regs (s : State) (i : Nat) (d : Tread) : (s.setTread i d).regs = s.regs := (rfl)
@[simp] theorem State.setTread_eff (s : State) (i : Nat) (d : Tread) : (s.setTread i d).eff = s.eff := (rfl)
@[simp] theorem State.setTread_clk (s : State) (i : Nat) (d : Tread) : (s.setTread i d).clk = s.clk := (rfl)
@[simp] theorem State.setTread_prb (s : State) (i : Nat) (d : Tread) : (s.setTread i d).prb = s.prb := (rfl)
@[simp] theorem State.setTread_pwr (s : State) (i : Nat) (d : Tread) : (s.setTread i d).pwr = s.pwr := (rfl)
@[simp] theorem State.setTread_arb (s : State) (i : Nat) (d : Tread) : (s.setTread i d).arb = s.arb := (rfl)
@[simp] theorem State.setTread_flt (s : State) (i : Nat) (d : Tread) : (s.setTread i d).flt = s.flt := (rfl)
@[simp] theorem State.setTread_evc (s : State) (i : Nat) (d : Tread) : (s.setTread i d).evc = s.evc := (rfl)
@[simp] theorem State.setTread_recd (s : State) (i : Nat) (d : Tread) : (s.setTread i d).recd = s.recd := (rfl)
@[simp] theorem State.setTread_host (s : State) (i : Nat) (d : Tread) : (s.setTread i d).host = s.host := (rfl)
@[simp] theorem State.setTread_hostMem (s : State) (i : Nat) (d : Tread) : (s.setTread i d).hostMem = s.hostMem := (rfl)
@[simp] theorem State.setTread_coreMem (s : State) (i : Nat) (d : Tread) : (s.setTread i d).coreMem = s.coreMem := (rfl)
@[simp] theorem State.setTread_ports (s : State) (i : Nat) (d : Tread) : (s.setTread i d).ports = s.ports := (rfl)
@[simp] theorem State.setTread_mi (s : State) (i : Nat) (d : Tread) : (s.setTread i d).mi = s.mi := (rfl)
@[simp] theorem State.setTread_miApply (s : State) (i : Nat) (d : Tread) : (s.setTread i d).miApply = s.miApply := (rfl)
@[simp] theorem State.setTread_miLog (s : State) (i : Nat) (d : Tread) : (s.setTread i d).miLog = s.miLog := (rfl)
@[simp] theorem State.setTread_miHeld (s : State) (i : Nat) (d : Tread) : (s.setTread i d).miHeld = s.miHeld := (rfl)
@[simp] theorem State.setTread_ace (s : State) (i : Nat) (d : Tread) : (s.setTread i d).ace = s.ace := (rfl)
@[simp] theorem State.setTread_gal (s : State) (i : Nat) (d : Tread) : (s.setTread i d).gal = s.gal := (rfl)
@[simp] theorem State.setTread_uplinks (s : State) (i : Nat) (d : Tread) : (s.setTread i d).uplinks = s.uplinks := (rfl)
@[simp] theorem State.setTread_downlinks (s : State) (i : Nat) (d : Tread) : (s.setTread i d).downlinks = s.downlinks := (rfl)
@[simp] theorem State.setTread_cellWin (s : State) (i : Nat) (d : Tread) : (s.setTread i d).cellWin = s.cellWin := (rfl)
@[simp] theorem State.setTread_saf (s : State) (i : Nat) (d : Tread) : (s.setTread i d).saf = s.saf := (rfl)
@[simp] theorem State.setTread_stk (s : State) (i : Nat) (d : Tread) : (s.setTread i d).stk = s.stk := (rfl)
@[simp] theorem State.setTread_sch (s : State) (i : Nat) (d : Tread) : (s.setTread i d).sch = s.sch := (rfl)
@[simp] theorem State.setTread_can (s : State) (i : Nat) (d : Tread) : (s.setTread i d).can = s.can := (rfl)
@[simp] theorem State.setTread_freeCtr (s : State) (i : Nat) (d : Tread) : (s.setTread i d).freeCtr = s.freeCtr := (rfl)
@[simp] theorem State.setTread_rdata (s : State) (i : Nat) (d : Tread) : (s.setTread i d).rdata = s.rdata := (rfl)
@[simp] theorem State.setTread_pending (s : State) (i : Nat) (d : Tread) : (s.setTread i d).pending = s.pending := (rfl)

/-! `State.updTread` -/
@[simp] theorem State.updTread_regs (s : State) (i : Nat) (f : Tread → Tread) : (s.updTread i f).regs = s.regs := (rfl)
@[simp] theorem State.updTread_eff (s : State) (i : Nat) (f : Tread → Tread) : (s.updTread i f).eff = s.eff := (rfl)
@[simp] theorem State.updTread_clk (s : State) (i : Nat) (f : Tread → Tread) : (s.updTread i f).clk = s.clk := (rfl)
@[simp] theorem State.updTread_prb (s : State) (i : Nat) (f : Tread → Tread) : (s.updTread i f).prb = s.prb := (rfl)
@[simp] theorem State.updTread_pwr (s : State) (i : Nat) (f : Tread → Tread) : (s.updTread i f).pwr = s.pwr := (rfl)
@[simp] theorem State.updTread_arb (s : State) (i : Nat) (f : Tread → Tread) : (s.updTread i f).arb = s.arb := (rfl)
@[simp] theorem State.updTread_flt (s : State) (i : Nat) (f : Tread → Tread) : (s.updTread i f).flt = s.flt := (rfl)
@[simp] theorem State.updTread_evc (s : State) (i : Nat) (f : Tread → Tread) : (s.updTread i f).evc = s.evc := (rfl)
@[simp] theorem State.updTread_recd (s : State) (i : Nat) (f : Tread → Tread) : (s.updTread i f).recd = s.recd := (rfl)
@[simp] theorem State.updTread_host (s : State) (i : Nat) (f : Tread → Tread) : (s.updTread i f).host = s.host := (rfl)
@[simp] theorem State.updTread_hostMem (s : State) (i : Nat) (f : Tread → Tread) : (s.updTread i f).hostMem = s.hostMem := (rfl)
@[simp] theorem State.updTread_coreMem (s : State) (i : Nat) (f : Tread → Tread) : (s.updTread i f).coreMem = s.coreMem := (rfl)
@[simp] theorem State.updTread_ports (s : State) (i : Nat) (f : Tread → Tread) : (s.updTread i f).ports = s.ports := (rfl)
@[simp] theorem State.updTread_mi (s : State) (i : Nat) (f : Tread → Tread) : (s.updTread i f).mi = s.mi := (rfl)
@[simp] theorem State.updTread_miApply (s : State) (i : Nat) (f : Tread → Tread) : (s.updTread i f).miApply = s.miApply := (rfl)
@[simp] theorem State.updTread_miLog (s : State) (i : Nat) (f : Tread → Tread) : (s.updTread i f).miLog = s.miLog := (rfl)
@[simp] theorem State.updTread_miHeld (s : State) (i : Nat) (f : Tread → Tread) : (s.updTread i f).miHeld = s.miHeld := (rfl)
@[simp] theorem State.updTread_ace (s : State) (i : Nat) (f : Tread → Tread) : (s.updTread i f).ace = s.ace := (rfl)
@[simp] theorem State.updTread_gal (s : State) (i : Nat) (f : Tread → Tread) : (s.updTread i f).gal = s.gal := (rfl)
@[simp] theorem State.updTread_uplinks (s : State) (i : Nat) (f : Tread → Tread) : (s.updTread i f).uplinks = s.uplinks := (rfl)
@[simp] theorem State.updTread_downlinks (s : State) (i : Nat) (f : Tread → Tread) : (s.updTread i f).downlinks = s.downlinks := (rfl)
@[simp] theorem State.updTread_cellWin (s : State) (i : Nat) (f : Tread → Tread) : (s.updTread i f).cellWin = s.cellWin := (rfl)
@[simp] theorem State.updTread_saf (s : State) (i : Nat) (f : Tread → Tread) : (s.updTread i f).saf = s.saf := (rfl)
@[simp] theorem State.updTread_stk (s : State) (i : Nat) (f : Tread → Tread) : (s.updTread i f).stk = s.stk := (rfl)
@[simp] theorem State.updTread_sch (s : State) (i : Nat) (f : Tread → Tread) : (s.updTread i f).sch = s.sch := (rfl)
@[simp] theorem State.updTread_can (s : State) (i : Nat) (f : Tread → Tread) : (s.updTread i f).can = s.can := (rfl)
@[simp] theorem State.updTread_freeCtr (s : State) (i : Nat) (f : Tread → Tread) : (s.updTread i f).freeCtr = s.freeCtr := (rfl)
@[simp] theorem State.updTread_rdata (s : State) (i : Nat) (f : Tread → Tread) : (s.updTread i f).rdata = s.rdata := (rfl)
@[simp] theorem State.updTread_pending (s : State) (i : Nat) (f : Tread → Tread) : (s.updTread i f).pending = s.pending := (rfl)

/-! `State.setCan` -/
@[simp] theorem State.setCan_regs (s : State) (n : Nat) (c : CanSt) : (s.setCan n c).regs = s.regs := (rfl)
@[simp] theorem State.setCan_eff (s : State) (n : Nat) (c : CanSt) : (s.setCan n c).eff = s.eff := (rfl)
@[simp] theorem State.setCan_clk (s : State) (n : Nat) (c : CanSt) : (s.setCan n c).clk = s.clk := (rfl)
@[simp] theorem State.setCan_prb (s : State) (n : Nat) (c : CanSt) : (s.setCan n c).prb = s.prb := (rfl)
@[simp] theorem State.setCan_pwr (s : State) (n : Nat) (c : CanSt) : (s.setCan n c).pwr = s.pwr := (rfl)
@[simp] theorem State.setCan_arb (s : State) (n : Nat) (c : CanSt) : (s.setCan n c).arb = s.arb := (rfl)
@[simp] theorem State.setCan_flt (s : State) (n : Nat) (c : CanSt) : (s.setCan n c).flt = s.flt := (rfl)
@[simp] theorem State.setCan_evc (s : State) (n : Nat) (c : CanSt) : (s.setCan n c).evc = s.evc := (rfl)
@[simp] theorem State.setCan_recd (s : State) (n : Nat) (c : CanSt) : (s.setCan n c).recd = s.recd := (rfl)
@[simp] theorem State.setCan_host (s : State) (n : Nat) (c : CanSt) : (s.setCan n c).host = s.host := (rfl)
@[simp] theorem State.setCan_hostMem (s : State) (n : Nat) (c : CanSt) : (s.setCan n c).hostMem = s.hostMem := (rfl)
@[simp] theorem State.setCan_coreMem (s : State) (n : Nat) (c : CanSt) : (s.setCan n c).coreMem = s.coreMem := (rfl)
@[simp] theorem State.setCan_ports (s : State) (n : Nat) (c : CanSt) : (s.setCan n c).ports = s.ports := (rfl)
@[simp] theorem State.setCan_mi (s : State) (n : Nat) (c : CanSt) : (s.setCan n c).mi = s.mi := (rfl)
@[simp] theorem State.setCan_miApply (s : State) (n : Nat) (c : CanSt) : (s.setCan n c).miApply = s.miApply := (rfl)
@[simp] theorem State.setCan_miLog (s : State) (n : Nat) (c : CanSt) : (s.setCan n c).miLog = s.miLog := (rfl)
@[simp] theorem State.setCan_miHeld (s : State) (n : Nat) (c : CanSt) : (s.setCan n c).miHeld = s.miHeld := (rfl)
@[simp] theorem State.setCan_ace (s : State) (n : Nat) (c : CanSt) : (s.setCan n c).ace = s.ace := (rfl)
@[simp] theorem State.setCan_gal (s : State) (n : Nat) (c : CanSt) : (s.setCan n c).gal = s.gal := (rfl)
@[simp] theorem State.setCan_treads (s : State) (n : Nat) (c : CanSt) : (s.setCan n c).treads = s.treads := (rfl)
@[simp] theorem State.setCan_uplinks (s : State) (n : Nat) (c : CanSt) : (s.setCan n c).uplinks = s.uplinks := (rfl)
@[simp] theorem State.setCan_downlinks (s : State) (n : Nat) (c : CanSt) : (s.setCan n c).downlinks = s.downlinks := (rfl)
@[simp] theorem State.setCan_cellWin (s : State) (n : Nat) (c : CanSt) : (s.setCan n c).cellWin = s.cellWin := (rfl)
@[simp] theorem State.setCan_saf (s : State) (n : Nat) (c : CanSt) : (s.setCan n c).saf = s.saf := (rfl)
@[simp] theorem State.setCan_stk (s : State) (n : Nat) (c : CanSt) : (s.setCan n c).stk = s.stk := (rfl)
@[simp] theorem State.setCan_sch (s : State) (n : Nat) (c : CanSt) : (s.setCan n c).sch = s.sch := (rfl)
@[simp] theorem State.setCan_freeCtr (s : State) (n : Nat) (c : CanSt) : (s.setCan n c).freeCtr = s.freeCtr := (rfl)
@[simp] theorem State.setCan_rdata (s : State) (n : Nat) (c : CanSt) : (s.setCan n c).rdata = s.rdata := (rfl)
@[simp] theorem State.setCan_pending (s : State) (n : Nat) (c : CanSt) : (s.setCan n c).pending = s.pending := (rfl)

/-! `State.setChan` -/
@[simp] theorem State.setChan_regs (s : State) (c : Nat) (m : MiChan) : (s.setChan c m).regs = s.regs := (rfl)
@[simp] theorem State.setChan_eff (s : State) (c : Nat) (m : MiChan) : (s.setChan c m).eff = s.eff := (rfl)
@[simp] theorem State.setChan_clk (s : State) (c : Nat) (m : MiChan) : (s.setChan c m).clk = s.clk := (rfl)
@[simp] theorem State.setChan_prb (s : State) (c : Nat) (m : MiChan) : (s.setChan c m).prb = s.prb := (rfl)
@[simp] theorem State.setChan_pwr (s : State) (c : Nat) (m : MiChan) : (s.setChan c m).pwr = s.pwr := (rfl)
@[simp] theorem State.setChan_arb (s : State) (c : Nat) (m : MiChan) : (s.setChan c m).arb = s.arb := (rfl)
@[simp] theorem State.setChan_flt (s : State) (c : Nat) (m : MiChan) : (s.setChan c m).flt = s.flt := (rfl)
@[simp] theorem State.setChan_evc (s : State) (c : Nat) (m : MiChan) : (s.setChan c m).evc = s.evc := (rfl)
@[simp] theorem State.setChan_recd (s : State) (c : Nat) (m : MiChan) : (s.setChan c m).recd = s.recd := (rfl)
@[simp] theorem State.setChan_host (s : State) (c : Nat) (m : MiChan) : (s.setChan c m).host = s.host := (rfl)
@[simp] theorem State.setChan_hostMem (s : State) (c : Nat) (m : MiChan) : (s.setChan c m).hostMem = s.hostMem := (rfl)
@[simp] theorem State.setChan_coreMem (s : State) (c : Nat) (m : MiChan) : (s.setChan c m).coreMem = s.coreMem := (rfl)
@[simp] theorem State.setChan_ports (s : State) (c : Nat) (m : MiChan) : (s.setChan c m).ports = s.ports := (rfl)
@[simp] theorem State.setChan_miApply (s : State) (c : Nat) (m : MiChan) : (s.setChan c m).miApply = s.miApply := (rfl)
@[simp] theorem State.setChan_miLog (s : State) (c : Nat) (m : MiChan) : (s.setChan c m).miLog = s.miLog := (rfl)
@[simp] theorem State.setChan_miHeld (s : State) (c : Nat) (m : MiChan) : (s.setChan c m).miHeld = s.miHeld := (rfl)
@[simp] theorem State.setChan_ace (s : State) (c : Nat) (m : MiChan) : (s.setChan c m).ace = s.ace := (rfl)
@[simp] theorem State.setChan_gal (s : State) (c : Nat) (m : MiChan) : (s.setChan c m).gal = s.gal := (rfl)
@[simp] theorem State.setChan_treads (s : State) (c : Nat) (m : MiChan) : (s.setChan c m).treads = s.treads := (rfl)
@[simp] theorem State.setChan_uplinks (s : State) (c : Nat) (m : MiChan) : (s.setChan c m).uplinks = s.uplinks := (rfl)
@[simp] theorem State.setChan_downlinks (s : State) (c : Nat) (m : MiChan) : (s.setChan c m).downlinks = s.downlinks := (rfl)
@[simp] theorem State.setChan_cellWin (s : State) (c : Nat) (m : MiChan) : (s.setChan c m).cellWin = s.cellWin := (rfl)
@[simp] theorem State.setChan_saf (s : State) (c : Nat) (m : MiChan) : (s.setChan c m).saf = s.saf := (rfl)
@[simp] theorem State.setChan_stk (s : State) (c : Nat) (m : MiChan) : (s.setChan c m).stk = s.stk := (rfl)
@[simp] theorem State.setChan_sch (s : State) (c : Nat) (m : MiChan) : (s.setChan c m).sch = s.sch := (rfl)
@[simp] theorem State.setChan_can (s : State) (c : Nat) (m : MiChan) : (s.setChan c m).can = s.can := (rfl)
@[simp] theorem State.setChan_freeCtr (s : State) (c : Nat) (m : MiChan) : (s.setChan c m).freeCtr = s.freeCtr := (rfl)
@[simp] theorem State.setChan_rdata (s : State) (c : Nat) (m : MiChan) : (s.setChan c m).rdata = s.rdata := (rfl)
@[simp] theorem State.setChan_pending (s : State) (c : Nat) (m : MiChan) : (s.setChan c m).pending = s.pending := (rfl)

/-! Reading back what a field of the state was given. -/
@[simp] theorem State.tread_updTread_same (s : State) (i : Nat) (f : Tread → Tread) :
    (s.updTread i f).tread i = f (s.tread i) := Store.get_put_same _ _ _ _
@[simp] theorem State.tread_setTread_same (s : State) (i : Nat) (d : Tread) : (s.setTread i d).tread i = d :=
  Store.get_put_same _ _ _ _
theorem State.tread_updTread_other (s : State) (i j : Nat) (f : Tread → Tread) (h : j ≠ i) :
    (s.updTread i f).tread j = s.tread j := Store.get_put_other _ _ _ _ _ h
theorem State.tread_setTread_other (s : State) (i j : Nat) (d : Tread) (h : j ≠ i) :
    (s.setTread i d).tread j = s.tread j := Store.get_put_other _ _ _ _ _ h
@[simp] theorem State.port_setPort_same (s : State) (r : Nat) (p : Port) : (s.setPort r p).port r = p :=
  Store.get_put_same _ _ _ _
theorem State.port_setPort_other (s : State) (r q : Nat) (p : Port) (h : q ≠ r) : (s.setPort r p).port q = s.port q :=
  Store.get_put_other _ _ _ _ _ h
@[simp] theorem State.port_updPort_same (s : State) (r : Nat) (f : Port → Port) : (s.updPort r f).port r = f (s.port r) :=
  Store.get_put_same _ _ _ _
theorem State.port_updPort_other (s : State) (r q : Nat) (f : Port → Port) (h : q ≠ r) :
    (s.updPort r f).port q = s.port q := Store.get_put_other _ _ _ _ _ h
@[simp] theorem State.hring_setHring_same (s : State) (n : Nat) (h : HostRing) : (s.setHring n h).hring n = h :=
  Store.get_put_same _ _ _ _
@[simp] theorem State.iq_setIq_same (s : State) (q : Nat) (x : IQueue) : (s.setIq q x).iq q = x :=
  Store.get_put_same _ _ _ _
theorem State.iq_setIq_other (s : State) (q p : Nat) (x : IQueue) (h : p ≠ q) : (s.setIq q x).iq p = s.iq p :=
  Store.get_put_other _ _ _ _ _ h
@[simp] theorem State.canSt_setCan_same (s : State) (n : Nat) (c : CanSt) : (s.setCan n c).canSt n = c :=
  Store.get_put_same _ _ _ _
@[simp] theorem State.chan_setChan_same (s : State) (c : Nat) (m : MiChan) : (s.setChan c m).chan c = m :=
  Store.get_put_same _ _ _ _
@[simp] theorem State.waiting_setWaiting_same (s : State) (r : Nat) (l : List WaitReq) : (s.setWaiting r l).waiting r = l :=
  Store.get_put_same _ _ _ _

/-! A read of a register through an update that leaves the registers. -/
@[simp] theorem State.reg_advance (s : State) (t : Time) (o' : Nat) : (s.advance t).reg o' = s.reg o' := by simp [State.reg]
@[simp] theorem State.rd_advance (s : State) (t : Time) (f' : Fld) : (s.advance t).rd f' = s.rd f' := by simp [State.rd]
@[simp] theorem State.rdB_advance (s : State) (t : Time) (f' : Fld) : (s.advance t).rdB f' = s.rdB f' := by simp [State.rdB]
@[simp] theorem State.reg_advanceHall (s : State) (h : Time) (o' : Nat) : (s.advanceHall h).reg o' = s.reg o' := by simp [State.reg]
@[simp] theorem State.rd_advanceHall (s : State) (h : Time) (f' : Fld) : (s.advanceHall h).rd f' = s.rd f' := by simp [State.rd]
@[simp] theorem State.rdB_advanceHall (s : State) (h : Time) (f' : Fld) : (s.advanceHall h).rdB f' = s.rdB f' := by simp [State.rdB]
@[simp] theorem State.reg_count (s : State) (src n : Nat) (o' : Nat) : (s.count src n).reg o' = s.reg o' := by simp [State.reg]
@[simp] theorem State.rd_count (s : State) (src n : Nat) (f' : Fld) : (s.count src n).rd f' = s.rd f' := by simp [State.rd]
@[simp] theorem State.rdB_count (s : State) (src n : Nat) (f' : Fld) : (s.count src n).rdB f' = s.rdB f' := by simp [State.rdB]
@[simp] theorem State.reg_tick (s : State) (o' : Nat) : (s.tick).reg o' = s.reg o' := by simp [State.reg]
@[simp] theorem State.rd_tick (s : State) (f' : Fld) : (s.tick).rd f' = s.rd f' := by simp [State.rd]
@[simp] theorem State.rdB_tick (s : State) (f' : Fld) : (s.tick).rdB f' = s.rdB f' := by simp [State.rdB]
@[simp] theorem State.reg_setWaiting (s : State) (res : Nat) (l : List WaitReq) (o' : Nat) : (s.setWaiting res l).reg o' = s.reg o' := by simp [State.reg]
@[simp] theorem State.rd_setWaiting (s : State) (res : Nat) (l : List WaitReq) (f' : Fld) : (s.setWaiting res l).rd f' = s.rd f' := by simp [State.rd]
@[simp] theorem State.rdB_setWaiting (s : State) (res : Nat) (l : List WaitReq) (f' : Fld) : (s.setWaiting res l).rdB f' = s.rdB f' := by simp [State.rdB]
@[simp] theorem State.reg_setPort (s : State) (r : Nat) (p : Port) (o' : Nat) : (s.setPort r p).reg o' = s.reg o' := by simp [State.reg]
@[simp] theorem State.rd_setPort (s : State) (r : Nat) (p : Port) (f' : Fld) : (s.setPort r p).rd f' = s.rd f' := by simp [State.rd]
@[simp] theorem State.rdB_setPort (s : State) (r : Nat) (p : Port) (f' : Fld) : (s.setPort r p).rdB f' = s.rdB f' := by simp [State.rdB]
@[simp] theorem State.reg_updPort (s : State) (r : Nat) (f : Port → Port) (o' : Nat) : (s.updPort r f).reg o' = s.reg o' := by simp [State.reg]
@[simp] theorem State.rd_updPort (s : State) (r : Nat) (f : Port → Port) (f' : Fld) : (s.updPort r f).rd f' = s.rd f' := by simp [State.rd]
@[simp] theorem State.rdB_updPort (s : State) (r : Nat) (f : Port → Port) (f' : Fld) : (s.updPort r f).rdB f' = s.rdB f' := by simp [State.rdB]
@[simp] theorem State.reg_setHring (s : State) (n : Nat) (h : HostRing) (o' : Nat) : (s.setHring n h).reg o' = s.reg o' := by simp [State.reg]
@[simp] theorem State.rd_setHring (s : State) (n : Nat) (h : HostRing) (f' : Fld) : (s.setHring n h).rd f' = s.rd f' := by simp [State.rd]
@[simp] theorem State.rdB_setHring (s : State) (n : Nat) (h : HostRing) (f' : Fld) : (s.setHring n h).rdB f' = s.rdB f' := by simp [State.rdB]
@[simp] theorem State.reg_updHring (s : State) (n : Nat) (f : HostRing → HostRing) (o' : Nat) : (s.updHring n f).reg o' = s.reg o' := by simp [State.reg]
@[simp] theorem State.rd_updHring (s : State) (n : Nat) (f : HostRing → HostRing) (f' : Fld) : (s.updHring n f).rd f' = s.rd f' := by simp [State.rd]
@[simp] theorem State.rdB_updHring (s : State) (n : Nat) (f : HostRing → HostRing) (f' : Fld) : (s.updHring n f).rdB f' = s.rdB f' := by simp [State.rdB]
@[simp] theorem State.reg_setIq (s : State) (q : Nat) (x : IQueue) (o' : Nat) : (s.setIq q x).reg o' = s.reg o' := by simp [State.reg]
@[simp] theorem State.rd_setIq (s : State) (q : Nat) (x : IQueue) (f' : Fld) : (s.setIq q x).rd f' = s.rd f' := by simp [State.rd]
@[simp] theorem State.rdB_setIq (s : State) (q : Nat) (x : IQueue) (f' : Fld) : (s.setIq q x).rdB f' = s.rdB f' := by simp [State.rdB]
@[simp] theorem State.reg_setThr (s : State) (t : Nat) (x : Thr) (o' : Nat) : (s.setThr t x).reg o' = s.reg o' := by simp [State.reg]
@[simp] theorem State.rd_setThr (s : State) (t : Nat) (x : Thr) (f' : Fld) : (s.setThr t x).rd f' = s.rd f' := by simp [State.rd]
@[simp] theorem State.rdB_setThr (s : State) (t : Nat) (x : Thr) (f' : Fld) : (s.setThr t x).rdB f' = s.rdB f' := by simp [State.rdB]
@[simp] theorem State.reg_setTread (s : State) (i : Nat) (d : Tread) (o' : Nat) : (s.setTread i d).reg o' = s.reg o' := by simp [State.reg]
@[simp] theorem State.rd_setTread (s : State) (i : Nat) (d : Tread) (f' : Fld) : (s.setTread i d).rd f' = s.rd f' := by simp [State.rd]
@[simp] theorem State.rdB_setTread (s : State) (i : Nat) (d : Tread) (f' : Fld) : (s.setTread i d).rdB f' = s.rdB f' := by simp [State.rdB]
@[simp] theorem State.reg_updTread (s : State) (i : Nat) (f : Tread → Tread) (o' : Nat) : (s.updTread i f).reg o' = s.reg o' := by simp [State.reg]
@[simp] theorem State.rd_updTread (s : State) (i : Nat) (f : Tread → Tread) (f' : Fld) : (s.updTread i f).rd f' = s.rd f' := by simp [State.rd]
@[simp] theorem State.rdB_updTread (s : State) (i : Nat) (f : Tread → Tread) (f' : Fld) : (s.updTread i f).rdB f' = s.rdB f' := by simp [State.rdB]
@[simp] theorem State.reg_setCan (s : State) (n : Nat) (c : CanSt) (o' : Nat) : (s.setCan n c).reg o' = s.reg o' := by simp [State.reg]
@[simp] theorem State.rd_setCan (s : State) (n : Nat) (c : CanSt) (f' : Fld) : (s.setCan n c).rd f' = s.rd f' := by simp [State.rd]
@[simp] theorem State.rdB_setCan (s : State) (n : Nat) (c : CanSt) (f' : Fld) : (s.setCan n c).rdB f' = s.rdB f' := by simp [State.rdB]
@[simp] theorem State.reg_setChan (s : State) (c : Nat) (m : MiChan) (o' : Nat) : (s.setChan c m).reg o' = s.reg o' := by simp [State.reg]
@[simp] theorem State.rd_setChan (s : State) (c : Nat) (m : MiChan) (f' : Fld) : (s.setChan c m).rd f' = s.rd f' := by simp [State.rd]
@[simp] theorem State.rdB_setChan (s : State) (c : Nat) (m : MiChan) (f' : Fld) : (s.setChan c m).rdB f' = s.rdB f' := by simp [State.rdB]

end Sys2Proof.Machine
end

