-- ==== Sys2Proof/Laws/Access.lean ====
section
/-!
SUPPORT. Laws/Access.lean: a named read of the state (a segment, a port, a ring, a register) through an update that
leaves the field it reads. Stated once so that no later proof unfolds the read.
-/

namespace Sys2Proof.Machine

/-! `State.setReg` -/
@[simp] theorem State.seg_setReg (s : State) (o : Nat) (v : Word) (j' : Nat) : (s.setReg o v).seg j' = s.seg j' := by
  simp [State.seg]
@[simp] theorem State.port_setReg (s : State) (o : Nat) (v : Word) (r' : Nat) : (s.setReg o v).port r' = s.port r' := by
  simp [State.port]
@[simp] theorem State.hring_setReg (s : State) (o : Nat) (v : Word) (n' : Nat) : (s.setReg o v).hring n' = s.hring n' := by
  simp [State.hring]
@[simp] theorem State.iq_setReg (s : State) (o : Nat) (v : Word) (q' : Nat) : (s.setReg o v).iq q' = s.iq q' := by
  simp [State.iq]
@[simp] theorem State.thr_setReg (s : State) (o : Nat) (v : Word) (t' : Nat) : (s.setReg o v).thr t' = s.thr t' := by
  simp [State.thr]
@[simp] theorem State.canSt_setReg (s : State) (o : Nat) (v : Word) (n' : Nat) : (s.setReg o v).canSt n' = s.canSt n' := by
  simp [State.canSt]
@[simp] theorem State.chan_setReg (s : State) (o : Nat) (v : Word) (c' : Nat) : (s.setReg o v).chan c' = s.chan c' := by
  simp [State.chan]
@[simp] theorem State.galCell_setReg (s : State) (o : Nat) (v : Word) (i' : Nat) : (s.setReg o v).galCell i' = s.galCell i' := by
  simp [State.galCell]
@[simp] theorem State.galArm_setReg (s : State) (o : Nat) (v : Word) (a' : Nat) : (s.setReg o v).galArm a' = s.galArm a' := by
  simp [State.galArm]
@[simp] theorem State.hub_setReg (s : State) (o : Nat) (v : Word) (d' : Nat) : (s.setReg o v).hub d' = s.hub d' := by
  simp [State.hub]
@[simp] theorem State.waiting_setReg (s : State) (o : Nat) (v : Word) (r' : Nat) : (s.setReg o v).waiting r' = s.waiting r' := by
  simp [State.waiting]
@[simp] theorem State.tread_setReg (s : State) (o : Nat) (v : Word) (i' : Nat) : (s.setReg o v).tread i' = s.tread i' := by
  simp [State.tread]
@[simp] theorem State.blk_setReg (s : State) (o : Nat) (v : Word) (b' : Nat) : (s.setReg o v).blk b' = s.blk b' := by
  simp [State.blk]
@[simp] theorem State.ereg_setReg (s : State) (o : Nat) (v : Word) (o' : Nat) : (s.setReg o v).ereg o' = s.ereg o' := by
  simp [State.ereg]
@[simp] theorem State.erd_setReg (s : State) (o : Nat) (v : Word) (f' : Fld) : (s.setReg o v).erd f' = s.erd f' := by simp [State.erd]
@[simp] theorem State.erdB_setReg (s : State) (o : Nat) (v : Word) (f' : Fld) : (s.setReg o v).erdB f' = s.erdB f' := by simp [State.erdB]

/-! `State.wr` -/
@[simp] theorem State.seg_wr (s : State) (f : Fld) (v : Nat) (j' : Nat) : (s.wr f v).seg j' = s.seg j' := by
  simp [State.seg]
@[simp] theorem State.port_wr (s : State) (f : Fld) (v : Nat) (r' : Nat) : (s.wr f v).port r' = s.port r' := by
  simp [State.port]
@[simp] theorem State.hring_wr (s : State) (f : Fld) (v : Nat) (n' : Nat) : (s.wr f v).hring n' = s.hring n' := by
  simp [State.hring]
@[simp] theorem State.iq_wr (s : State) (f : Fld) (v : Nat) (q' : Nat) : (s.wr f v).iq q' = s.iq q' := by
  simp [State.iq]
@[simp] theorem State.thr_wr (s : State) (f : Fld) (v : Nat) (t' : Nat) : (s.wr f v).thr t' = s.thr t' := by
  simp [State.thr]
@[simp] theorem State.canSt_wr (s : State) (f : Fld) (v : Nat) (n' : Nat) : (s.wr f v).canSt n' = s.canSt n' := by
  simp [State.canSt]
@[simp] theorem State.chan_wr (s : State) (f : Fld) (v : Nat) (c' : Nat) : (s.wr f v).chan c' = s.chan c' := by
  simp [State.chan]
@[simp] theorem State.galCell_wr (s : State) (f : Fld) (v : Nat) (i' : Nat) : (s.wr f v).galCell i' = s.galCell i' := by
  simp [State.galCell]
@[simp] theorem State.galArm_wr (s : State) (f : Fld) (v : Nat) (a' : Nat) : (s.wr f v).galArm a' = s.galArm a' := by
  simp [State.galArm]
@[simp] theorem State.hub_wr (s : State) (f : Fld) (v : Nat) (d' : Nat) : (s.wr f v).hub d' = s.hub d' := by
  simp [State.hub]
@[simp] theorem State.waiting_wr (s : State) (f : Fld) (v : Nat) (r' : Nat) : (s.wr f v).waiting r' = s.waiting r' := by
  simp [State.waiting]
@[simp] theorem State.tread_wr (s : State) (f : Fld) (v : Nat) (i' : Nat) : (s.wr f v).tread i' = s.tread i' := by
  simp [State.tread]
@[simp] theorem State.blk_wr (s : State) (f : Fld) (v : Nat) (b' : Nat) : (s.wr f v).blk b' = s.blk b' := by
  simp [State.blk]
@[simp] theorem State.ereg_wr (s : State) (f : Fld) (v : Nat) (o' : Nat) : (s.wr f v).ereg o' = s.ereg o' := by
  simp [State.ereg]
@[simp] theorem State.erd_wr (s : State) (f : Fld) (v : Nat) (f' : Fld) : (s.wr f v).erd f' = s.erd f' := by simp [State.erd]
@[simp] theorem State.erdB_wr (s : State) (f : Fld) (v : Nat) (f' : Fld) : (s.wr f v).erdB f' = s.erdB f' := by simp [State.erdB]

/-! `State.wrB` -/
@[simp] theorem State.seg_wrB (s : State) (f : Fld) (b : Bool) (j' : Nat) : (s.wrB f b).seg j' = s.seg j' := by
  simp [State.seg]
@[simp] theorem State.port_wrB (s : State) (f : Fld) (b : Bool) (r' : Nat) : (s.wrB f b).port r' = s.port r' := by
  simp [State.port]
@[simp] theorem State.hring_wrB (s : State) (f : Fld) (b : Bool) (n' : Nat) : (s.wrB f b).hring n' = s.hring n' := by
  simp [State.hring]
@[simp] theorem State.iq_wrB (s : State) (f : Fld) (b : Bool) (q' : Nat) : (s.wrB f b).iq q' = s.iq q' := by
  simp [State.iq]
@[simp] theorem State.thr_wrB (s : State) (f : Fld) (b : Bool) (t' : Nat) : (s.wrB f b).thr t' = s.thr t' := by
  simp [State.thr]
@[simp] theorem State.canSt_wrB (s : State) (f : Fld) (b : Bool) (n' : Nat) : (s.wrB f b).canSt n' = s.canSt n' := by
  simp [State.canSt]
@[simp] theorem State.chan_wrB (s : State) (f : Fld) (b : Bool) (c' : Nat) : (s.wrB f b).chan c' = s.chan c' := by
  simp [State.chan]
@[simp] theorem State.galCell_wrB (s : State) (f : Fld) (b : Bool) (i' : Nat) : (s.wrB f b).galCell i' = s.galCell i' := by
  simp [State.galCell]
@[simp] theorem State.galArm_wrB (s : State) (f : Fld) (b : Bool) (a' : Nat) : (s.wrB f b).galArm a' = s.galArm a' := by
  simp [State.galArm]
@[simp] theorem State.hub_wrB (s : State) (f : Fld) (b : Bool) (d' : Nat) : (s.wrB f b).hub d' = s.hub d' := by
  simp [State.hub]
@[simp] theorem State.waiting_wrB (s : State) (f : Fld) (b : Bool) (r' : Nat) : (s.wrB f b).waiting r' = s.waiting r' := by
  simp [State.waiting]
@[simp] theorem State.tread_wrB (s : State) (f : Fld) (b : Bool) (i' : Nat) : (s.wrB f b).tread i' = s.tread i' := by
  simp [State.tread]
@[simp] theorem State.blk_wrB (s : State) (f : Fld) (b : Bool) (b' : Nat) : (s.wrB f b).blk b' = s.blk b' := by
  simp [State.blk]
@[simp] theorem State.ereg_wrB (s : State) (f : Fld) (b : Bool) (o' : Nat) : (s.wrB f b).ereg o' = s.ereg o' := by
  simp [State.ereg]
@[simp] theorem State.erd_wrB (s : State) (f : Fld) (b : Bool) (f' : Fld) : (s.wrB f b).erd f' = s.erd f' := by simp [State.erd]
@[simp] theorem State.erdB_wrB (s : State) (f : Fld) (b : Bool) (f' : Fld) : (s.wrB f b).erdB f' = s.erdB f' := by simp [State.erdB]

/-! `State.wrI` -/
@[simp] theorem State.seg_wrI (s : State) (f : Fld) (i : Int) (j' : Nat) : (s.wrI f i).seg j' = s.seg j' := by
  simp [State.seg]
@[simp] theorem State.port_wrI (s : State) (f : Fld) (i : Int) (r' : Nat) : (s.wrI f i).port r' = s.port r' := by
  simp [State.port]
@[simp] theorem State.hring_wrI (s : State) (f : Fld) (i : Int) (n' : Nat) : (s.wrI f i).hring n' = s.hring n' := by
  simp [State.hring]
@[simp] theorem State.iq_wrI (s : State) (f : Fld) (i : Int) (q' : Nat) : (s.wrI f i).iq q' = s.iq q' := by
  simp [State.iq]
@[simp] theorem State.thr_wrI (s : State) (f : Fld) (i : Int) (t' : Nat) : (s.wrI f i).thr t' = s.thr t' := by
  simp [State.thr]
@[simp] theorem State.canSt_wrI (s : State) (f : Fld) (i : Int) (n' : Nat) : (s.wrI f i).canSt n' = s.canSt n' := by
  simp [State.canSt]
@[simp] theorem State.chan_wrI (s : State) (f : Fld) (i : Int) (c' : Nat) : (s.wrI f i).chan c' = s.chan c' := by
  simp [State.chan]
@[simp] theorem State.galCell_wrI (s : State) (f : Fld) (i : Int) (i' : Nat) : (s.wrI f i).galCell i' = s.galCell i' := by
  simp [State.galCell]
@[simp] theorem State.galArm_wrI (s : State) (f : Fld) (i : Int) (a' : Nat) : (s.wrI f i).galArm a' = s.galArm a' := by
  simp [State.galArm]
@[simp] theorem State.hub_wrI (s : State) (f : Fld) (i : Int) (d' : Nat) : (s.wrI f i).hub d' = s.hub d' := by
  simp [State.hub]
@[simp] theorem State.waiting_wrI (s : State) (f : Fld) (i : Int) (r' : Nat) : (s.wrI f i).waiting r' = s.waiting r' := by
  simp [State.waiting]
@[simp] theorem State.tread_wrI (s : State) (f : Fld) (i : Int) (i' : Nat) : (s.wrI f i).tread i' = s.tread i' := by
  simp [State.tread]
@[simp] theorem State.blk_wrI (s : State) (f : Fld) (i : Int) (b' : Nat) : (s.wrI f i).blk b' = s.blk b' := by
  simp [State.blk]
@[simp] theorem State.ereg_wrI (s : State) (f : Fld) (i : Int) (o' : Nat) : (s.wrI f i).ereg o' = s.ereg o' := by
  simp [State.ereg]
@[simp] theorem State.erd_wrI (s : State) (f : Fld) (i : Int) (f' : Fld) : (s.wrI f i).erd f' = s.erd f' := by simp [State.erd]
@[simp] theorem State.erdB_wrI (s : State) (f : Fld) (i : Int) (f' : Fld) : (s.wrI f i).erdB f' = s.erdB f' := by simp [State.erdB]

/-! `State.incSat` -/
@[simp] theorem State.seg_incSat (s : State) (f : Fld) (n : Nat) (j' : Nat) : (s.incSat f n).seg j' = s.seg j' := by
  simp [State.seg]
@[simp] theorem State.port_incSat (s : State) (f : Fld) (n : Nat) (r' : Nat) : (s.incSat f n).port r' = s.port r' := by
  simp [State.port]
@[simp] theorem State.hring_incSat (s : State) (f : Fld) (n : Nat) (n' : Nat) : (s.incSat f n).hring n' = s.hring n' := by
  simp [State.hring]
@[simp] theorem State.iq_incSat (s : State) (f : Fld) (n : Nat) (q' : Nat) : (s.incSat f n).iq q' = s.iq q' := by
  simp [State.iq]
@[simp] theorem State.thr_incSat (s : State) (f : Fld) (n : Nat) (t' : Nat) : (s.incSat f n).thr t' = s.thr t' := by
  simp [State.thr]
@[simp] theorem State.canSt_incSat (s : State) (f : Fld) (n : Nat) (n' : Nat) : (s.incSat f n).canSt n' = s.canSt n' := by
  simp [State.canSt]
@[simp] theorem State.chan_incSat (s : State) (f : Fld) (n : Nat) (c' : Nat) : (s.incSat f n).chan c' = s.chan c' := by
  simp [State.chan]
@[simp] theorem State.galCell_incSat (s : State) (f : Fld) (n : Nat) (i' : Nat) : (s.incSat f n).galCell i' = s.galCell i' := by
  simp [State.galCell]
@[simp] theorem State.galArm_incSat (s : State) (f : Fld) (n : Nat) (a' : Nat) : (s.incSat f n).galArm a' = s.galArm a' := by
  simp [State.galArm]
@[simp] theorem State.hub_incSat (s : State) (f : Fld) (n : Nat) (d' : Nat) : (s.incSat f n).hub d' = s.hub d' := by
  simp [State.hub]
@[simp] theorem State.waiting_incSat (s : State) (f : Fld) (n : Nat) (r' : Nat) : (s.incSat f n).waiting r' = s.waiting r' := by
  simp [State.waiting]
@[simp] theorem State.tread_incSat (s : State) (f : Fld) (n : Nat) (i' : Nat) : (s.incSat f n).tread i' = s.tread i' := by
  simp [State.tread]
@[simp] theorem State.blk_incSat (s : State) (f : Fld) (n : Nat) (b' : Nat) : (s.incSat f n).blk b' = s.blk b' := by
  simp [State.blk]
@[simp] theorem State.ereg_incSat (s : State) (f : Fld) (n : Nat) (o' : Nat) : (s.incSat f n).ereg o' = s.ereg o' := by
  simp [State.ereg]
@[simp] theorem State.erd_incSat (s : State) (f : Fld) (n : Nat) (f' : Fld) : (s.incSat f n).erd f' = s.erd f' := by simp [State.erd]
@[simp] theorem State.erdB_incSat (s : State) (f : Fld) (n : Nat) (f' : Fld) : (s.incSat f n).erdB f' = s.erdB f' := by simp [State.erdB]

/-! `State.incWrap` -/
@[simp] theorem State.seg_incWrap (s : State) (f : Fld) (n : Nat) (j' : Nat) : (s.incWrap f n).seg j' = s.seg j' := by
  simp [State.seg]
@[simp] theorem State.port_incWrap (s : State) (f : Fld) (n : Nat) (r' : Nat) : (s.incWrap f n).port r' = s.port r' := by
  simp [State.port]
@[simp] theorem State.hring_incWrap (s : State) (f : Fld) (n : Nat) (n' : Nat) : (s.incWrap f n).hring n' = s.hring n' := by
  simp [State.hring]
@[simp] theorem State.iq_incWrap (s : State) (f : Fld) (n : Nat) (q' : Nat) : (s.incWrap f n).iq q' = s.iq q' := by
  simp [State.iq]
@[simp] theorem State.thr_incWrap (s : State) (f : Fld) (n : Nat) (t' : Nat) : (s.incWrap f n).thr t' = s.thr t' := by
  simp [State.thr]
@[simp] theorem State.canSt_incWrap (s : State) (f : Fld) (n : Nat) (n' : Nat) : (s.incWrap f n).canSt n' = s.canSt n' := by
  simp [State.canSt]
@[simp] theorem State.chan_incWrap (s : State) (f : Fld) (n : Nat) (c' : Nat) : (s.incWrap f n).chan c' = s.chan c' := by
  simp [State.chan]
@[simp] theorem State.galCell_incWrap (s : State) (f : Fld) (n : Nat) (i' : Nat) : (s.incWrap f n).galCell i' = s.galCell i' := by
  simp [State.galCell]
@[simp] theorem State.galArm_incWrap (s : State) (f : Fld) (n : Nat) (a' : Nat) : (s.incWrap f n).galArm a' = s.galArm a' := by
  simp [State.galArm]
@[simp] theorem State.hub_incWrap (s : State) (f : Fld) (n : Nat) (d' : Nat) : (s.incWrap f n).hub d' = s.hub d' := by
  simp [State.hub]
@[simp] theorem State.waiting_incWrap (s : State) (f : Fld) (n : Nat) (r' : Nat) : (s.incWrap f n).waiting r' = s.waiting r' := by
  simp [State.waiting]
@[simp] theorem State.tread_incWrap (s : State) (f : Fld) (n : Nat) (i' : Nat) : (s.incWrap f n).tread i' = s.tread i' := by
  simp [State.tread]
@[simp] theorem State.blk_incWrap (s : State) (f : Fld) (n : Nat) (b' : Nat) : (s.incWrap f n).blk b' = s.blk b' := by
  simp [State.blk]
@[simp] theorem State.ereg_incWrap (s : State) (f : Fld) (n : Nat) (o' : Nat) : (s.incWrap f n).ereg o' = s.ereg o' := by
  simp [State.ereg]
@[simp] theorem State.erd_incWrap (s : State) (f : Fld) (n : Nat) (f' : Fld) : (s.incWrap f n).erd f' = s.erd f' := by simp [State.erd]
@[simp] theorem State.erdB_incWrap (s : State) (f : Fld) (n : Nat) (f' : Fld) : (s.incWrap f n).erdB f' = s.erdB f' := by simp [State.erdB]

/-! `State.setBit` -/
@[simp] theorem State.seg_setBit (s : State) (f : Fld) (i : Nat) (b : Bool) (j' : Nat) : (s.setBit f i b).seg j' = s.seg j' := by
  simp [State.seg]
@[simp] theorem State.port_setBit (s : State) (f : Fld) (i : Nat) (b : Bool) (r' : Nat) : (s.setBit f i b).port r' = s.port r' := by
  simp [State.port]
@[simp] theorem State.hring_setBit (s : State) (f : Fld) (i : Nat) (b : Bool) (n' : Nat) : (s.setBit f i b).hring n' = s.hring n' := by
  simp [State.hring]
@[simp] theorem State.iq_setBit (s : State) (f : Fld) (i : Nat) (b : Bool) (q' : Nat) : (s.setBit f i b).iq q' = s.iq q' := by
  simp [State.iq]
@[simp] theorem State.thr_setBit (s : State) (f : Fld) (i : Nat) (b : Bool) (t' : Nat) : (s.setBit f i b).thr t' = s.thr t' := by
  simp [State.thr]
@[simp] theorem State.canSt_setBit (s : State) (f : Fld) (i : Nat) (b : Bool) (n' : Nat) : (s.setBit f i b).canSt n' = s.canSt n' := by
  simp [State.canSt]
@[simp] theorem State.chan_setBit (s : State) (f : Fld) (i : Nat) (b : Bool) (c' : Nat) : (s.setBit f i b).chan c' = s.chan c' := by
  simp [State.chan]
@[simp] theorem State.galCell_setBit (s : State) (f : Fld) (i : Nat) (b : Bool) (i' : Nat) : (s.setBit f i b).galCell i' = s.galCell i' := by
  simp [State.galCell]
@[simp] theorem State.galArm_setBit (s : State) (f : Fld) (i : Nat) (b : Bool) (a' : Nat) : (s.setBit f i b).galArm a' = s.galArm a' := by
  simp [State.galArm]
@[simp] theorem State.hub_setBit (s : State) (f : Fld) (i : Nat) (b : Bool) (d' : Nat) : (s.setBit f i b).hub d' = s.hub d' := by
  simp [State.hub]
@[simp] theorem State.waiting_setBit (s : State) (f : Fld) (i : Nat) (b : Bool) (r' : Nat) : (s.setBit f i b).waiting r' = s.waiting r' := by
  simp [State.waiting]
@[simp] theorem State.tread_setBit (s : State) (f : Fld) (i : Nat) (b : Bool) (i' : Nat) : (s.setBit f i b).tread i' = s.tread i' := by
  simp [State.tread]
@[simp] theorem State.blk_setBit (s : State) (f : Fld) (i : Nat) (b : Bool) (b' : Nat) : (s.setBit f i b).blk b' = s.blk b' := by
  simp [State.blk]
@[simp] theorem State.ereg_setBit (s : State) (f : Fld) (i : Nat) (b : Bool) (o' : Nat) : (s.setBit f i b).ereg o' = s.ereg o' := by
  simp [State.ereg]
@[simp] theorem State.erd_setBit (s : State) (f : Fld) (i : Nat) (b : Bool) (f' : Fld) : (s.setBit f i b).erd f' = s.erd f' := by simp [State.erd]
@[simp] theorem State.erdB_setBit (s : State) (f : Fld) (i : Nat) (b : Bool) (f' : Fld) : (s.setBit f i b).erdB f' = s.erdB f' := by simp [State.erdB]

/-! `State.setThrState` -/
@[simp] theorem State.seg_setThrState (s : State) (t st : Nat) (j' : Nat) : (s.setThrState t st).seg j' = s.seg j' := by
  simp [State.seg]
@[simp] theorem State.port_setThrState (s : State) (t st : Nat) (r' : Nat) : (s.setThrState t st).port r' = s.port r' := by
  simp [State.port]
@[simp] theorem State.hring_setThrState (s : State) (t st : Nat) (n' : Nat) : (s.setThrState t st).hring n' = s.hring n' := by
  simp [State.hring]
@[simp] theorem State.iq_setThrState (s : State) (t st : Nat) (q' : Nat) : (s.setThrState t st).iq q' = s.iq q' := by
  simp [State.iq]
@[simp] theorem State.thr_setThrState (s : State) (t st : Nat) (t' : Nat) : (s.setThrState t st).thr t' = s.thr t' := by
  simp [State.thr]
@[simp] theorem State.canSt_setThrState (s : State) (t st : Nat) (n' : Nat) : (s.setThrState t st).canSt n' = s.canSt n' := by
  simp [State.canSt]
@[simp] theorem State.chan_setThrState (s : State) (t st : Nat) (c' : Nat) : (s.setThrState t st).chan c' = s.chan c' := by
  simp [State.chan]
@[simp] theorem State.galCell_setThrState (s : State) (t st : Nat) (i' : Nat) : (s.setThrState t st).galCell i' = s.galCell i' := by
  simp [State.galCell]
@[simp] theorem State.galArm_setThrState (s : State) (t st : Nat) (a' : Nat) : (s.setThrState t st).galArm a' = s.galArm a' := by
  simp [State.galArm]
@[simp] theorem State.hub_setThrState (s : State) (t st : Nat) (d' : Nat) : (s.setThrState t st).hub d' = s.hub d' := by
  simp [State.hub]
@[simp] theorem State.waiting_setThrState (s : State) (t st : Nat) (r' : Nat) : (s.setThrState t st).waiting r' = s.waiting r' := by
  simp [State.waiting]
@[simp] theorem State.tread_setThrState (s : State) (t st : Nat) (i' : Nat) : (s.setThrState t st).tread i' = s.tread i' := by
  simp [State.tread]
@[simp] theorem State.blk_setThrState (s : State) (t st : Nat) (b' : Nat) : (s.setThrState t st).blk b' = s.blk b' := by
  simp [State.blk]
@[simp] theorem State.ereg_setThrState (s : State) (t st : Nat) (o' : Nat) : (s.setThrState t st).ereg o' = s.ereg o' := by
  simp [State.ereg]
@[simp] theorem State.erd_setThrState (s : State) (t st : Nat) (f' : Fld) : (s.setThrState t st).erd f' = s.erd f' := by simp [State.erd]
@[simp] theorem State.erdB_setThrState (s : State) (t st : Nat) (f' : Fld) : (s.setThrState t st).erdB f' = s.erdB f' := by simp [State.erdB]

/-! `State.setPst` -/
@[simp] theorem State.seg_setPst (s : State) (q st : Nat) (j' : Nat) : (s.setPst q st).seg j' = s.seg j' := by
  simp [State.seg]
@[simp] theorem State.port_setPst (s : State) (q st : Nat) (r' : Nat) : (s.setPst q st).port r' = s.port r' := by
  simp [State.port]
@[simp] theorem State.hring_setPst (s : State) (q st : Nat) (n' : Nat) : (s.setPst q st).hring n' = s.hring n' := by
  simp [State.hring]
@[simp] theorem State.iq_setPst (s : State) (q st : Nat) (q' : Nat) : (s.setPst q st).iq q' = s.iq q' := by
  simp [State.iq]
@[simp] theorem State.thr_setPst (s : State) (q st : Nat) (t' : Nat) : (s.setPst q st).thr t' = s.thr t' := by
  simp [State.thr]
@[simp] theorem State.canSt_setPst (s : State) (q st : Nat) (n' : Nat) : (s.setPst q st).canSt n' = s.canSt n' := by
  simp [State.canSt]
@[simp] theorem State.chan_setPst (s : State) (q st : Nat) (c' : Nat) : (s.setPst q st).chan c' = s.chan c' := by
  simp [State.chan]
@[simp] theorem State.galCell_setPst (s : State) (q st : Nat) (i' : Nat) : (s.setPst q st).galCell i' = s.galCell i' := by
  simp [State.galCell]
@[simp] theorem State.galArm_setPst (s : State) (q st : Nat) (a' : Nat) : (s.setPst q st).galArm a' = s.galArm a' := by
  simp [State.galArm]
@[simp] theorem State.hub_setPst (s : State) (q st : Nat) (d' : Nat) : (s.setPst q st).hub d' = s.hub d' := by
  simp [State.hub]
@[simp] theorem State.waiting_setPst (s : State) (q st : Nat) (r' : Nat) : (s.setPst q st).waiting r' = s.waiting r' := by
  simp [State.waiting]
@[simp] theorem State.tread_setPst (s : State) (q st : Nat) (i' : Nat) : (s.setPst q st).tread i' = s.tread i' := by
  simp [State.tread]
@[simp] theorem State.blk_setPst (s : State) (q st : Nat) (b' : Nat) : (s.setPst q st).blk b' = s.blk b' := by
  simp [State.blk]
@[simp] theorem State.ereg_setPst (s : State) (q st : Nat) (o' : Nat) : (s.setPst q st).ereg o' = s.ereg o' := by
  simp [State.ereg]
@[simp] theorem State.erd_setPst (s : State) (q st : Nat) (f' : Fld) : (s.setPst q st).erd f' = s.erd f' := by simp [State.erd]
@[simp] theorem State.erdB_setPst (s : State) (q st : Nat) (f' : Fld) : (s.setPst q st).erdB f' = s.erdB f' := by simp [State.erdB]

/-! `State.advance` -/
@[simp] theorem State.seg_advance (s : State) (t : Time) (j' : Nat) : (s.advance t).seg j' = s.seg j' := by
  simp [State.seg]
@[simp] theorem State.port_advance (s : State) (t : Time) (r' : Nat) : (s.advance t).port r' = s.port r' := by
  simp [State.port]
@[simp] theorem State.hring_advance (s : State) (t : Time) (n' : Nat) : (s.advance t).hring n' = s.hring n' := by
  simp [State.hring]
@[simp] theorem State.iq_advance (s : State) (t : Time) (q' : Nat) : (s.advance t).iq q' = s.iq q' := by
  simp [State.iq]
@[simp] theorem State.thr_advance (s : State) (t : Time) (t' : Nat) : (s.advance t).thr t' = s.thr t' := by
  simp [State.thr]
@[simp] theorem State.canSt_advance (s : State) (t : Time) (n' : Nat) : (s.advance t).canSt n' = s.canSt n' := by
  simp [State.canSt]
@[simp] theorem State.chan_advance (s : State) (t : Time) (c' : Nat) : (s.advance t).chan c' = s.chan c' := by
  simp [State.chan]
@[simp] theorem State.galCell_advance (s : State) (t : Time) (i' : Nat) : (s.advance t).galCell i' = s.galCell i' := by
  simp [State.galCell]
@[simp] theorem State.galArm_advance (s : State) (t : Time) (a' : Nat) : (s.advance t).galArm a' = s.galArm a' := by
  simp [State.galArm]
@[simp] theorem State.hub_advance (s : State) (t : Time) (d' : Nat) : (s.advance t).hub d' = s.hub d' := by
  simp [State.hub]
@[simp] theorem State.waiting_advance (s : State) (t : Time) (r' : Nat) : (s.advance t).waiting r' = s.waiting r' := by
  simp [State.waiting]
@[simp] theorem State.tread_advance (s : State) (t : Time) (i' : Nat) : (s.advance t).tread i' = s.tread i' := by
  simp [State.tread]
@[simp] theorem State.blk_advance (s : State) (t : Time) (b' : Nat) : (s.advance t).blk b' = s.blk b' := by
  simp [State.blk]
@[simp] theorem State.ereg_advance (s : State) (t : Time) (o' : Nat) : (s.advance t).ereg o' = s.ereg o' := by
  simp [State.ereg]
@[simp] theorem State.erd_advance (s : State) (t : Time) (f' : Fld) : (s.advance t).erd f' = s.erd f' := by simp [State.erd]
@[simp] theorem State.erdB_advance (s : State) (t : Time) (f' : Fld) : (s.advance t).erdB f' = s.erdB f' := by simp [State.erdB]
@[simp] theorem State.rdI_advance (s : State) (t : Time) (f' : Fld) : (s.advance t).rdI f' = s.rdI f' := by simp [State.rdI]

/-! `State.advanceHall` -/
@[simp] theorem State.seg_advanceHall (s : State) (h : Time) (j' : Nat) : (s.advanceHall h).seg j' = s.seg j' := by
  simp [State.seg]
@[simp] theorem State.port_advanceHall (s : State) (h : Time) (r' : Nat) : (s.advanceHall h).port r' = s.port r' := by
  simp [State.port]
@[simp] theorem State.hring_advanceHall (s : State) (h : Time) (n' : Nat) : (s.advanceHall h).hring n' = s.hring n' := by
  simp [State.hring]
@[simp] theorem State.iq_advanceHall (s : State) (h : Time) (q' : Nat) : (s.advanceHall h).iq q' = s.iq q' := by
  simp [State.iq]
@[simp] theorem State.thr_advanceHall (s : State) (h : Time) (t' : Nat) : (s.advanceHall h).thr t' = s.thr t' := by
  simp [State.thr]
@[simp] theorem State.canSt_advanceHall (s : State) (h : Time) (n' : Nat) : (s.advanceHall h).canSt n' = s.canSt n' := by
  simp [State.canSt]
@[simp] theorem State.chan_advanceHall (s : State) (h : Time) (c' : Nat) : (s.advanceHall h).chan c' = s.chan c' := by
  simp [State.chan]
@[simp] theorem State.galCell_advanceHall (s : State) (h : Time) (i' : Nat) : (s.advanceHall h).galCell i' = s.galCell i' := by
  simp [State.galCell]
@[simp] theorem State.galArm_advanceHall (s : State) (h : Time) (a' : Nat) : (s.advanceHall h).galArm a' = s.galArm a' := by
  simp [State.galArm]
@[simp] theorem State.hub_advanceHall (s : State) (h : Time) (d' : Nat) : (s.advanceHall h).hub d' = s.hub d' := by
  simp [State.hub]
@[simp] theorem State.waiting_advanceHall (s : State) (h : Time) (r' : Nat) : (s.advanceHall h).waiting r' = s.waiting r' := by
  simp [State.waiting]
@[simp] theorem State.tread_advanceHall (s : State) (h : Time) (i' : Nat) : (s.advanceHall h).tread i' = s.tread i' := by
  simp [State.tread]
@[simp] theorem State.blk_advanceHall (s : State) (h : Time) (b' : Nat) : (s.advanceHall h).blk b' = s.blk b' := by
  simp [State.blk]
@[simp] theorem State.ereg_advanceHall (s : State) (h : Time) (o' : Nat) : (s.advanceHall h).ereg o' = s.ereg o' := by
  simp [State.ereg]
@[simp] theorem State.erd_advanceHall (s : State) (h : Time) (f' : Fld) : (s.advanceHall h).erd f' = s.erd f' := by simp [State.erd]
@[simp] theorem State.erdB_advanceHall (s : State) (h : Time) (f' : Fld) : (s.advanceHall h).erdB f' = s.erdB f' := by simp [State.erdB]
@[simp] theorem State.rdI_advanceHall (s : State) (h : Time) (f' : Fld) : (s.advanceHall h).rdI f' = s.rdI f' := by simp [State.rdI]

/-! `State.count` -/
@[simp] theorem State.seg_count (s : State) (src n : Nat) (j' : Nat) : (s.count src n).seg j' = s.seg j' := by
  simp [State.seg]
@[simp] theorem State.port_count (s : State) (src n : Nat) (r' : Nat) : (s.count src n).port r' = s.port r' := by
  simp [State.port]
@[simp] theorem State.hring_count (s : State) (src n : Nat) (n' : Nat) : (s.count src n).hring n' = s.hring n' := by
  simp [State.hring]
@[simp] theorem State.iq_count (s : State) (src n : Nat) (q' : Nat) : (s.count src n).iq q' = s.iq q' := by
  simp [State.iq]
@[simp] theorem State.thr_count (s : State) (src n : Nat) (t' : Nat) : (s.count src n).thr t' = s.thr t' := by
  simp [State.thr]
@[simp] theorem State.canSt_count (s : State) (src n : Nat) (n' : Nat) : (s.count src n).canSt n' = s.canSt n' := by
  simp [State.canSt]
@[simp] theorem State.chan_count (s : State) (src n : Nat) (c' : Nat) : (s.count src n).chan c' = s.chan c' := by
  simp [State.chan]
@[simp] theorem State.galCell_count (s : State) (src n : Nat) (i' : Nat) : (s.count src n).galCell i' = s.galCell i' := by
  simp [State.galCell]
@[simp] theorem State.galArm_count (s : State) (src n : Nat) (a' : Nat) : (s.count src n).galArm a' = s.galArm a' := by
  simp [State.galArm]
@[simp] theorem State.hub_count (s : State) (src n : Nat) (d' : Nat) : (s.count src n).hub d' = s.hub d' := by
  simp [State.hub]
@[simp] theorem State.waiting_count (s : State) (src n : Nat) (r' : Nat) : (s.count src n).waiting r' = s.waiting r' := by
  simp [State.waiting]
@[simp] theorem State.tread_count (s : State) (src n : Nat) (i' : Nat) : (s.count src n).tread i' = s.tread i' := by
  simp [State.tread]
@[simp] theorem State.blk_count (s : State) (src n : Nat) (b' : Nat) : (s.count src n).blk b' = s.blk b' := by
  simp [State.blk]
@[simp] theorem State.ereg_count (s : State) (src n : Nat) (o' : Nat) : (s.count src n).ereg o' = s.ereg o' := by
  simp [State.ereg]
@[simp] theorem State.erd_count (s : State) (src n : Nat) (f' : Fld) : (s.count src n).erd f' = s.erd f' := by simp [State.erd]
@[simp] theorem State.erdB_count (s : State) (src n : Nat) (f' : Fld) : (s.count src n).erdB f' = s.erdB f' := by simp [State.erdB]
@[simp] theorem State.rdI_count (s : State) (src n : Nat) (f' : Fld) : (s.count src n).rdI f' = s.rdI f' := by simp [State.rdI]

/-! `State.tick` -/
@[simp] theorem State.seg_tick (s : State) (j' : Nat) : (s.tick).seg j' = s.seg j' := by
  simp [State.seg]
@[simp] theorem State.port_tick (s : State) (r' : Nat) : (s.tick).port r' = s.port r' := by
  simp [State.port]
@[simp] theorem State.hring_tick (s : State) (n' : Nat) : (s.tick).hring n' = s.hring n' := by
  simp [State.hring]
@[simp] theorem State.iq_tick (s : State) (q' : Nat) : (s.tick).iq q' = s.iq q' := by
  simp [State.iq]
@[simp] theorem State.thr_tick (s : State) (t' : Nat) : (s.tick).thr t' = s.thr t' := by
  simp [State.thr]
@[simp] theorem State.canSt_tick (s : State) (n' : Nat) : (s.tick).canSt n' = s.canSt n' := by
  simp [State.canSt]
@[simp] theorem State.chan_tick (s : State) (c' : Nat) : (s.tick).chan c' = s.chan c' := by
  simp [State.chan]
@[simp] theorem State.galCell_tick (s : State) (i' : Nat) : (s.tick).galCell i' = s.galCell i' := by
  simp [State.galCell]
@[simp] theorem State.galArm_tick (s : State) (a' : Nat) : (s.tick).galArm a' = s.galArm a' := by
  simp [State.galArm]
@[simp] theorem State.hub_tick (s : State) (d' : Nat) : (s.tick).hub d' = s.hub d' := by
  simp [State.hub]
@[simp] theorem State.waiting_tick (s : State) (r' : Nat) : (s.tick).waiting r' = s.waiting r' := by
  simp [State.waiting]
@[simp] theorem State.tread_tick (s : State) (i' : Nat) : (s.tick).tread i' = s.tread i' := by
  simp [State.tread]
@[simp] theorem State.blk_tick (s : State) (b' : Nat) : (s.tick).blk b' = s.blk b' := by
  simp [State.blk]
@[simp] theorem State.ereg_tick (s : State) (o' : Nat) : (s.tick).ereg o' = s.ereg o' := by
  simp [State.ereg]
@[simp] theorem State.erd_tick (s : State) (f' : Fld) : (s.tick).erd f' = s.erd f' := by simp [State.erd]
@[simp] theorem State.erdB_tick (s : State) (f' : Fld) : (s.tick).erdB f' = s.erdB f' := by simp [State.erdB]
@[simp] theorem State.rdI_tick (s : State) (f' : Fld) : (s.tick).rdI f' = s.rdI f' := by simp [State.rdI]

/-! `State.setWaiting` -/
@[simp] theorem State.seg_setWaiting (s : State) (res : Nat) (l : List WaitReq) (j' : Nat) : (s.setWaiting res l).seg j' = s.seg j' := by
  simp [State.seg]
@[simp] theorem State.port_setWaiting (s : State) (res : Nat) (l : List WaitReq) (r' : Nat) : (s.setWaiting res l).port r' = s.port r' := by
  simp [State.port]
@[simp] theorem State.hring_setWaiting (s : State) (res : Nat) (l : List WaitReq) (n' : Nat) : (s.setWaiting res l).hring n' = s.hring n' := by
  simp [State.hring]
@[simp] theorem State.iq_setWaiting (s : State) (res : Nat) (l : List WaitReq) (q' : Nat) : (s.setWaiting res l).iq q' = s.iq q' := by
  simp [State.iq]
@[simp] theorem State.thr_setWaiting (s : State) (res : Nat) (l : List WaitReq) (t' : Nat) : (s.setWaiting res l).thr t' = s.thr t' := by
  simp [State.thr]
@[simp] theorem State.canSt_setWaiting (s : State) (res : Nat) (l : List WaitReq) (n' : Nat) : (s.setWaiting res l).canSt n' = s.canSt n' := by
  simp [State.canSt]
@[simp] theorem State.chan_setWaiting (s : State) (res : Nat) (l : List WaitReq) (c' : Nat) : (s.setWaiting res l).chan c' = s.chan c' := by
  simp [State.chan]
@[simp] theorem State.galCell_setWaiting (s : State) (res : Nat) (l : List WaitReq) (i' : Nat) : (s.setWaiting res l).galCell i' = s.galCell i' := by
  simp [State.galCell]
@[simp] theorem State.galArm_setWaiting (s : State) (res : Nat) (l : List WaitReq) (a' : Nat) : (s.setWaiting res l).galArm a' = s.galArm a' := by
  simp [State.galArm]
@[simp] theorem State.hub_setWaiting (s : State) (res : Nat) (l : List WaitReq) (d' : Nat) : (s.setWaiting res l).hub d' = s.hub d' := by
  simp [State.hub]
@[simp] theorem State.tread_setWaiting (s : State) (res : Nat) (l : List WaitReq) (i' : Nat) : (s.setWaiting res l).tread i' = s.tread i' := by
  simp [State.tread]
@[simp] theorem State.blk_setWaiting (s : State) (res : Nat) (l : List WaitReq) (b' : Nat) : (s.setWaiting res l).blk b' = s.blk b' := by
  simp [State.blk]
@[simp] theorem State.ereg_setWaiting (s : State) (res : Nat) (l : List WaitReq) (o' : Nat) : (s.setWaiting res l).ereg o' = s.ereg o' := by
  simp [State.ereg]
@[simp] theorem State.erd_setWaiting (s : State) (res : Nat) (l : List WaitReq) (f' : Fld) : (s.setWaiting res l).erd f' = s.erd f' := by simp [State.erd]
@[simp] theorem State.erdB_setWaiting (s : State) (res : Nat) (l : List WaitReq) (f' : Fld) : (s.setWaiting res l).erdB f' = s.erdB f' := by simp [State.erdB]
@[simp] theorem State.rdI_setWaiting (s : State) (res : Nat) (l : List WaitReq) (f' : Fld) : (s.setWaiting res l).rdI f' = s.rdI f' := by simp [State.rdI]

/-! `State.setPort` -/
@[simp] theorem State.seg_setPort (s : State) (r : Nat) (p : Port) (j' : Nat) : (s.setPort r p).seg j' = s.seg j' := by
  simp [State.seg]
@[simp] theorem State.hring_setPort (s : State) (r : Nat) (p : Port) (n' : Nat) : (s.setPort r p).hring n' = s.hring n' := by
  simp [State.hring]
@[simp] theorem State.iq_setPort (s : State) (r : Nat) (p : Port) (q' : Nat) : (s.setPort r p).iq q' = s.iq q' := by
  simp [State.iq]
@[simp] theorem State.thr_setPort (s : State) (r : Nat) (p : Port) (t' : Nat) : (s.setPort r p).thr t' = s.thr t' := by
  simp [State.thr]
@[simp] theorem State.canSt_setPort (s : State) (r : Nat) (p : Port) (n' : Nat) : (s.setPort r p).canSt n' = s.canSt n' := by
  simp [State.canSt]
@[simp] theorem State.chan_setPort (s : State) (r : Nat) (p : Port) (c' : Nat) : (s.setPort r p).chan c' = s.chan c' := by
  simp [State.chan]
@[simp] theorem State.galCell_setPort (s : State) (r : Nat) (p : Port) (i' : Nat) : (s.setPort r p).galCell i' = s.galCell i' := by
  simp [State.galCell]
@[simp] theorem State.galArm_setPort (s : State) (r : Nat) (p : Port) (a' : Nat) : (s.setPort r p).galArm a' = s.galArm a' := by
  simp [State.galArm]
@[simp] theorem State.hub_setPort (s : State) (r : Nat) (p : Port) (d' : Nat) : (s.setPort r p).hub d' = s.hub d' := by
  simp [State.hub]
@[simp] theorem State.waiting_setPort (s : State) (r : Nat) (p : Port) (r' : Nat) : (s.setPort r p).waiting r' = s.waiting r' := by
  simp [State.waiting]
@[simp] theorem State.tread_setPort (s : State) (r : Nat) (p : Port) (i' : Nat) : (s.setPort r p).tread i' = s.tread i' := by
  simp [State.tread]
@[simp] theorem State.blk_setPort (s : State) (r : Nat) (p : Port) (b' : Nat) : (s.setPort r p).blk b' = s.blk b' := by
  simp [State.blk]
@[simp] theorem State.ereg_setPort (s : State) (r : Nat) (p : Port) (o' : Nat) : (s.setPort r p).ereg o' = s.ereg o' := by
  simp [State.ereg]
@[simp] theorem State.erd_setPort (s : State) (r : Nat) (p : Port) (f' : Fld) : (s.setPort r p).erd f' = s.erd f' := by simp [State.erd]
@[simp] theorem State.erdB_setPort (s : State) (r : Nat) (p : Port) (f' : Fld) : (s.setPort r p).erdB f' = s.erdB f' := by simp [State.erdB]
@[simp] theorem State.rdI_setPort (s : State) (r : Nat) (p : Port) (f' : Fld) : (s.setPort r p).rdI f' = s.rdI f' := by simp [State.rdI]

/-! `State.updPort` -/
@[simp] theorem State.seg_updPort (s : State) (r : Nat) (f : Port → Port) (j' : Nat) : (s.updPort r f).seg j' = s.seg j' := by
  simp [State.seg]
@[simp] theorem State.hring_updPort (s : State) (r : Nat) (f : Port → Port) (n' : Nat) : (s.updPort r f).hring n' = s.hring n' := by
  simp [State.hring]
@[simp] theorem State.iq_updPort (s : State) (r : Nat) (f : Port → Port) (q' : Nat) : (s.updPort r f).iq q' = s.iq q' := by
  simp [State.iq]
@[simp] theorem State.thr_updPort (s : State) (r : Nat) (f : Port → Port) (t' : Nat) : (s.updPort r f).thr t' = s.thr t' := by
  simp [State.thr]
@[simp] theorem State.canSt_updPort (s : State) (r : Nat) (f : Port → Port) (n' : Nat) : (s.updPort r f).canSt n' = s.canSt n' := by
  simp [State.canSt]
@[simp] theorem State.chan_updPort (s : State) (r : Nat) (f : Port → Port) (c' : Nat) : (s.updPort r f).chan c' = s.chan c' := by
  simp [State.chan]
@[simp] theorem State.galCell_updPort (s : State) (r : Nat) (f : Port → Port) (i' : Nat) : (s.updPort r f).galCell i' = s.galCell i' := by
  simp [State.galCell]
@[simp] theorem State.galArm_updPort (s : State) (r : Nat) (f : Port → Port) (a' : Nat) : (s.updPort r f).galArm a' = s.galArm a' := by
  simp [State.galArm]
@[simp] theorem State.hub_updPort (s : State) (r : Nat) (f : Port → Port) (d' : Nat) : (s.updPort r f).hub d' = s.hub d' := by
  simp [State.hub]
@[simp] theorem State.waiting_updPort (s : State) (r : Nat) (f : Port → Port) (r' : Nat) : (s.updPort r f).waiting r' = s.waiting r' := by
  simp [State.waiting]
@[simp] theorem State.tread_updPort (s : State) (r : Nat) (f : Port → Port) (i' : Nat) : (s.updPort r f).tread i' = s.tread i' := by
  simp [State.tread]
@[simp] theorem State.blk_updPort (s : State) (r : Nat) (f : Port → Port) (b' : Nat) : (s.updPort r f).blk b' = s.blk b' := by
  simp [State.blk]
@[simp] theorem State.ereg_updPort (s : State) (r : Nat) (f : Port → Port) (o' : Nat) : (s.updPort r f).ereg o' = s.ereg o' := by
  simp [State.ereg]
@[simp] theorem State.erd_updPort (s : State) (r : Nat) (f : Port → Port) (f' : Fld) : (s.updPort r f).erd f' = s.erd f' := by simp [State.erd]
@[simp] theorem State.erdB_updPort (s : State) (r : Nat) (f : Port → Port) (f' : Fld) : (s.updPort r f).erdB f' = s.erdB f' := by simp [State.erdB]
@[simp] theorem State.rdI_updPort (s : State) (r : Nat) (f : Port → Port) (f' : Fld) : (s.updPort r f).rdI f' = s.rdI f' := by simp [State.rdI]

/-! `State.setHring` -/
@[simp] theorem State.seg_setHring (s : State) (n : Nat) (h : HostRing) (j' : Nat) : (s.setHring n h).seg j' = s.seg j' := by
  simp [State.seg]
@[simp] theorem State.port_setHring (s : State) (n : Nat) (h : HostRing) (r' : Nat) : (s.setHring n h).port r' = s.port r' := by
  simp [State.port]
@[simp] theorem State.iq_setHring (s : State) (n : Nat) (h : HostRing) (q' : Nat) : (s.setHring n h).iq q' = s.iq q' := by
  simp [State.iq]
@[simp] theorem State.thr_setHring (s : State) (n : Nat) (h : HostRing) (t' : Nat) : (s.setHring n h).thr t' = s.thr t' := by
  simp [State.thr]
@[simp] theorem State.canSt_setHring (s : State) (n : Nat) (h : HostRing) (n' : Nat) : (s.setHring n h).canSt n' = s.canSt n' := by
  simp [State.canSt]
@[simp] theorem State.chan_setHring (s : State) (n : Nat) (h : HostRing) (c' : Nat) : (s.setHring n h).chan c' = s.chan c' := by
  simp [State.chan]
@[simp] theorem State.galCell_setHring (s : State) (n : Nat) (h : HostRing) (i' : Nat) : (s.setHring n h).galCell i' = s.galCell i' := by
  simp [State.galCell]
@[simp] theorem State.galArm_setHring (s : State) (n : Nat) (h : HostRing) (a' : Nat) : (s.setHring n h).galArm a' = s.galArm a' := by
  simp [State.galArm]
@[simp] theorem State.hub_setHring (s : State) (n : Nat) (h : HostRing) (d' : Nat) : (s.setHring n h).hub d' = s.hub d' := by
  simp [State.hub]
@[simp] theorem State.waiting_setHring (s : State) (n : Nat) (h : HostRing) (r' : Nat) : (s.setHring n h).waiting r' = s.waiting r' := by
  simp [State.waiting]
@[simp] theorem State.tread_setHring (s : State) (n : Nat) (h : HostRing) (i' : Nat) : (s.setHring n h).tread i' = s.tread i' := by
  simp [State.tread]
@[simp] theorem State.blk_setHring (s : State) (n : Nat) (h : HostRing) (b' : Nat) : (s.setHring n h).blk b' = s.blk b' := by
  simp [State.blk]
@[simp] theorem State.ereg_setHring (s : State) (n : Nat) (h : HostRing) (o' : Nat) : (s.setHring n h).ereg o' = s.ereg o' := by
  simp [State.ereg]
@[simp] theorem State.erd_setHring (s : State) (n : Nat) (h : HostRing) (f' : Fld) : (s.setHring n h).erd f' = s.erd f' := by simp [State.erd]
@[simp] theorem State.erdB_setHring (s : State) (n : Nat) (h : HostRing) (f' : Fld) : (s.setHring n h).erdB f' = s.erdB f' := by simp [State.erdB]
@[simp] theorem State.rdI_setHring (s : State) (n : Nat) (h : HostRing) (f' : Fld) : (s.setHring n h).rdI f' = s.rdI f' := by simp [State.rdI]

/-! `State.updHring` -/
@[simp] theorem State.seg_updHring (s : State) (n : Nat) (f : HostRing → HostRing) (j' : Nat) : (s.updHring n f).seg j' = s.seg j' := by
  simp [State.seg]
@[simp] theorem State.port_updHring (s : State) (n : Nat) (f : HostRing → HostRing) (r' : Nat) : (s.updHring n f).port r' = s.port r' := by
  simp [State.port]
@[simp] theorem State.iq_updHring (s : State) (n : Nat) (f : HostRing → HostRing) (q' : Nat) : (s.updHring n f).iq q' = s.iq q' := by
  simp [State.iq]
@[simp] theorem State.thr_updHring (s : State) (n : Nat) (f : HostRing → HostRing) (t' : Nat) : (s.updHring n f).thr t' = s.thr t' := by
  simp [State.thr]
@[simp] theorem State.canSt_updHring (s : State) (n : Nat) (f : HostRing → HostRing) (n' : Nat) : (s.updHring n f).canSt n' = s.canSt n' := by
  simp [State.canSt]
@[simp] theorem State.chan_updHring (s : State) (n : Nat) (f : HostRing → HostRing) (c' : Nat) : (s.updHring n f).chan c' = s.chan c' := by
  simp [State.chan]
@[simp] theorem State.galCell_updHring (s : State) (n : Nat) (f : HostRing → HostRing) (i' : Nat) : (s.updHring n f).galCell i' = s.galCell i' := by
  simp [State.galCell]
@[simp] theorem State.galArm_updHring (s : State) (n : Nat) (f : HostRing → HostRing) (a' : Nat) : (s.updHring n f).galArm a' = s.galArm a' := by
  simp [State.galArm]
@[simp] theorem State.hub_updHring (s : State) (n : Nat) (f : HostRing → HostRing) (d' : Nat) : (s.updHring n f).hub d' = s.hub d' := by
  simp [State.hub]
@[simp] theorem State.waiting_updHring (s : State) (n : Nat) (f : HostRing → HostRing) (r' : Nat) : (s.updHring n f).waiting r' = s.waiting r' := by
  simp [State.waiting]
@[simp] theorem State.tread_updHring (s : State) (n : Nat) (f : HostRing → HostRing) (i' : Nat) : (s.updHring n f).tread i' = s.tread i' := by
  simp [State.tread]
@[simp] theorem State.blk_updHring (s : State) (n : Nat) (f : HostRing → HostRing) (b' : Nat) : (s.updHring n f).blk b' = s.blk b' := by
  simp [State.blk]
@[simp] theorem State.ereg_updHring (s : State) (n : Nat) (f : HostRing → HostRing) (o' : Nat) : (s.updHring n f).ereg o' = s.ereg o' := by
  simp [State.ereg]
@[simp] theorem State.erd_updHring (s : State) (n : Nat) (f : HostRing → HostRing) (f' : Fld) : (s.updHring n f).erd f' = s.erd f' := by simp [State.erd]
@[simp] theorem State.erdB_updHring (s : State) (n : Nat) (f : HostRing → HostRing) (f' : Fld) : (s.updHring n f).erdB f' = s.erdB f' := by simp [State.erdB]
@[simp] theorem State.rdI_updHring (s : State) (n : Nat) (f : HostRing → HostRing) (f' : Fld) : (s.updHring n f).rdI f' = s.rdI f' := by simp [State.rdI]

/-! `State.setIq` -/
@[simp] theorem State.seg_setIq (s : State) (q : Nat) (x : IQueue) (j' : Nat) : (s.setIq q x).seg j' = s.seg j' := by
  simp [State.seg]
@[simp] theorem State.port_setIq (s : State) (q : Nat) (x : IQueue) (r' : Nat) : (s.setIq q x).port r' = s.port r' := by
  simp [State.port]
@[simp] theorem State.hring_setIq (s : State) (q : Nat) (x : IQueue) (n' : Nat) : (s.setIq q x).hring n' = s.hring n' := by
  simp [State.hring]
@[simp] theorem State.thr_setIq (s : State) (q : Nat) (x : IQueue) (t' : Nat) : (s.setIq q x).thr t' = s.thr t' := by
  simp [State.thr]
@[simp] theorem State.canSt_setIq (s : State) (q : Nat) (x : IQueue) (n' : Nat) : (s.setIq q x).canSt n' = s.canSt n' := by
  simp [State.canSt]
@[simp] theorem State.chan_setIq (s : State) (q : Nat) (x : IQueue) (c' : Nat) : (s.setIq q x).chan c' = s.chan c' := by
  simp [State.chan]
@[simp] theorem State.galCell_setIq (s : State) (q : Nat) (x : IQueue) (i' : Nat) : (s.setIq q x).galCell i' = s.galCell i' := by
  simp [State.galCell]
@[simp] theorem State.galArm_setIq (s : State) (q : Nat) (x : IQueue) (a' : Nat) : (s.setIq q x).galArm a' = s.galArm a' := by
  simp [State.galArm]
@[simp] theorem State.hub_setIq (s : State) (q : Nat) (x : IQueue) (d' : Nat) : (s.setIq q x).hub d' = s.hub d' := by
  simp [State.hub]
@[simp] theorem State.waiting_setIq (s : State) (q : Nat) (x : IQueue) (r' : Nat) : (s.setIq q x).waiting r' = s.waiting r' := by
  simp [State.waiting]
@[simp] theorem State.tread_setIq (s : State) (q : Nat) (x : IQueue) (i' : Nat) : (s.setIq q x).tread i' = s.tread i' := by
  simp [State.tread]
@[simp] theorem State.blk_setIq (s : State) (q : Nat) (x : IQueue) (b' : Nat) : (s.setIq q x).blk b' = s.blk b' := by
  simp [State.blk]
@[simp] theorem State.ereg_setIq (s : State) (q : Nat) (x : IQueue) (o' : Nat) : (s.setIq q x).ereg o' = s.ereg o' := by
  simp [State.ereg]
@[simp] theorem State.erd_setIq (s : State) (q : Nat) (x : IQueue) (f' : Fld) : (s.setIq q x).erd f' = s.erd f' := by simp [State.erd]
@[simp] theorem State.erdB_setIq (s : State) (q : Nat) (x : IQueue) (f' : Fld) : (s.setIq q x).erdB f' = s.erdB f' := by simp [State.erdB]
@[simp] theorem State.rdI_setIq (s : State) (q : Nat) (x : IQueue) (f' : Fld) : (s.setIq q x).rdI f' = s.rdI f' := by simp [State.rdI]

/-! `State.setThr` -/
@[simp] theorem State.seg_setThr (s : State) (t : Nat) (x : Thr) (j' : Nat) : (s.setThr t x).seg j' = s.seg j' := by
  simp [State.seg]
@[simp] theorem State.port_setThr (s : State) (t : Nat) (x : Thr) (r' : Nat) : (s.setThr t x).port r' = s.port r' := by
  simp [State.port]
@[simp] theorem State.hring_setThr (s : State) (t : Nat) (x : Thr) (n' : Nat) : (s.setThr t x).hring n' = s.hring n' := by
  simp [State.hring]
@[simp] theorem State.iq_setThr (s : State) (t : Nat) (x : Thr) (q' : Nat) : (s.setThr t x).iq q' = s.iq q' := by
  simp [State.iq]
@[simp] theorem State.canSt_setThr (s : State) (t : Nat) (x : Thr) (n' : Nat) : (s.setThr t x).canSt n' = s.canSt n' := by
  simp [State.canSt]
@[simp] theorem State.chan_setThr (s : State) (t : Nat) (x : Thr) (c' : Nat) : (s.setThr t x).chan c' = s.chan c' := by
  simp [State.chan]
@[simp] theorem State.galCell_setThr (s : State) (t : Nat) (x : Thr) (i' : Nat) : (s.setThr t x).galCell i' = s.galCell i' := by
  simp [State.galCell]
@[simp] theorem State.galArm_setThr (s : State) (t : Nat) (x : Thr) (a' : Nat) : (s.setThr t x).galArm a' = s.galArm a' := by
  simp [State.galArm]
@[simp] theorem State.hub_setThr (s : State) (t : Nat) (x : Thr) (d' : Nat) : (s.setThr t x).hub d' = s.hub d' := by
  simp [State.hub]
@[simp] theorem State.waiting_setThr (s : State) (t : Nat) (x : Thr) (r' : Nat) : (s.setThr t x).waiting r' = s.waiting r' := by
  simp [State.waiting]
@[simp] theorem State.tread_setThr (s : State) (t : Nat) (x : Thr) (i' : Nat) : (s.setThr t x).tread i' = s.tread i' := by
  simp [State.tread]
@[simp] theorem State.blk_setThr (s : State) (t : Nat) (x : Thr) (b' : Nat) : (s.setThr t x).blk b' = s.blk b' := by
  simp [State.blk]
@[simp] theorem State.ereg_setThr (s : State) (t : Nat) (x : Thr) (o' : Nat) : (s.setThr t x).ereg o' = s.ereg o' := by
  simp [State.ereg]
@[simp] theorem State.erd_setThr (s : State) (t : Nat) (x : Thr) (f' : Fld) : (s.setThr t x).erd f' = s.erd f' := by simp [State.erd]
@[simp] theorem State.erdB_setThr (s : State) (t : Nat) (x : Thr) (f' : Fld) : (s.setThr t x).erdB f' = s.erdB f' := by simp [State.erdB]
@[simp] theorem State.rdI_setThr (s : State) (t : Nat) (x : Thr) (f' : Fld) : (s.setThr t x).rdI f' = s.rdI f' := by simp [State.rdI]

/-! `State.setTread` -/
@[simp] theorem State.seg_setTread (s : State) (i : Nat) (d : Tread) (j' : Nat) : (s.setTread i d).seg j' = s.seg j' := by
  simp [State.seg]
@[simp] theorem State.port_setTread (s : State) (i : Nat) (d : Tread) (r' : Nat) : (s.setTread i d).port r' = s.port r' := by
  simp [State.port]
@[simp] theorem State.hring_setTread (s : State) (i : Nat) (d : Tread) (n' : Nat) : (s.setTread i d).hring n' = s.hring n' := by
  simp [State.hring]
@[simp] theorem State.iq_setTread (s : State) (i : Nat) (d : Tread) (q' : Nat) : (s.setTread i d).iq q' = s.iq q' := by
  simp [State.iq]
@[simp] theorem State.thr_setTread (s : State) (i : Nat) (d : Tread) (t' : Nat) : (s.setTread i d).thr t' = s.thr t' := by
  simp [State.thr]
@[simp] theorem State.canSt_setTread (s : State) (i : Nat) (d : Tread) (n' : Nat) : (s.setTread i d).canSt n' = s.canSt n' := by
  simp [State.canSt]
@[simp] theorem State.chan_setTread (s : State) (i : Nat) (d : Tread) (c' : Nat) : (s.setTread i d).chan c' = s.chan c' := by
  simp [State.chan]
@[simp] theorem State.galCell_setTread (s : State) (i : Nat) (d : Tread) (i' : Nat) : (s.setTread i d).galCell i' = s.galCell i' := by
  simp [State.galCell]
@[simp] theorem State.galArm_setTread (s : State) (i : Nat) (d : Tread) (a' : Nat) : (s.setTread i d).galArm a' = s.galArm a' := by
  simp [State.galArm]
@[simp] theorem State.hub_setTread (s : State) (i : Nat) (d : Tread) (d' : Nat) : (s.setTread i d).hub d' = s.hub d' := by
  simp [State.hub]
@[simp] theorem State.waiting_setTread (s : State) (i : Nat) (d : Tread) (r' : Nat) : (s.setTread i d).waiting r' = s.waiting r' := by
  simp [State.waiting]
@[simp] theorem State.blk_setTread (s : State) (i : Nat) (d : Tread) (b' : Nat) : (s.setTread i d).blk b' = s.blk b' := by
  simp [State.blk]
@[simp] theorem State.ereg_setTread (s : State) (i : Nat) (d : Tread) (o' : Nat) : (s.setTread i d).ereg o' = s.ereg o' := by
  simp [State.ereg]
@[simp] theorem State.erd_setTread (s : State) (i : Nat) (d : Tread) (f' : Fld) : (s.setTread i d).erd f' = s.erd f' := by simp [State.erd]
@[simp] theorem State.erdB_setTread (s : State) (i : Nat) (d : Tread) (f' : Fld) : (s.setTread i d).erdB f' = s.erdB f' := by simp [State.erdB]
@[simp] theorem State.rdI_setTread (s : State) (i : Nat) (d : Tread) (f' : Fld) : (s.setTread i d).rdI f' = s.rdI f' := by simp [State.rdI]

/-! `State.updTread` -/
@[simp] theorem State.seg_updTread (s : State) (i : Nat) (f : Tread → Tread) (j' : Nat) : (s.updTread i f).seg j' = s.seg j' := by
  simp [State.seg]
@[simp] theorem State.port_updTread (s : State) (i : Nat) (f : Tread → Tread) (r' : Nat) : (s.updTread i f).port r' = s.port r' := by
  simp [State.port]
@[simp] theorem State.hring_updTread (s : State) (i : Nat) (f : Tread → Tread) (n' : Nat) : (s.updTread i f).hring n' = s.hring n' := by
  simp [State.hring]
@[simp] theorem State.iq_updTread (s : State) (i : Nat) (f : Tread → Tread) (q' : Nat) : (s.updTread i f).iq q' = s.iq q' := by
  simp [State.iq]
@[simp] theorem State.thr_updTread (s : State) (i : Nat) (f : Tread → Tread) (t' : Nat) : (s.updTread i f).thr t' = s.thr t' := by
  simp [State.thr]
@[simp] theorem State.canSt_updTread (s : State) (i : Nat) (f : Tread → Tread) (n' : Nat) : (s.updTread i f).canSt n' = s.canSt n' := by
  simp [State.canSt]
@[simp] theorem State.chan_updTread (s : State) (i : Nat) (f : Tread → Tread) (c' : Nat) : (s.updTread i f).chan c' = s.chan c' := by
  simp [State.chan]
@[simp] theorem State.galCell_updTread (s : State) (i : Nat) (f : Tread → Tread) (i' : Nat) : (s.updTread i f).galCell i' = s.galCell i' := by
  simp [State.galCell]
@[simp] theorem State.galArm_updTread (s : State) (i : Nat) (f : Tread → Tread) (a' : Nat) : (s.updTread i f).galArm a' = s.galArm a' := by
  simp [State.galArm]
@[simp] theorem State.hub_updTread (s : State) (i : Nat) (f : Tread → Tread) (d' : Nat) : (s.updTread i f).hub d' = s.hub d' := by
  simp [State.hub]
@[simp] theorem State.waiting_updTread (s : State) (i : Nat) (f : Tread → Tread) (r' : Nat) : (s.updTread i f).waiting r' = s.waiting r' := by
  simp [State.waiting]
@[simp] theorem State.blk_updTread (s : State) (i : Nat) (f : Tread → Tread) (b' : Nat) : (s.updTread i f).blk b' = s.blk b' := by
  simp [State.blk]
@[simp] theorem State.ereg_updTread (s : State) (i : Nat) (f : Tread → Tread) (o' : Nat) : (s.updTread i f).ereg o' = s.ereg o' := by
  simp [State.ereg]
@[simp] theorem State.erd_updTread (s : State) (i : Nat) (f : Tread → Tread) (f' : Fld) : (s.updTread i f).erd f' = s.erd f' := by simp [State.erd]
@[simp] theorem State.erdB_updTread (s : State) (i : Nat) (f : Tread → Tread) (f' : Fld) : (s.updTread i f).erdB f' = s.erdB f' := by simp [State.erdB]
@[simp] theorem State.rdI_updTread (s : State) (i : Nat) (f : Tread → Tread) (f' : Fld) : (s.updTread i f).rdI f' = s.rdI f' := by simp [State.rdI]

/-! `State.setCan` -/
@[simp] theorem State.seg_setCan (s : State) (n : Nat) (c : CanSt) (j' : Nat) : (s.setCan n c).seg j' = s.seg j' := by
  simp [State.seg]
@[simp] theorem State.port_setCan (s : State) (n : Nat) (c : CanSt) (r' : Nat) : (s.setCan n c).port r' = s.port r' := by
  simp [State.port]
@[simp] theorem State.hring_setCan (s : State) (n : Nat) (c : CanSt) (n' : Nat) : (s.setCan n c).hring n' = s.hring n' := by
  simp [State.hring]
@[simp] theorem State.iq_setCan (s : State) (n : Nat) (c : CanSt) (q' : Nat) : (s.setCan n c).iq q' = s.iq q' := by
  simp [State.iq]
@[simp] theorem State.thr_setCan (s : State) (n : Nat) (c : CanSt) (t' : Nat) : (s.setCan n c).thr t' = s.thr t' := by
  simp [State.thr]
@[simp] theorem State.chan_setCan (s : State) (n : Nat) (c : CanSt) (c' : Nat) : (s.setCan n c).chan c' = s.chan c' := by
  simp [State.chan]
@[simp] theorem State.galCell_setCan (s : State) (n : Nat) (c : CanSt) (i' : Nat) : (s.setCan n c).galCell i' = s.galCell i' := by
  simp [State.galCell]
@[simp] theorem State.galArm_setCan (s : State) (n : Nat) (c : CanSt) (a' : Nat) : (s.setCan n c).galArm a' = s.galArm a' := by
  simp [State.galArm]
@[simp] theorem State.hub_setCan (s : State) (n : Nat) (c : CanSt) (d' : Nat) : (s.setCan n c).hub d' = s.hub d' := by
  simp [State.hub]
@[simp] theorem State.waiting_setCan (s : State) (n : Nat) (c : CanSt) (r' : Nat) : (s.setCan n c).waiting r' = s.waiting r' := by
  simp [State.waiting]
@[simp] theorem State.tread_setCan (s : State) (n : Nat) (c : CanSt) (i' : Nat) : (s.setCan n c).tread i' = s.tread i' := by
  simp [State.tread]
@[simp] theorem State.blk_setCan (s : State) (n : Nat) (c : CanSt) (b' : Nat) : (s.setCan n c).blk b' = s.blk b' := by
  simp [State.blk]
@[simp] theorem State.ereg_setCan (s : State) (n : Nat) (c : CanSt) (o' : Nat) : (s.setCan n c).ereg o' = s.ereg o' := by
  simp [State.ereg]
@[simp] theorem State.erd_setCan (s : State) (n : Nat) (c : CanSt) (f' : Fld) : (s.setCan n c).erd f' = s.erd f' := by simp [State.erd]
@[simp] theorem State.erdB_setCan (s : State) (n : Nat) (c : CanSt) (f' : Fld) : (s.setCan n c).erdB f' = s.erdB f' := by simp [State.erdB]
@[simp] theorem State.rdI_setCan (s : State) (n : Nat) (c : CanSt) (f' : Fld) : (s.setCan n c).rdI f' = s.rdI f' := by simp [State.rdI]

/-! `State.setChan` -/
@[simp] theorem State.seg_setChan (s : State) (c : Nat) (m : MiChan) (j' : Nat) : (s.setChan c m).seg j' = s.seg j' := by
  simp [State.seg]
@[simp] theorem State.port_setChan (s : State) (c : Nat) (m : MiChan) (r' : Nat) : (s.setChan c m).port r' = s.port r' := by
  simp [State.port]
@[simp] theorem State.hring_setChan (s : State) (c : Nat) (m : MiChan) (n' : Nat) : (s.setChan c m).hring n' = s.hring n' := by
  simp [State.hring]
@[simp] theorem State.iq_setChan (s : State) (c : Nat) (m : MiChan) (q' : Nat) : (s.setChan c m).iq q' = s.iq q' := by
  simp [State.iq]
@[simp] theorem State.thr_setChan (s : State) (c : Nat) (m : MiChan) (t' : Nat) : (s.setChan c m).thr t' = s.thr t' := by
  simp [State.thr]
@[simp] theorem State.canSt_setChan (s : State) (c : Nat) (m : MiChan) (n' : Nat) : (s.setChan c m).canSt n' = s.canSt n' := by
  simp [State.canSt]
@[simp] theorem State.galCell_setChan (s : State) (c : Nat) (m : MiChan) (i' : Nat) : (s.setChan c m).galCell i' = s.galCell i' := by
  simp [State.galCell]
@[simp] theorem State.galArm_setChan (s : State) (c : Nat) (m : MiChan) (a' : Nat) : (s.setChan c m).galArm a' = s.galArm a' := by
  simp [State.galArm]
@[simp] theorem State.hub_setChan (s : State) (c : Nat) (m : MiChan) (d' : Nat) : (s.setChan c m).hub d' = s.hub d' := by
  simp [State.hub]
@[simp] theorem State.waiting_setChan (s : State) (c : Nat) (m : MiChan) (r' : Nat) : (s.setChan c m).waiting r' = s.waiting r' := by
  simp [State.waiting]
@[simp] theorem State.tread_setChan (s : State) (c : Nat) (m : MiChan) (i' : Nat) : (s.setChan c m).tread i' = s.tread i' := by
  simp [State.tread]
@[simp] theorem State.blk_setChan (s : State) (c : Nat) (m : MiChan) (b' : Nat) : (s.setChan c m).blk b' = s.blk b' := by
  simp [State.blk]
@[simp] theorem State.ereg_setChan (s : State) (c : Nat) (m : MiChan) (o' : Nat) : (s.setChan c m).ereg o' = s.ereg o' := by
  simp [State.ereg]
@[simp] theorem State.erd_setChan (s : State) (c : Nat) (m : MiChan) (f' : Fld) : (s.setChan c m).erd f' = s.erd f' := by simp [State.erd]
@[simp] theorem State.erdB_setChan (s : State) (c : Nat) (m : MiChan) (f' : Fld) : (s.setChan c m).erdB f' = s.erdB f' := by simp [State.erdB]
@[simp] theorem State.rdI_setChan (s : State) (c : Nat) (m : MiChan) (f' : Fld) : (s.setChan c m).rdI f' = s.rdI f' := by simp [State.rdI]

/-! The latest cycle starts. -/
@[simp] theorem State.started_advance (s : State) (t : Time) : (s.advance t).clk.started = s.clk.started := by
  unfold State.advance; split <;> rfl
@[simp] theorem State.starts_advance (s : State) (t : Time) : (s.advance t).clk.starts = s.clk.starts := by
  unfold State.advance; split <;> rfl
@[simp] theorem State.tk_advance (s : State) (t : Time) : (s.advance t).clk.tk = s.clk.tk := by
  unfold State.advance; split <;> rfl
@[simp] theorem State.tkHall_advance (s : State) (t : Time) : (s.advance t).clk.tkHall = s.clk.tkHall := by
  unfold State.advance; split <;> rfl
@[simp] theorem State.started_advanceHall (s : State) (h : Time) : (s.advanceHall h).clk.started = s.clk.started := by
  unfold State.advanceHall; split <;> rfl
@[simp] theorem State.starts_advanceHall (s : State) (h : Time) : (s.advanceHall h).clk.starts = s.clk.starts := by
  unfold State.advanceHall; split <;> rfl
@[simp] theorem State.tkHall_advanceHall (s : State) (h : Time) : (s.advanceHall h).clk.tkHall = s.clk.tkHall := by
  unfold State.advanceHall; split <;> rfl

end Sys2Proof.Machine
end

