-- ==== Sys2Proof/Laws/Gate.lean ====
section
/-!
SUPPORT. Laws/Gate.lean: what a command reaches: the gates of Machine/Reach.lean, opened for a hub whose islands run and
for a Tread with supply, and what they leave.
-/

namespace Sys2Proof.Machine

theorem State.onHub_awake (s : State) (f : State → State) (h : s.pwr.held = false) : s.onHub f = s.onChip f := by
  simp [State.onHub, h]
theorem State.onHubAt_awake (s : State) (t : Time) (f : State → State) (h : s.pwr.held = false) :
    s.onHubAt t f = s.onChip (fun s => f (s.advance t)) := State.onHub_awake s _ h
theorem State.onSafety_awake (s : State) (f : State → State) (h : s.pwr.held = false) : s.onSafety f = s.onChip f := by
  simp [State.onSafety, h]
theorem State.onSafetyAt_awake (s : State) (t : Time) (f : State → State) (h : s.pwr.held = false) :
    s.onSafetyAt t f = s.onChip (fun s => f (s.advance t)) := State.onSafety_awake s _ h
theorem State.onTread_powered (s : State) (i : Cell) (f : Tread → Tread) (h : (s.tread i).powered = true) :
    s.onTread i f = s.updTread i f := by simp [State.onTread, h]
theorem Tread.onSupply_powered {d : Tread} (h : d.onSupply = true) : d.powered = true := by
  unfold Tread.onSupply at h; simp only [Bool.and_eq_true] at h; exact h.1
theorem Tread.supplied_on (d : Tread) (t : Time) (f : Tread → Tread) (h : d.onSupply = true) :
    (d.advance t).supplied f = f (d.advance t) := by
  have hl : (d.advance t).lowAt = none := by
    have : (d.advance t).lowAt = d.lowAt := by unfold Tread.advance; split <;> rfl
    unfold Tread.onSupply at h; simp only [Bool.and_eq_true, Option.isNone_iff_eq_none] at h
    rw [this]; exact h.2
  unfold Tread.supplied; rw [hl]
theorem State.onTreadAt_powered (s : State) (i : Cell) (t : Time) (f : Tread → Tread) (h : (s.tread i).onSupply = true) :
    s.onTreadAt i t f = s.updTread i (fun d => f (d.advance t)) := by
  unfold State.onTreadAt
  rw [State.onTread_powered s i _ (Tread.onSupply_powered h)]
  unfold State.updTread
  simp only [Tread.supplied_on _ _ _ h]

/-- A held hub takes no command of its islands (R480, R486). -/
theorem State.onHub_held (s : State) (f : State → State) (h : s.pwr.held = true) : s.onHub f = s := by
  simp [State.onHub, h]
theorem State.onTread_off (s : State) (i : Cell) (f : Tread → Tread) (h : (s.tread i).powered = false) :
    s.onTread i f = s := by simp [State.onTread, h]

@[simp] theorem State.onChip_treads (s : State) (f : State → State) : (s.onChip f).treads = s.treads := (rfl)
@[simp] theorem State.onChip_coreMem (s : State) (f : State → State) : (s.onChip f).coreMem = s.coreMem := (rfl)
@[simp] theorem State.onChip_pending (s : State) (f : State → State) : (s.onChip f).pending = s.pending := (rfl)
@[simp] theorem State.onChip_regs (s : State) (f : State → State) : (s.onChip f).regs = (f s).regs := (rfl)
@[simp] theorem State.onChip_eff (s : State) (f : State → State) : (s.onChip f).eff = (f s).eff := (rfl)
@[simp] theorem State.onChip_clk (s : State) (f : State → State) : (s.onChip f).clk = (f s).clk := (rfl)
@[simp] theorem State.onChip_prb (s : State) (f : State → State) : (s.onChip f).prb = (f s).prb := (rfl)
@[simp] theorem State.onChip_pwr (s : State) (f : State → State) : (s.onChip f).pwr = (f s).pwr := (rfl)
@[simp] theorem State.onChip_arb (s : State) (f : State → State) : (s.onChip f).arb = (f s).arb := (rfl)
@[simp] theorem State.onChip_flt (s : State) (f : State → State) : (s.onChip f).flt = (f s).flt := (rfl)
@[simp] theorem State.onChip_evc (s : State) (f : State → State) : (s.onChip f).evc = (f s).evc := (rfl)
@[simp] theorem State.onChip_recd (s : State) (f : State → State) : (s.onChip f).recd = (f s).recd := (rfl)
@[simp] theorem State.onChip_host (s : State) (f : State → State) : (s.onChip f).host = (f s).host := (rfl)
@[simp] theorem State.onChip_hostMem (s : State) (f : State → State) : (s.onChip f).hostMem = (f s).hostMem := (rfl)
@[simp] theorem State.onChip_ports (s : State) (f : State → State) : (s.onChip f).ports = (f s).ports := (rfl)
@[simp] theorem State.onChip_mi (s : State) (f : State → State) : (s.onChip f).mi = (f s).mi := (rfl)
@[simp] theorem State.onChip_miApply (s : State) (f : State → State) : (s.onChip f).miApply = (f s).miApply := (rfl)
@[simp] theorem State.onChip_miLog (s : State) (f : State → State) : (s.onChip f).miLog = (f s).miLog := (rfl)
@[simp] theorem State.onChip_ace (s : State) (f : State → State) : (s.onChip f).ace = (f s).ace := (rfl)
@[simp] theorem State.onChip_gal (s : State) (f : State → State) : (s.onChip f).gal = (f s).gal := (rfl)
@[simp] theorem State.onChip_uplinks (s : State) (f : State → State) : (s.onChip f).uplinks = (f s).uplinks := (rfl)
@[simp] theorem State.onChip_downlinks (s : State) (f : State → State) : (s.onChip f).downlinks = (f s).downlinks := (rfl)
@[simp] theorem State.onChip_cellWin (s : State) (f : State → State) : (s.onChip f).cellWin = (f s).cellWin := (rfl)
@[simp] theorem State.onChip_saf (s : State) (f : State → State) : (s.onChip f).saf = (f s).saf := (rfl)
@[simp] theorem State.onChip_stk (s : State) (f : State → State) : (s.onChip f).stk = (f s).stk := (rfl)
@[simp] theorem State.onChip_sch (s : State) (f : State → State) : (s.onChip f).sch = (f s).sch := (rfl)
@[simp] theorem State.onChip_can (s : State) (f : State → State) : (s.onChip f).can = (f s).can := (rfl)
@[simp] theorem State.onChip_freeCtr (s : State) (f : State → State) : (s.onChip f).freeCtr = (f s).freeCtr := (rfl)
@[simp] theorem State.onChip_rdata (s : State) (f : State → State) : (s.onChip f).rdata = (f s).rdata := (rfl)
@[simp] theorem State.onChip_reg (s : State) (f : State → State) (o : Nat) : (s.onChip f).reg o = (f s).reg o := (rfl)
@[simp] theorem State.onChip_ereg (s : State) (f : State → State) (o : Nat) : (s.onChip f).ereg o = (f s).ereg o := (rfl)
@[simp] theorem State.onChip_rd (s : State) (f : State → State) (g : Fld) : (s.onChip f).rd g = (f s).rd g := (rfl)
@[simp] theorem State.onChip_rdB (s : State) (f : State → State) (g : Fld) : (s.onChip f).rdB g = (f s).rdB g := (rfl)
@[simp] theorem State.onChip_rdI (s : State) (f : State → State) (g : Fld) : (s.onChip f).rdI g = (f s).rdI g := (rfl)
@[simp] theorem State.onChip_port (s : State) (f : State → State) (r : Nat) : (s.onChip f).port r = (f s).port r := (rfl)
@[simp] theorem State.onChip_iq (s : State) (f : State → State) (q : Nat) : (s.onChip f).iq q = (f s).iq q := (rfl)
@[simp] theorem State.onChip_hring (s : State) (f : State → State) (n : Nat) : (s.onChip f).hring n = (f s).hring n := (rfl)
@[simp] theorem State.onChip_canSt (s : State) (f : State → State) (n : Nat) : (s.onChip f).canSt n = (f s).canSt n := (rfl)
@[simp] theorem State.onChip_chan (s : State) (f : State → State) (c : Nat) : (s.onChip f).chan c = (f s).chan c := (rfl)
@[simp] theorem State.onChip_seg (s : State) (f : State → State) (j : Nat) : (s.onChip f).seg j = (f s).seg j := (rfl)
@[simp] theorem State.onChip_galCell (s : State) (f : State → State) (i : Nat) : (s.onChip f).galCell i = (f s).galCell i := (rfl)
@[simp] theorem State.onChip_galArm (s : State) (f : State → State) (a : Nat) : (s.onChip f).galArm a = (f s).galArm a := (rfl)
@[simp] theorem State.onChip_hub (s : State) (f : State → State) (d : Nat) : (s.onChip f).hub d = (f s).hub d := (rfl)
@[simp] theorem State.onChip_thr (s : State) (f : State → State) (t : Nat) : (s.onChip f).thr t = (f s).thr t := (rfl)
@[simp] theorem State.onChip_waiting (s : State) (f : State → State) (r : Nat) : (s.onChip f).waiting r = (f s).waiting r := (rfl)

/-! Frames of the gates. -/

@[simp] theorem State.onHub_treads (s : State) (f : State → State) : (s.onHub f).treads = s.treads := by
  unfold State.onHub; split <;> rfl
@[simp] theorem State.onHub_coreMem (s : State) (f : State → State) : (s.onHub f).coreMem = s.coreMem := by
  unfold State.onHub; split <;> rfl
@[simp] theorem State.onHub_pending (s : State) (f : State → State) : (s.onHub f).pending = s.pending := by
  unfold State.onHub; split <;> rfl
@[simp] theorem State.onHubAt_treads (s : State) (t : Time) (f : State → State) : (s.onHubAt t f).treads = s.treads :=
  State.onHub_treads s _
@[simp] theorem State.onHubAt_coreMem (s : State) (t : Time) (f : State → State) : (s.onHubAt t f).coreMem = s.coreMem :=
  State.onHub_coreMem s _
@[simp] theorem State.onHubAt_pending (s : State) (t : Time) (f : State → State) : (s.onHubAt t f).pending = s.pending :=
  State.onHub_pending s _
@[simp] theorem State.whileHeld_treads (s : State) (f : State → State) : (s.whileHeld f).treads = s.treads := (rfl)
@[simp] theorem State.whileHeld_coreMem (s : State) (f : State → State) : (s.whileHeld f).coreMem = s.coreMem := (rfl)
@[simp] theorem State.whileHeld_pending (s : State) (f : State → State) : (s.whileHeld f).pending = s.pending := (rfl)
@[simp] theorem State.onSafety_treads (s : State) (f : State → State) : (s.onSafety f).treads = s.treads := by
  unfold State.onSafety; split <;> rfl
@[simp] theorem State.onSafety_coreMem (s : State) (f : State → State) : (s.onSafety f).coreMem = s.coreMem := by
  unfold State.onSafety; split <;> rfl
@[simp] theorem State.onSafety_pending (s : State) (f : State → State) : (s.onSafety f).pending = s.pending := by
  unfold State.onSafety; split <;> rfl
@[simp] theorem State.onSafetyAt_treads (s : State) (t : Time) (f : State → State) :
    (s.onSafetyAt t f).treads = s.treads := State.onSafety_treads s _
@[simp] theorem State.onSafetyAt_coreMem (s : State) (t : Time) (f : State → State) :
    (s.onSafetyAt t f).coreMem = s.coreMem := State.onSafety_coreMem s _
@[simp] theorem State.onSafetyAt_pending (s : State) (t : Time) (f : State → State) :
    (s.onSafetyAt t f).pending = s.pending := State.onSafety_pending s _
@[simp] theorem State.onHubMem_treads (s : State) (f : State → State) : (s.onHubMem f).treads = s.treads := by
  unfold State.onHubMem; split <;> rfl
@[simp] theorem State.onHubMem_pending (s : State) (f : State → State) : (s.onHubMem f).pending = s.pending := by
  unfold State.onHubMem; split <;> rfl
@[simp] theorem State.onPass_treads (s : State) (f : State → State × List (Nat × Nat)) : (s.onPass f).treads = s.treads := by
  unfold State.onPass; split <;> rfl
@[simp] theorem State.onPass_pending (s : State) (f : State → State × List (Nat × Nat)) :
    (s.onPass f).pending = s.pending := by
  unfold State.onPass; split <;> rfl
@[simp] theorem State.onTread_pending (s : State) (i : Cell) (f : Tread → Tread) : (s.onTread i f).pending = s.pending := by
  unfold State.onTread; split <;> rfl
@[simp] theorem State.onTread_coreMem (s : State) (i : Cell) (f : Tread → Tread) : (s.onTread i f).coreMem = s.coreMem := by
  unfold State.onTread; split <;> rfl
@[simp] theorem State.onTreadAt_pending (s : State) (i : Cell) (t : Time) (f : Tread → Tread) :
    (s.onTreadAt i t f).pending = s.pending := State.onTread_pending s i _
@[simp] theorem State.onTreadAt_coreMem (s : State) (i : Cell) (t : Time) (f : Tread → Tread) :
    (s.onTreadAt i t f).coreMem = s.coreMem := State.onTread_coreMem s i _

@[simp] theorem State.onTreadLane_pending (s : State) (i : Cell) (t : Time) (f : State → State) :
    (s.onTreadLane i t f).pending = s.pending := State.onTread_pending s i _
@[simp] theorem State.onTreadLane_coreMem (s : State) (i : Cell) (t : Time) (f : State → State) :
    (s.onTreadLane i t f).coreMem = s.coreMem := State.onTread_coreMem s i _
@[simp] theorem State.onLane_pending (s : State) (l : Lane) (t : Time) (f : Lane → State → State) :
    (s.onLane l t f).pending = s.pending := by cases l <;> simp [State.onLane]
@[simp] theorem State.onLane_coreMem (s : State) (l : Lane) (t : Time) (f : Lane → State → State) :
    (s.onLane l t f).coreMem = s.coreMem := by cases l <;> simp [State.onLane]
@[simp] theorem State.onBus_pending (s : State) (b : Option Cell) (t : Time) (f : State → State) (g : Tread → Tread) :
    (s.onBus b t f g).pending = s.pending := by cases b <;> simp [State.onBus]
@[simp] theorem State.onBus_coreMem (s : State) (b : Option Cell) (t : Time) (f : State → State) (g : Tread → Tread) :
    (s.onBus b t f g).coreMem = s.coreMem := by cases b <;> simp [State.onBus]
@[simp] theorem State.readBus_pending (s : State) (b : Option Cell) (t : Time) (f : State → State)
    (g : Tread → Tread × Word) : (s.readBus b t f g).pending = s.pending := by
  cases b
  · simp [State.readBus]
  · simp only [State.readBus]; split <;> rfl
@[simp] theorem State.readBus_coreMem (s : State) (b : Option Cell) (t : Time) (f : State → State)
    (g : Tread → Tread × Word) : (s.readBus b t f g).coreMem = s.coreMem := by
  cases b
  · simp [State.readBus]
  · simp only [State.readBus]; split <;> rfl

/-- A command of one Tread leaves the others. -/
theorem State.tread_onTread_other (s : State) (i : Cell) (j : Nat) (f : Tread → Tread) (h : j ≠ i.val) :
    (s.onTread i f).tread j = s.tread j := by
  unfold State.onTread
  split
  · exact State.tread_updTread_other s i j f h
  · rfl
/-- A command of a Tread leaves everything but the Treads. -/
theorem State.onTread_eq (s : State) (i : Cell) (f : Tread → Tread) :
    s.onTread i f = { s with treads := (s.onTread i f).treads } := by
  unfold State.onTread; split <;> rfl

end Sys2Proof.Machine
end

