-- ==== Sys2Proof/Laws/Raise.lean ====
section
/-!
SUPPORT. Laws/Raise.lean: what a raise of a fault source leaves (R317, R322, R334): everything but the fault collector,
the queues, rings and recorder that its record reaches, the messages it sends and the trip it asks for; it sets the
source's latch and clears none.
-/

namespace Sys2Proof.Machine

theorem RaiseKeeps.refl (s : State) : RaiseKeeps s s := by
  constructor <;> intros <;> first | rfl | assumption

theorem RaiseKeeps.trans {s t u : State} (a : RaiseKeeps s t) (b : RaiseKeeps t u) : RaiseKeeps s u where
  eff := b.eff.trans a.eff
  clk := b.clk.trans a.clk
  prb := b.prb.trans a.prb
  pwr := b.pwr.trans a.pwr
  arb := b.arb.trans a.arb
  coreMem := b.coreMem.trans a.coreMem
  ports := b.ports.trans a.ports
  mi := b.mi.trans a.mi
  miApply := b.miApply.trans a.miApply
  miLog := b.miLog.trans a.miLog
  miHeld := b.miHeld.trans a.miHeld
  ace := b.ace.trans a.ace
  gal := b.gal.trans a.gal
  treads := b.treads.trans a.treads
  uplinks := b.uplinks.trans a.uplinks
  downlinks := b.downlinks.trans a.downlinks
  cellWin := b.cellWin.trans a.cellWin
  can := b.can.trans a.can
  freeCtr := b.freeCtr.trans a.freeCtr
  rdata := b.rdata.trans a.rdata
  pending := b.pending.trans a.pending
  reg o h := (b.reg o h).trans (a.reg o h)
  latch j k h hj := b.latch j k (a.latch j k h hj) hj

/-- A register that a raise may write and that is no latch. -/
def loudReg (o : Nat) : Prop := ¬ quietReg o ∧ (o < 0x3C0040 ∨ 0x3C0084 ≤ o)

theorem RaiseKeeps.wr (s : State) (f : Fld) (v : Nat) (h : loudReg f.reg) : RaiseKeeps s (s.wr f v) := by
  constructor <;> try rfl
  · intro o ho
    exact State.reg_wr_other s f v o (fun e => h.1 (e ▸ ho))
  · intro j b hb hj
    have : R.FLT_LATCH j ≠ f.reg := by
      have := h.2
      unfold R.FLT_LATCH; omega
    unfold State.latched State.rdB at *
    rw [State.rd_wr_reg _ _ _ _ this]
    exact hb

theorem RaiseKeeps.wrB (s : State) (f : Fld) (v : Bool) (h : loudReg f.reg) : RaiseKeeps s (s.wrB f v) := .wr s f _ h
theorem RaiseKeeps.incSat (s : State) (f : Fld) (n : Nat) (h : loudReg f.reg) : RaiseKeeps s (s.incSat f n) := .wr s f _ h
theorem RaiseKeeps.incWrap (s : State) (f : Fld) (n : Nat) (h : loudReg f.reg) : RaiseKeeps s (s.incWrap f n) := .wr s f _ h

/-- A state that differs only in fields a raise may change, with the registers the same. -/
theorem RaiseKeeps.of_regs {s t : State} (h : t.regs = s.regs) (h1 : t.eff = s.eff) (h2 : t.clk = s.clk)
    (h3 : t.prb = s.prb) (h4 : t.pwr = s.pwr) (h5 : t.arb = s.arb) (h6 : t.coreMem = s.coreMem) (h7 : t.ports = s.ports)
    (h8 : t.mi = s.mi) (h9 : t.miApply = s.miApply) (h10 : t.miLog = s.miLog) (h11 : t.ace = s.ace) (h12 : t.gal = s.gal)
    (h13 : t.treads = s.treads) (h14 : t.uplinks = s.uplinks) (h15 : t.downlinks = s.downlinks)
    (h16 : t.cellWin = s.cellWin) (h17 : t.can = s.can) (h18 : t.freeCtr = s.freeCtr) (h19 : t.rdata = s.rdata)
    (h20 : t.pending = s.pending) (h21 : t.miHeld = s.miHeld) : RaiseKeeps s t := by
  constructor <;> try assumption
  · intro o _; unfold State.reg; rw [h]
  · intro j b hb _; unfold State.latched State.rdB State.rd State.reg at *; rw [h]; exact hb

theorem RaiseKeeps.foldl {α : Type} (f : State → α → State) (l : List α) (h : ∀ s x, RaiseKeeps s (f s x)) (s : State) :
    RaiseKeeps s (l.foldl f s) := by
  induction l generalizing s with
  | nil => exact .refl s
  | cons x r ih => exact (h s x).trans (ih _)

/-! The operations of a raise. -/

theorem RaiseKeeps.makeReady (s : State) (t : Nat) : RaiseKeeps s (s.makeReady t) := by
  unfold State.makeReady State.setThrState
  refine RaiseKeeps.trans (t := s.setThr t { s.thr t with wake := none, q := none, cyc := none }) ?_ (.wr _ _ _ ?_)
  · exact .of_regs rfl rfl rfl rfl rfl rfl rfl rfl rfl rfl rfl rfl rfl rfl rfl rfl rfl rfl rfl rfl rfl rfl
  · simp only [loudReg, quietReg, F.SCH_THR_STAT_STATE]; omega

theorem RaiseKeeps.condWins (s : State) (t : Nat) : RaiseKeeps s (s.condWins t) := by
  have h (x : Thr) : RaiseKeeps s ((s.setThr t x).wrB (F.SCH_THR_STAT_TIMEOUT t) false) :=
    RaiseKeeps.trans (t := s.setThr t x)
      (.of_regs rfl rfl rfl rfl rfl rfl rfl rfl rfl rfl rfl rfl rfl rfl rfl rfl rfl rfl rfl rfl rfl rfl)
      (.wrB _ (F.SCH_THR_STAT_TIMEOUT t) false (by simp only [loudReg, quietReg, F.SCH_THR_STAT_TIMEOUT]; omega))
  exact (h _).trans (.wr _ F.SCH_CNT_TIMEOUTS _ (by simp [loudReg, quietReg, F.SCH_CNT_TIMEOUTS]))

theorem RaiseKeeps.wakeQueue (s : State) (q : Nat) : RaiseKeeps s (s.wakeQueue q) := by
  unfold State.wakeQueue
  extract_lets s1
  have a : RaiseKeeps s s1 := .foldl (fun s (p : Nat × Thr) => s.condWins p.1) _ (fun s p => .condWins s p.1) s
  exact a.trans (.foldl (fun s (p : Nat × Thr) => s.makeReady p.1) _ (fun s p => .makeReady s p.1) s1)

theorem RaiseKeeps.setIq (s : State) (q : Nat) (x : IQueue) : RaiseKeeps s (s.setIq q x) :=
  .of_regs rfl rfl rfl rfl rfl rfl rfl rfl rfl rfl rfl rfl rfl rfl rfl rfl rfl rfl rfl rfl rfl rfl

theorem RaiseKeeps.count (s : State) (src n : Nat) : RaiseKeeps s (s.count src n) := by
  unfold State.count
  split
  · exact .refl s
  · exact .of_regs rfl rfl rfl rfl rfl rfl rfl rfl rfl rfl rfl rfl rfl rfl rfl rfl rfl rfl rfl rfl rfl rfl

theorem RaiseKeeps.iqPush (s : State) (q item : Nat) (hq : q < 64) : RaiseKeeps s (s.iqPush q item).1 := by
  unfold State.iqPush
  extract_lets x it full l n old new first s1 s2
  have h : RaiseKeeps s s2 := (RaiseKeeps.setIq s q _).trans (.wakeQueue s1 q)
  split
  · exact (h.trans (.incSat _ _ _ (by simp only [loudReg, quietReg, F.FLT_IQ_STAT_LOST]; omega))).trans (.count _ _ _)
  · exact h

theorem RaiseKeeps.hostMem (s : State) (m : List Host.Cell) : RaiseKeeps s { s with hostMem := m } :=
  .of_regs rfl rfl rfl rfl rfl rfl rfl rfl rfl rfl rfl rfl rfl rfl rfl rfl rfl rfl rfl rfl rfl rfl

theorem RaiseKeeps.setHring (s : State) (n : Nat) (h : HostRing) : RaiseKeeps s (s.setHring n h) :=
  .of_regs rfl rfl rfl rfl rfl rfl rfl rfl rfl rfl rfl rfl rfl rfl rfl rfl rfl rfl rfl rfl rfl rfl

theorem RaiseKeeps.msix (s : State) (v : Nat) (hv : v < 128) : RaiseKeeps s (s.msix v) := by
  unfold State.msix
  extract_lets e
  split
  · exact .hostMem s _
  · exact .wr _ _ _ (by simp only [loudReg, quietReg]; omega)

theorem State.rd_lt (s : State) (f : Fld) : s.rd f < 2 ^ f.w := bits_lt _ _ _

theorem RaiseKeeps.hqErr (s : State) (f : Fld) (h : loudReg f.reg) : RaiseKeeps s (s.hqErr f) := by
  unfold State.hqErr State.errVec
  refine (RaiseKeeps.wrB s f true h).trans ?_
  split
  · exact .msix _ _ (State.rd_lt _ F.HQ_ERR_VEC_VEC)
  · exact .refl _

theorem RaiseKeeps.consume (s : State) (n : Nat) (hn : n < 64) : RaiseKeeps s (s.consume n) := by
  unfold State.consume
  extract_lets nx s1
  have h : RaiseKeeps s s1 := .wr _ _ _ (by simp only [loudReg, quietReg, F.HQ_RING_STAT_HUB_IDX]; omega)
  split
  · exact h.trans (.wr _ _ _ (by simp only [loudReg, quietReg, F.HQ_RING_STAT_PHASE]; omega))
  · exact h

theorem RaiseKeeps.ringSignal (s : State) (n : Nat) : RaiseKeeps s (s.ringSignal n) := by
  unfold State.ringSignal
  split
  · extract_lets h c
    split
    · exact (RaiseKeeps.setHring _ _ _).trans (.msix _ _ (State.rd_lt s (F.HQ_RING_CFG_VEC n)))
    · exact .setHring _ _ _
  · exact .refl _

theorem RaiseKeeps.ringWrite (s : State) (n entry : Nat) (hn : n < 64) : RaiseKeeps s (s.ringWrite n entry) :=
  (RaiseKeeps.trans (RaiseKeeps.hostMem s _) (.consume _ n hn)).trans (.ringSignal _ _)

theorem RaiseKeeps.loseEvent (s : State) (n : Nat) (h : HostRing) (sq : Nat) (hn : n < 64) :
    RaiseKeeps s (s.loseEvent n h sq) :=
  (RaiseKeeps.trans (RaiseKeeps.setHring s _ _) (.incSat _ _ _ (by simp only [loudReg, quietReg, F.HQ_RING_CNT_LOST]; omega))).trans
    (.hqErr _ _ (by simp [loudReg, quietReg, F.HQ_ERR_EV_LOST]))

theorem RaiseKeeps.placeEvent (s : State) (n e : Nat) (hn : n < 64) : RaiseKeeps s (s.placeEvent n e).1 := by
  unfold State.placeEvent
  extract_lets h
  split
  · exact .loseEvent _ _ _ _ hn
  · split
    · split
      · exact .loseEvent _ _ _ _ hn
      · exact .setHring _ _ _
    · exact .ringWrite _ _ _ hn

theorem RaiseKeeps.pushEvent (s : State) (n : Nat) (hall : Time) (body : Nat) (hn : n < 64) :
    RaiseKeeps s (s.pushEvent n hall body).1 := (RaiseKeeps.setHring s _ _).trans (.placeEvent _ _ _ hn)

theorem RaiseKeeps.defer5 (s : State) (n : Nat) : RaiseKeeps s (s.defer 5 n) := by
  unfold State.defer
  split
  · exact .refl s
  · exact (RaiseKeeps.incSat s _ _ (by simp [loudReg, quietReg, F.GEN_CONT_COUNT])).trans (.count _ _ _)

theorem RaiseKeeps.titSend (s : State) (m : TitMsg) : RaiseKeeps s (s.titSend m) := by
  unfold State.titSend
  extract_lets r x s1
  have h : RaiseKeeps s s1 :=
    .of_regs rfl rfl rfl rfl rfl rfl rfl rfl rfl rfl rfl rfl rfl rfl rfl rfl rfl rfl rfl rfl rfl rfl
  split
  · exact h.trans (.defer5 _ _)
  · exact h

theorem RaiseKeeps.stkSend (s : State) (dst : Nat) (b : TitBody) : RaiseKeeps s (s.stkSend dst b) := by
  unfold State.stkSend
  extract_lets m
  split
  · exact (RaiseKeeps.titSend _ _).trans (.titSend _ _)
  · exact .titSend _ _

/-- A change of the fault collector, the recorder or the trip request alone. -/
theorem RaiseKeeps.flt (s : State) (x : FltSt) : RaiseKeeps s { s with flt := x } :=
  .of_regs rfl rfl rfl rfl rfl rfl rfl rfl rfl rfl rfl rfl rfl rfl rfl rfl rfl rfl rfl rfl rfl rfl
theorem RaiseKeeps.recd (s : State) (x : RecSt) : RaiseKeeps s { s with recd := x } :=
  .of_regs rfl rfl rfl rfl rfl rfl rfl rfl rfl rfl rfl rfl rfl rfl rfl rfl rfl rfl rfl rfl rfl rfl
theorem RaiseKeeps.saf (s : State) (x : SafSt) : RaiseKeeps s { s with saf := x } :=
  .of_regs rfl rfl rfl rfl rfl rfl rfl rfl rfl rfl rfl rfl rfl rfl rfl rfl rfl rfl rfl rfl rfl rfl

theorem RaiseKeeps.reactHold (s : State) (src sev : Nat) (cell : Option Nat) : RaiseKeeps s (s.reactHold src sev cell) := by
  unfold State.reactHold
  extract_lets cov
  split
  · exact .refl s
  · exact .flt _ _

theorem RaiseKeeps.reactCell (s : State) (src sev c : Nat) (hc : c < 1024) : RaiseKeeps s (s.reactCell src sev c) := by
  unfold State.reactCell
  extract_lets _ s1 s2
  have h : RaiseKeeps s s2 := RaiseKeeps.trans (RaiseKeeps.flt s _) (.wrB s1 (F.FLT_CELL_OOS c) true (by
    simp only [loudReg, quietReg, F.FLT_CELL_OOS]; omega))
  split
  · exact h.trans (.flt _ _)
  · exact h

theorem RaiseKeeps.reactHall (s : State) (sev : Nat) : RaiseKeeps s (s.reactHall sev) := by
  unfold State.reactHall
  extract_lets s1
  have h : RaiseKeeps s s1 := by
    show RaiseKeeps s (if _ then _ else if _ then _ else _)
    split
    · exact .stkSend _ _ _
    · split
      · exact .stkSend _ _ _
      · exact .refl _
  split
  · exact h.trans (.wrB _ _ _ (by simp [loudReg, quietReg, F.FLT_STAT_HALL_BLK]))
  · exact h

theorem RaiseKeeps.reactShow (s : State) (sev arms : Nat) : RaiseKeeps s (s.reactShow sev arms) := by
  unfold State.reactShow
  extract_lets s1
  have h : RaiseKeeps s s1 := .wr _ _ _ (by simp [loudReg, quietReg, F.FLT_STAT_ARM_BLK])
  split
  · exact h.trans ((RaiseKeeps.wrB s1 F.FLT_STAT_TRIP _ (by simp [loudReg, quietReg, F.FLT_STAT_TRIP])).trans (.saf _ _))
  · exact h

theorem RaiseKeeps.react (s : State) (src sev : Nat) (cell : Option Nat) (hc : ∀ c, cell = some c → c < 1024) :
    RaiseKeeps s (s.react src sev cell) := by
  unfold State.react
  refine RaiseKeeps.trans ?_ ((RaiseKeeps.reactHall _ _).trans (.reactShow _ _ _))
  refine (RaiseKeeps.reactHold s src sev cell).trans ?_
  split
  · split
    · exact .reactCell _ _ _ _ (hc _ rfl)
    · exact .refl _
  · exact .refl _

theorem RaiseKeeps.trigLost (s : State) (cyc : Nat) (err : Bool) : RaiseKeeps s (s.trigLost cyc err).1 := by
  unfold State.trigLost
  extract_lets s1 _ s2
  have h0 : RaiseKeeps s (s.incSat F.REC_CNT_LOST) := .incSat _ _ _ (by simp [loudReg, quietReg, F.REC_CNT_LOST])
  have h1 : RaiseKeeps (s.incSat F.REC_CNT_LOST) s1 := .count _ _ _
  have h : RaiseKeeps s s2 := (h0.trans h1).trans (.recd s1 _)
  split
  · exact h.trans (.wrB _ _ _ (by simp [loudReg, quietReg, F.REC_ERR_LOST]))
  · exact h

theorem RaiseKeeps.setSeg (s : State) (j : Nat) (g : Segment) : RaiseKeeps s (s.setSeg j g) := .recd s _

theorem RaiseKeeps.segTrigger (s : State) (src cyc : Nat) (hall : Time) : RaiseKeeps s (s.segTrigger src cyc hall).1 := by
  unfold State.segTrigger
  extract_lets k
  split
  · exact .trigLost _ _ _
  · extract_lets g s1 d
    split
    · split
      · exact .refl s
      · exact (((RaiseKeeps.setSeg s _ _).trans (.wrB s1 F.REC_STAT_POST true (by simp [loudReg, quietReg, F.REC_STAT_POST]))).trans
          (.incSat _ F.REC_CNT_TRIGS 1 (by simp [loudReg, quietReg, F.REC_CNT_TRIGS]))).trans (.count _ _ _)
    · split
      · exact .setSeg _ _ _
      · split
        · exact .setSeg _ _ _
        · split
          · exact .setSeg _ _ _
          · split
            · exact .recd _ _
            · split
              · exact .recd _ _
              · exact .trigLost _ _ _

theorem RaiseKeeps.fireOne (s : State) (src : Nat) (hall : Time) : RaiseKeeps s (s.fireOne src hall).1 := by
  unfold State.fireOne
  extract_lets cyc m _ s1
  split
  · exact .refl s
  · split
    · exact (RaiseKeeps.recd s _).trans (.segTrigger s1 _ _ _)
    · exact .recd s _

/-- A fold that carries a list of further raises beside the state. -/
theorem RaiseKeeps.foldl_fst {α β : Type} (f : State × β → α → State × β) (l : List α)
    (h : ∀ r x, RaiseKeeps r.1 (f r x).1) (r : State × β) : RaiseKeeps r.1 (l.foldl f r).1 := by
  induction l generalizing r with
  | nil => exact .refl _
  | cons x l ih => exact (h r x).trans (ih _)

theorem RaiseKeeps.fire (s : State) (src : Nat) (hall : Time) : RaiseKeeps s (s.fire src hall).1 := by
  unfold State.fire
  extract_lets part dup r
  split
  · exact .fireOne _ _ _
  · refine (RaiseKeeps.fireOne s src hall).trans (.foldl_fst _ _ ?_ _)
    intro r l
    split
    · extract_lets q
      refine RaiseKeeps.trans (t := r.1.driveLine l) ?_ (.fireOne _ _ _)
      have hp : RaiseKeeps r.1 (r.1.pulseLine l) := .recd _ _
      refine hp.trans ?_
      unfold State.driveLine
      extract_lets s1
      split
      · exact .refl _
      · exact .recd _ _
    · exact .refl _

/-- A latch bit is set. -/
theorem RaiseKeeps.setLatch (s : State) (src : Nat) (hs : src < 544) :
    RaiseKeeps s (s.setBit ⟨R.FLT_LATCH (src / 32), 0, 32⟩ (src % 32) true) ∧
      (s.setBit ⟨R.FLT_LATCH (src / 32), 0, 32⟩ (src % 32) true).latched (src / 32) (src % 32) = true := by
  have hw : (s.setBit ⟨R.FLT_LATCH (src / 32), 0, 32⟩ (src % 32) true)
      = s.wr ⟨R.FLT_LATCH (src / 32), src % 32, 1⟩ 1 := by
    simp [State.setBit]
  rw [hw]
  have hb : (s.wr ⟨R.FLT_LATCH (src / 32), src % 32, 1⟩ 1).latched (src / 32) (src % 32) = true := by
    unfold State.latched State.rdB
    rw [State.rd_wr_same _ _ _ (by show src % 32 + 1 ≤ 32; omega)]
    rfl
  refine ⟨?_, hb⟩
  constructor <;> try rfl
  · intro o ho
    apply State.reg_wr_other
    unfold quietReg at ho
    show o ≠ R.FLT_LATCH (src / 32)
    unfold R.FLT_LATCH; omega
  · intro j b h _
    by_cases e : j = src / 32 ∧ b = src % 32
    · rw [e.1, e.2]; exact hb
    · unfold State.latched State.rdB at *
      by_cases hj : j = src / 32
      · have hne : b ≠ src % 32 := fun x => e ⟨hj, x⟩
        by_cases hlt : b + 1 ≤ 32
        · rw [State.rd_wr_fld _ _ _ _ (by exact hlt) (by show src % 32 + 1 ≤ b ∨ b + 1 ≤ src % 32; omega)]
          exact h
        · exfalso
          have : s.rd ⟨R.FLT_LATCH j, b, 1⟩ = 0 := by
            have hz : (s.reg (R.FLT_LATCH j)).toNat / 2 ^ b = 0 := Nat.div_eq_of_lt
              (Nat.lt_of_lt_of_le (s.reg (R.FLT_LATCH j)).isLt (Nat.pow_le_pow_right (by decide) (by omega : 32 ≤ b)))
            show (s.reg (R.FLT_LATCH j)).toNat / 2 ^ b % 2 ^ 1 = 0
            simp only [hz, Nat.zero_mod]
          rw [this] at h; exact absurd h (by decide)
      · rw [State.rd_wr_reg _ _ _ _ (by show R.FLT_LATCH j ≠ R.FLT_LATCH (src / 32); unfold R.FLT_LATCH; omega)]
        exact h

/-- A source of Table 1 of spec/10 has a number below 0x220. -/
theorem srcInfo_lt {src : Nat} {i : SrcInfo} (h : srcInfo src = some i) : src < 544 := by
  unfold srcInfo at h
  split at h; · omega
  split at h; · omega
  split at h; · omega
  split at h; · omega
  split at h; · omega
  split at h; · omega
  split at h; · omega
  split at h; · omega
  · cases h

theorem RaiseKeeps.noteRaise (s : State) (src sev : Nat) (cell : Option Nat) (hs : src < 544) :
    RaiseKeeps s (s.noteRaise src sev cell) ∧ (s.noteRaise src sev cell).latched (src / 32) (src % 32) = true := by
  unfold State.noteRaise
  extract_lets key last x s0 s1 s2 s3
  have h0 : RaiseKeeps s s0 := .flt s _
  have hl := RaiseKeeps.setLatch s0 src hs
  have a : RaiseKeeps s1 s2 := RaiseKeeps.trans
    (.incSat s1 (F.FLT_SEV_COUNT src) 1 (by simp only [loudReg, quietReg, F.FLT_SEV_COUNT]; omega))
    (.incWrap _ _ 1 (by simp [loudReg, quietReg, F.FLT_RAISES_COUNT]))
  have b : RaiseKeeps s2 s3 := RaiseKeeps.trans
    (.wr s2 F.FLT_LAST_SOURCE src (by simp [loudReg, quietReg, F.FLT_LAST_SOURCE]))
    (.wr _ _ _ (by simp [loudReg, quietReg, F.FLT_LAST_SEV]))
  have c : RaiseKeeps s3 _ := RaiseKeeps.trans
    (.wrB s3 F.FLT_LAST_CELLV cell.isSome (by simp [loudReg, quietReg, F.FLT_LAST_CELLV]))
    (.wr _ F.FLT_LAST_LOCAL (cell.getD 0) (by simp [loudReg, quietReg, F.FLT_LAST_LOCAL]))
  have d := (a.trans b).trans c
  split
  · exact ⟨(h0.trans hl.1).trans d, d.latch _ _ hl.2 (by omega)⟩
  · exact ⟨(h0.trans hl.1).trans a, a.latch _ _ hl.2 (by omega)⟩

theorem RaiseKeeps.noteCell (s : State) (src scope : Nat) (cell : Option Nat) (hc : ∀ c, cell = some c → c < 1024) :
    RaiseKeeps s (s.noteCell src scope cell) := by
  unfold State.noteCell
  split
  · split
    · exact .wr _ _ _ (by have := hc _ rfl; simp only [loudReg, quietReg, R.FLT_CELL]; omega)
    · exact .refl _
  · exact .refl _

theorem RaiseKeeps.toQueues (s : State) (src item : Nat) : RaiseKeeps s (s.toQueues src item).1 := by
  have h (l : List Nat) (hl : ∀ n ∈ l, n < 4) (r : State × List Nat) : RaiseKeeps r.1
      (l.foldl (fun (r : State × List Nat) n =>
        if r.1.getBit F.FLT_CTRL_QEN n then
          let p := r.1.iqPush (32 + n) item
          (p.1, if p.2 && src != 0x0C7 then r.2 ++ [0x0C7] else r.2)
        else r) r).1 := by
    induction l generalizing r with
    | nil => exact .refl _
    | cons n l ih =>
      rw [List.foldl_cons]
      have hn : n < 4 := hl n (by simp)
      refine RaiseKeeps.trans ?_ (ih (fun m hm => hl m (by simp [hm])) _)
      split
      · exact .iqPush _ _ _ (by omega)
      · exact .refl _
  exact h (List.range 4) (fun n hn => by simpa using hn) (s, [])

theorem RaiseKeeps.toEvents (s : State) (src sev item : Nat) : RaiseKeeps s (s.toEvents src sev item).1 := by
  unfold State.toEvents
  split
  · have := State.rd_lt s F.HQ_EV_ROUTE_FAULT_RING
    exact .pushEvent _ _ _ _ (by simp only [F.HQ_EV_ROUTE_FAULT_RING] at *; omega)
  · exact .refl _

theorem RaiseKeeps.toRecorder (s : State) (src sev : Nat) : RaiseKeeps s (s.toRecorder src sev).1 := by
  unfold State.toRecorder
  split
  · exact .fire _ _ _
  · exact .refl _

/-- One raise: it keeps what a raise keeps, and its source is latched. -/
theorem RaiseKeeps.raise1 (s : State) (src : Nat) (cell : Option Nat) (code : Nat) (hc : ∀ c, cell = some c → c < 1024) :
    RaiseKeeps s (s.raise1 src cell code).1 ∧
      ((srcInfo src).isSome = true → (s.raise1 src cell code).1.latched (src / 32) (src % 32) = true) := by
  unfold State.raise1
  split
  · next h => exact ⟨.refl s, by simp [h]⟩
  · next i h =>
    have hs := srcInfo_lt h
    extract_lets sev item q e r
    have hn := RaiseKeeps.noteRaise s src sev cell hs
    have a : RaiseKeeps (s.noteRaise src sev cell) q.1 := (RaiseKeeps.noteCell _ _ _ _ hc).trans (.toQueues _ _ _)
    have b : RaiseKeeps q.1 e.1 := .toEvents _ _ _ _
    have c : RaiseKeeps e.1 r.1 := ((RaiseKeeps.count _ _ _).trans (.react _ _ _ _ hc)).trans (.toRecorder _ _ _)
    have d := (a.trans b).trans c
    exact ⟨hn.1.trans d, fun _ => d.latch _ _ hn.2 (by omega)⟩

theorem RaiseKeeps.raiseAll (fuel : Nat) (s : State) (l : List Nat) : RaiseKeeps s (State.raiseAll fuel s l) := by
  induction fuel generalizing s l with
  | zero => exact .refl s
  | succ f ih =>
    show RaiseKeeps s (l.foldl (fun s src => let r := s.raise1 src none 0; State.raiseAll f r.1 r.2) s)
    exact .foldl _ _ (fun s src => (RaiseKeeps.raise1 s src none 0 (by simp)).1.trans (ih _ _)) s

/-- What a raise of a source leaves; the cell that it names is one of the hub's. -/
theorem RaiseKeeps.raise (s : State) (src : Nat) (cell : Option Nat) (code : Nat) (hc : ∀ c, cell = some c → c < 1024) :
    RaiseKeeps s (s.raise src cell code) := (RaiseKeeps.raise1 s src cell code hc).1.trans (.raiseAll _ _ _)

/-- A raise latches its source. -/
theorem State.latched_raise (s : State) (src : Nat) (cell : Option Nat) (code : Nat) (hc : ∀ c, cell = some c → c < 1024)
    (h : (srcInfo src).isSome = true) : (s.raise src cell code).latched (src / 32) (src % 32) = true := by
  obtain ⟨i, hi⟩ := Option.isSome_iff_exists.1 h
  have hs := srcInfo_lt hi
  exact (RaiseKeeps.raiseAll _ _ _).latch _ _ ((RaiseKeeps.raise1 s src cell code hc).2 h) (by omega)

theorem RaiseKeeps.raise0 (s : State) (src : Nat) : RaiseKeeps s (s.raise src) := .raise s src none 0 (by simp)

/-- A register that no raise writes, after a raise. -/
theorem State.reg_raise (s : State) (src o : Nat) (h : quietReg o) : (s.raise src).reg o = s.reg o :=
  (RaiseKeeps.raise0 s src).reg o h
theorem State.rd_raise (s : State) (src : Nat) (f : Fld) (h : quietReg f.reg) : (s.raise src).rd f = s.rd f := by
  unfold State.rd; rw [State.reg_raise _ _ _ h]
theorem State.rdB_raise (s : State) (src : Nat) (f : Fld) (h : quietReg f.reg) : (s.raise src).rdB f = s.rdB f := by
  unfold State.rdB; rw [State.rd_raise _ _ _ h]

/-! A live condition (R317). -/

/-- The live bit of source `src`. -/
def liveFld (src : Nat) : Fld := ⟨R.FLT_LIVE (src / 32), src % 32, 1⟩

/-- What the start or the end of a live condition leaves, beside its bit. -/
theorem State.live_keeps (s : State) (src : Nat) (on : Bool) : RaiseKeeps (s.wrB (liveFld src) on) (s.live src on) := by
  unfold State.live
  extract_lets f was s1
  split
  · exact .raise0 _ _
  · exact .refl _

theorem State.rd_live (s : State) (src : Nat) (on : Bool) (f : Fld) (h : quietReg f.reg) (hf : f.reg < 0x3C00C0 ∨ 0x3C1000 ≤ f.reg)
    (hs : src < 544) : (s.live src on).rd f = s.rd f := by
  have h1 := (State.live_keeps s src on).reg f.reg h
  have h2 : f.reg ≠ (liveFld src).reg := by
    simp only [liveFld, R.FLT_LIVE]; omega
  unfold State.rd
  rw [h1]
  show bits ((s.wr (liveFld src) (b2n on)).reg f.reg).toNat f.lo f.w = _
  rw [State.reg_wr_other _ _ _ _ h2]

theorem State.rdB_live (s : State) (src : Nat) (on : Bool) (f : Fld) (h : quietReg f.reg)
    (hf : f.reg < 0x3C00C0 ∨ 0x3C1000 ≤ f.reg) (hs : src < 544) : (s.live src on).rdB f = s.rdB f := by
  unfold State.rdB; rw [State.rd_live _ _ _ _ h hf hs]

/-- The live bit follows the condition. -/
theorem State.liveBit_live (s : State) (src : Nat) (on : Bool) (hs : src < 544) : (s.live src on).rdB (liveFld src) = on := by
  have h1 := (State.live_keeps s src on).reg (liveFld src).reg (by simp only [quietReg, liveFld, R.FLT_LIVE]; omega)
  have h2 : (s.wrB (liveFld src) on).rdB (liveFld src) = on :=
    State.rdB_wrB_same _ _ _ (by show src % 32 + 1 ≤ 32; omega) (by show 0 < 1; decide)
  unfold State.rdB State.rd at *
  rw [h1]; exact h2

/-- The start of a live condition latches its source. -/
theorem State.latched_live (s : State) (src : Nat) (hi : (srcInfo src).isSome = true) (h : s.rdB (liveFld src) = false) :
    (s.live src true).latched (src / 32) (src % 32) = true := by
  unfold State.live
  extract_lets f was s1
  have : was = false := h
  rw [this]
  exact State.latched_raise _ _ _ _ (by simp) hi

end Sys2Proof.Machine
end

