-- ==== Sys2Proof/Laws/Prb.lean ====
section
/-!
SUPPORT. Laws/Prb.lean: a word presented to the persistent bank's write port while it is free.
-/

namespace Sys2Proof.Machine

/-- The state in which the only word at the port is judged. -/
def State.portTaken (s : State) : State := { s with arb := Store.put s.arb [] 0 [] }

@[simp] theorem State.portTaken_reg (s : State) (o : Nat) : s.portTaken.reg o = s.reg o := rfl
@[simp] theorem State.portTaken_rd (s : State) (f : Fld) : s.portTaken.rd f = s.rd f := rfl
@[simp] theorem State.portTaken_rdB (s : State) (f : Fld) : s.portTaken.rdB f = s.rdB f := rfl
@[simp] theorem State.portTaken_prb (s : State) : s.portTaken.prb = s.prb := rfl
@[simp] theorem State.portTaken_pwr (s : State) : s.portTaken.pwr = s.pwr := rfl
@[simp] theorem State.portTaken_any (s : State) : s.portTaken.anyDeblocked = s.anyDeblocked := rfl

theorem State.PortFree.advance {s : State} (h : s.PortFree) (t : Time) : (s.advance t).PortFree where
  queue := by rw [State.advance_prb]; exact h.queue
  busy := by rw [State.advance_prb]; exact h.busy
  backlog := by rw [State.advance_prb]; exact h.backlog
  waiting := by unfold State.waiting; rw [State.advance_arb]; exact h.waiting
  pfail := by rw [State.advance_pwr]; exact h.pfail
  rails := by rw [State.advance_pwr]; exact h.rails

/-- A single word at an empty port is the one to be granted. -/
theorem place_one (r : WaitReq) : place WaitReq.isSafety WaitReq.lt [] [r] = [r] := by
  unfold place
  simp only [List.foldl_cons, List.foldl_nil, List.filter_nil, List.nil_append, List.append_nil]
  cases h : r.isSafety <;> simp [h]

/-- The commit engine with one word in its queue: ignored words leave it idle (R540). -/
theorem State.prbStart_one (s : State) (n : Nat) (w : PwWord) (hq : s.prb.queue = [w]) (hb : s.prb.busy = none)
    (hp : s.pwr.pfailLow = false) (hr : s.pwr.railBad = 0) (ho : s.readOnly (prbBlockOf w.off) = false) (ht : w.tag = 0)
    (hn : ∀ x : State × Option Word, x = ({ s with prb := { s.prb with queue := [] } } : State).judgePw w → x.2 = none →
      State.prbStart (n + 1) x.1 = x.1) :
    State.prbStart (n + 2) s =
      match ({ s with prb := { s.prb with queue := [] } } : State).judgePw w with
      | (x, none) => x
      | (x, some v) => { x with prb := { x.prb with busy := some { w with val := v } } } := by
  rw [State.prbStart]
  rw [if_neg (by rw [hb, hp, hr]; simp), hq]
  dsimp only
  have ho' : ({ s with prb := { s.prb with queue := [] } } : State).readOnly (prbBlockOf w.off) = false := ho
  rw [if_neg (by rw [ho']; simp)]
  generalize hx : ({ s with prb := { s.prb with queue := [] } } : State).judgePw w = x
  obtain ⟨x, v⟩ := x
  have hn' := hn (x, v) hx.symm
  cases v with
  | none =>
    have e : x.releasePw w = x := by unfold State.releasePw; rw [if_pos ht]
    dsimp only
    rw [e]; exact hn' rfl
  | some v => rfl

/-- The judgement of a word leaves the bank and the power (R540). -/
theorem State.judgePw_prb (s : State) (w : PwWord) : (s.judgePw w).1.prb = s.prb ∧ (s.judgePw w).1.pwr = s.pwr := by
  unfold State.judgePw
  extract_lets
  repeat' split
  all_goals try dsimp only
  all_goals repeat' split
  all_goals first
    | exact ⟨rfl, rfl⟩
    | exact ⟨(RaiseKeeps.raise0 _ _).prb, (RaiseKeeps.raise0 _ _).pwr⟩
    | exact ⟨(apply_ite State.prb _ _ _).trans (ite_self _), (apply_ite State.pwr _ _ _).trans (ite_self _)⟩

/-- The commit engine with nothing to start. -/
theorem State.prbStart_idle (s : State) (n : Nat) (hq : s.prb.queue = []) : State.prbStart (n + 1) s = s := by
  rw [State.prbStart]
  split
  · rfl
  · rw [hq]

/-- A word presented to a free port is judged at once, and its commit starts unless it is ignored. -/
theorem State.presentPw_free (s : State) (who : Requester) (off : Nat) (val : Word) (h : s.PortFree)
    (ho : s.readOnly (prbBlockOf off) = false) :
    s.presentPw who off val 0 =
      match s.portTaken.judgePw ⟨who, off, val, 0⟩ with
      | (x, none) => x
      | (x, some v) => { x with prb := { x.prb with busy := some ⟨who, off, v, 0⟩ } } := by
  unfold State.presentPw State.prbSlot
  rw [if_neg (by rw [h.pfail]; simp)]
  have hnext : s.prbNext = [] := by unfold State.prbNext; rw [h.backlog]; rfl
  simp only [hnext, h.backlog, h.waiting, List.foldl_cons, List.foldl_nil, List.any_nil, Bool.or_self, Bool.false_eq_true,
    if_false, List.nil_append, List.append_nil, List.map_cons, List.map_nil]
  have hw : ({ s with prb := { s.prb with backlog := [] } } : State).waiting 0 = [] := h.waiting
  have hl : ({ s with prb := { s.prb with backlog := [] } } : State).prbLevel = 0 := by
    unfold State.prbLevel; simp [h.queue, h.busy]
  simp only [hw, hl, place_one]
  simp only [Nat.zero_lt_succ, decide_true, if_true, List.take_succ_cons, List.take_zero, List.drop_succ_cons, List.drop_nil, List.map_cons, List.map_nil, List.any_cons, List.any_nil, Bool.or_false, List.filter_cons, beq_self_eq_true,
    Bool.not_true, Bool.false_eq_true, if_false, List.filter_nil, List.length_nil]
  have e : WaitReq.word (PwWord.req ⟨who, off, val, 0⟩) = ⟨who, off, val, 0⟩ := rfl
  rw [e]
  have hs : ∀ x : State, x.defer 0 0 = x := fun x => rfl
  rw [hs]
  have hst : (({ s with prb := { s.prb with backlog := [] } } : State).setWaiting 0 []) = { s.portTaken with prb := { s.prb with backlog := [] } } := rfl
  rw [hst]
  rw [State.prbStart_one (n := 63) (w := ⟨who, off, val, 0⟩)]
  · have : ({ s.portTaken with prb := { s.prb with backlog := [], queue := [] } } : State) = s.portTaken := by
      have hp : s.prb = { s.prb with backlog := [], queue := [] } := by
        have := h.queue; have := h.backlog
        cases hpq : s.prb; simp_all
      conv => rhs; unfold State.portTaken
      unfold State.portTaken
      rw [← hp]
    exact congrArg (fun z : State => match z.judgePw ⟨who, off, val, 0⟩ with
      | (x, none) => x
      | (x, some v) => { x with prb := { x.prb with busy := some ⟨who, off, v, 0⟩ } }) this
  · show s.prb.queue ++ _ = _; rw [h.queue]; rfl
  · exact h.busy
  · exact h.pfail
  · exact h.rails
  · exact ho
  · rfl
  · intro x hx _
    apply State.prbStart_idle
    rw [hx, (State.judgePw_prb _ _).1]

end Sys2Proof.Machine
end

