-- ==== Sys2Proof/Laws/Tread.lean ====
section
/-!
SUPPORT. Laws/Tread.lean: what each operation of a Tread does to its gate outputs: most leave them (`Tread.Gate`), a trip
or a turn-off only turns some off (`Tread.Fewer`), and the others keep a Tread that cannot short its cell so.
-/

namespace Sys2Proof.Machine

/-- The gate outputs that are on and the pending turn-ons are the same. -/
structure Tread.Gate (d e : Tread) : Prop where
  on' : e.outs.map TOut.on = d.outs.map TOut.on
  a : e.turnOnA = d.turnOnA
  b : e.turnOnB = d.turnOnB

theorem Tread.Gate.refl (d : Tread) : Gate d d := ⟨rfl, rfl, rfl⟩
theorem Tread.Gate.trans {d e f : Tread} (a : Gate d e) (b : Gate e f) : Gate d f :=
  ⟨b.on'.trans a.on', b.a.trans a.a, b.b.trans a.b⟩
theorem Tread.out_on (d : Tread) (n : Nat) : (d.out n).on = (d.outs.map TOut.on).getD n false := by
  unfold Tread.out nth
  rw [List.getD_eq_getElem?_getD, List.getD_eq_getElem?_getD, List.getElem?_map]
  cases d.outs[n]? <;> rfl
theorem Tread.Gate.on {d e : Tread} (h : Gate d e) (n : Nat) : (e.out n).on = (d.out n).on := by
  rw [Tread.out_on, Tread.out_on, h.on']
theorem Tread.Gate.turnOn {d e : Tread} (h : Gate d e) (l : Nat) : e.turnOn l = d.turnOn l := by
  unfold Tread.turnOn; rw [h.a, h.b]
theorem Tread.Gate.legSafe {d e : Tread} (h : Gate d e) {l : Nat} (a : d.legSafe l) : e.legSafe l := by
  unfold Tread.legSafe at *
  rw [h.on, h.on, h.turnOn]
  refine ⟨a.1, fun p hp => ?_⟩
  rw [h.on]; exact a.2 p hp
theorem Tread.Gate.safe {d e : Tread} (h : Gate d e) (a : d.noShort) : e.noShort := ⟨h.legSafe a.1, h.legSafe a.2⟩
theorem Tread.Gate.of {d e : Tread} (h1 : e.outs = d.outs) (h2 : e.turnOnA = d.turnOnA) (h3 : e.turnOnB = d.turnOnB) : Gate d e :=
  ⟨by rw [h1], h2, h3⟩
theorem Tread.Gate.foldl {α : Type} (f : Tread → α → Tread) (l : List α) (h : ∀ d x, Gate d (f d x)) (d : Tread) :
    Gate d (l.foldl f d) := by
  induction l generalizing d with
  | nil => exact .refl d
  | cons x r ih => exact (h d x).trans (ih _)
theorem Tread.Gate.foldr {α : Type} (f : α → Tread → Tread) (l : List α) (h : ∀ d x, Gate d (f x d)) (d : Tread) :
    Gate d (l.foldr f d) := by
  induction l with
  | nil => exact .refl d
  | cons x r ih => exact ih.trans (h _ _)

theorem Tread.Gate.setReg (d : Tread) (o : Nat) (v : Word) : Gate d (d.setReg o v) := ⟨rfl, rfl, rfl⟩
theorem Tread.Gate.wr (d : Tread) (f : Fld) (v : Nat) : Gate d (d.wr f v) := ⟨rfl, rfl, rfl⟩
theorem Tread.Gate.wrB (d : Tread) (f : Fld) (v : Bool) : Gate d (d.wrB f v) := ⟨rfl, rfl, rfl⟩
theorem Tread.Gate.incSat (d : Tread) (f : Fld) (v : Nat) : Gate d (d.incSat f v) := ⟨rfl, rfl, rfl⟩
theorem Tread.Gate.incWrap (d : Tread) (f : Fld) (v : Nat) : Gate d (d.incWrap f v) := ⟨rfl, rfl, rfl⟩
theorem Tread.Gate.setBit (d : Tread) (f : Fld) (i : Nat) (v : Bool) : Gate d (d.setBit f i v) := ⟨rfl, rfl, rfl⟩
theorem Tread.Gate.ev (d : Tread) (s n : Nat) : Gate d (d.ev s n) := by
  refine .foldl _ _ (fun d i => ?_) d
  split
  · exact .incWrap _ _ _
  · exact .refl _
theorem Tread.Gate.advance (d : Tread) (t : Time) : Gate d (d.advance t) := by
  unfold Tread.advance; split <;> exact ⟨rfl, rfl, rfl⟩
theorem Tread.Gate.toHall (d : Tread) (t : Time) : Gate d (d.toHall t) := by
  unfold Tread.toHall; split <;> exact ⟨rfl, rfl, rfl⟩
theorem Tread.Gate.logCode (d : Tread) (c : Nat) : Gate d (d.logCode c) := by
  unfold Tread.logCode
  extract_lets cyc a b e
  have h : Gate d e := ((((Gate.foldr _ _ (fun _ _ => .setReg _ _ _) d).trans (.setReg a _ _)).trans (.wr b _ _)).trans (.wr _ _ _))
  clear_value e
  split
  · exact (h.trans (.incSat _ _ _)).trans (.ev _ _ _)
  · rename_i x _
    exact (h.trans (⟨rfl, rfl, rfl⟩ : Gate e x)).trans (.wr x _ _)
theorem Tread.Gate.orderCodes (d : Tread) : Gate d d.orderCodes := by
  unfold Tread.orderCodes
  extract_lets l keep put d1 d2
  have h1 : Gate d d1 := ⟨rfl, rfl, rfl⟩
  have h2 : Gate d1 d2 := .foldl _ _ (fun _ _ => .wr _ _ _) d1
  exact (h1.trans h2).trans (.wr _ _ _)
theorem Tread.Gate.fault (d : Tread) (c : Nat) : Gate d (d.fault c) := by
  unfold Tread.fault
  extract_lets old n l
  have h (x : Tread) (e : Gate d x) : Gate d (x.logCode c).orderCodes := (e.trans (.logCode _ _)).trans (.orderCodes _)
  exact h _ ⟨rfl, rfl, rfl⟩
theorem Tread.Gate.showOuts (d : Tread) : Gate d d.showOuts := by
  unfold Tread.showOuts
  exact ((((Gate.foldl _ _ (fun _ _ => .setBit _ _ _ _) d).trans (.wr _ _ _)).trans (.wr _ _ _)).trans (.wr _ _ _)).trans (.wr _ _ _)
theorem Tread.Gate.showMode (d : Tread) : Gate d d.showMode := .wr _ _ _

/-- Changing one output's record, not whether it is on. -/
theorem Tread.map_on_set (l : List TOut) (n : Nat) (o : TOut) : (l.set n o).map TOut.on = (l.map TOut.on).set n o.on := List.map_set
theorem Tread.Gate.setOut (d : Tread) (n : Nat) (o : TOut) (h : o.on = (d.out n).on) : Gate d (d.setOut n o) := by
  refine ⟨?_, rfl, rfl⟩
  show (d.outs.set n o).map _ = _
  rw [Tread.map_on_set, h, Tread.out_on]
  apply List.ext_getElem?
  intro i
  rw [List.getElem?_set]
  split
  · next e =>
    subst e
    split
    · rename_i hl; rw [List.getD_eq_getElem?_getD, List.getElem?_eq_getElem hl]; rfl
    · rename_i hl; rw [List.getElem?_eq_none (by omega)]
  · rfl

/-- Outputs may only turn off. -/
def Tread.Fewer (d e : Tread) : Prop := (∀ n, (e.out n).on = true → (d.out n).on = true) ∧ e.turnOnA = d.turnOnA ∧ e.turnOnB = d.turnOnB
theorem Tread.Fewer.safe {d e : Tread} (h : Fewer d e) (a : d.noShort) : e.noShort := by
  have key : ∀ l, d.legSafe l → e.legSafe l := by
    intro l a
    refine ⟨fun x => a.1 ⟨h.1 _ x.1, h.1 _ x.2⟩, fun p hp => ?_⟩
    have e' : d.turnOn l = some p := by unfold Tread.turnOn at *; rw [← h.2.1, ← h.2.2]; exact hp
    refine ⟨(a.2 p e').1, ?_⟩
    cases hq : (e.out (otherOut p.out)).on with
    | false => rfl
    | true => have := h.1 _ hq; rw [(a.2 p e').2] at this; exact absurd this (by simp)
  exact ⟨key 0 a.1, key 1 a.2⟩

theorem Tread.Fewer.refl (d : Tread) : Fewer d d := ⟨fun _ h => h, rfl, rfl⟩
theorem Tread.Fewer.trans {d e f : Tread} (a : Fewer d e) (b : Fewer e f) : Fewer d f :=
  ⟨fun n h => a.1 n (b.1 n h), b.2.1.trans a.2.1, b.2.2.trans a.2.2⟩
theorem Tread.Gate.fewer {d e : Tread} (h : Gate d e) : Fewer d e := ⟨fun n x => by rw [← h.on]; exact x, h.a, h.b⟩
theorem Tread.out_setOut (d : Tread) (n m : Nat) (o : TOut) :
    (d.setOut n o).out m = if n = m ∧ m < d.outs.length then o else d.out m := by
  unfold Tread.setOut Tread.out nth
  rw [List.getD_eq_getElem?_getD, List.getD_eq_getElem?_getD, List.getElem?_set]
  by_cases e : n = m
  · subst e
    by_cases hl : n < d.outs.length
    · simp [hl]
    · simp [hl]
  · simp [e]
theorem Tread.Fewer.outOff (d : Tread) (n : Nat) (b : Bool) : Fewer d (d.outOff n b) := by
  unfold Tread.outOff
  extract_lets o
  split
  · exact .refl d
  · refine Fewer.trans (e := d.setOut n _) ⟨?_, rfl, rfl⟩ (Gate.ev _ _ _).fewer
    intro m hm
    rw [out_setOut] at hm
    split at hm
    · cases hm
    · exact hm
/-- An output turned off is off. -/
theorem Tread.outOff_off (d : Tread) (n : Nat) (b : Bool) : ((d.outOff n b).out n).on = false := by
  unfold Tread.outOff
  extract_lets o
  split
  · next h => simpa [o] using h
  · next h =>
    rw [(Gate.ev _ _ _).on, out_setOut]
    split
    · rfl
    · next hn =>
      have : d.out n = {} := by
        unfold Tread.out nth
        rw [List.getD_eq_getElem?_getD, List.getElem?_eq_none (by omega)]; rfl
      rw [this]
theorem Tread.Fewer.off {d e : Tread} (h : Fewer d e) {n : Nat} (hn : (d.out n).on = false) : (e.out n).on = false := by
  cases hq : (e.out n).on with
  | false => rfl
  | true => rw [h.1 n hq] at hn; cases hn

theorem Tread.turnOn_setTurnOn (d : Tread) (l m : Nat) (x : Option TTurnOn) (hl : l < 2) (hm : m < 2) :
    (d.setTurnOn l x).turnOn m = if m = l then x else d.turnOn m := by
  have : l = 0 ∨ l = 1 := by omega
  have : m = 0 ∨ m = 1 := by omega
  unfold Tread.setTurnOn Tread.turnOn
  rcases ‹l = 0 ∨ l = 1› with rfl | rfl <;> rcases ‹m = 0 ∨ m = 1› with rfl | rfl <;> rfl
theorem Tread.out_setTurnOn (d : Tread) (l m : Nat) (x : Option TTurnOn) : (d.setTurnOn l x).out m = d.out m := by
  unfold Tread.setTurnOn; split <;> rfl

theorem Tread.noShort_iff (d : Tread) : d.noShort ↔ ∀ l < 2, d.legSafe l := by
  constructor
  · intro h l hl
    have : l = 0 ∨ l = 1 := by omega
    rcases this with rfl | rfl
    · exact h.1
    · exact h.2
  · intro h; exact ⟨h 0 (by omega), h 1 (by omega)⟩

/-- A leg's pending turn-on is discarded, or is of an output whose partner is off. -/
theorem Tread.safe_setTurnOn (d : Tread) (l : Nat) (x : Option TTurnOn) (hl : l < 2) (h : d.noShort)
    (hx : ∀ p, x = some p → p.out / 2 = l ∧ (d.out (otherOut p.out)).on = false) : (d.setTurnOn l x).noShort := by
  rw [noShort_iff] at *
  intro m hm
  refine ⟨?_, fun p hp => ?_⟩
  · rw [out_setTurnOn, out_setTurnOn]; exact (h m hm).1
  · rw [turnOn_setTurnOn _ _ _ _ hl hm] at hp
    rw [out_setTurnOn]
    split at hp
    · next e => subst e; exact hx p hp
    · exact (h m hm).2 p hp
theorem Tread.safe_setTurnOn_none (d : Tread) (l : Nat) (hl : l < 2) (h : d.noShort) : (d.setTurnOn l none).noShort :=
  safe_setTurnOn d l none hl h (by simp)

theorem otherOut_lt {n : Nat} (h : n < 4) : otherOut n < 4 ∧ otherOut n / 2 = n / 2 ∧ otherOut n ≠ n ∧ otherOut (otherOut n) = n := by
  have : n = 0 ∨ n = 1 ∨ n = 2 ∨ n = 3 := by omega
  rcases this with rfl | rfl | rfl | rfl <;> decide

/-- An output turns on when its partner is off and its leg has no pending turn-on. -/
theorem Tread.safe_outOn (d : Tread) (n : Nat) (hn : n < 4) (h : d.noShort) (h1 : (d.out (otherOut n)).on = false)
    (h2 : d.turnOn (n / 2) = none) : (d.outOn n).noShort := by
  unfold Tread.outOn
  extract_lets o
  split
  · exact h
  · refine (Gate.ev _ _ _).safe ?_
    rw [noShort_iff] at *
    intro l hl
    have on_other : ∀ (o : TOut) m, m ≠ n → ((d.setOut n o).out m).on = (d.out m).on := fun o m hm => by
      rw [out_setOut, if_neg]; intro e; exact hm e.1.symm
    have ho := otherOut_lt hn
    refine ⟨?_, fun p hp => ?_⟩
    · rintro ⟨a, b⟩
      by_cases e : l = n / 2
      · have : otherOut n = 2 * l ∨ otherOut n = 2 * l + 1 := by omega
        rcases this with e2 | e2
        · rw [on_other _ _ (by omega), ← e2, h1] at a; cases a
        · rw [on_other _ _ (by omega), ← e2, h1] at b; cases b
      · rw [on_other _ _ (by omega)] at a; rw [on_other _ _ (by omega)] at b
        exact (h l hl).1 ⟨a, b⟩
    · have hp' : d.turnOn l = some p := hp
      have hne : l ≠ n / 2 := by intro e; rw [e, h2] at hp'; cases hp'
      have h3 := (h l hl).2 p hp'
      have h4 : p.out < 4 := by omega
      refine ⟨h3.1, ?_⟩
      rw [on_other]
      · exact h3.2
      · have := otherOut_lt h4; omega

theorem Tread.turnOn_of (d e : Tread) (h1 : e.turnOnA = d.turnOnA) (h2 : e.turnOnB = d.turnOnB) (l : Nat) : e.turnOn l = d.turnOn l := by
  unfold Tread.turnOn; rw [h1, h2]

theorem Tread.safe_setLeg (d : Tread) (leg want : Nat) (hl : leg < 2) (h : d.noShort) : (d.setLeg leg want).noShort := by
  unfold Tread.setLeg
  extract_lets tgt same d1 d2 d3
  split
  · exact h
  have h1 : d1.noShort := safe_setTurnOn_none d leg hl h
  have t1 : d1.turnOn leg = none := (turnOn_setTurnOn _ _ _ _ hl hl).trans (if_pos rfl)
  have f2 : Fewer d1 d2 := by
    show Fewer d1 (if _ then _ else _)
    split
    · exact .refl _
    · exact .outOff _ _ _
  have f3 : Fewer d2 d3 := by
    show Fewer d2 (if _ then _ else _)
    split
    · exact .refl _
    · exact .outOff _ _ _
  have h3 : d3.noShort := f3.safe (f2.safe h1)
  have t3 : d3.turnOn leg = none := by
    rw [turnOn_of _ _ f3.2.1 f3.2.2, turnOn_of _ _ f2.2.1 f2.2.2, t1]
  -- the partner of the target is off
  have off : ∀ n, tgt = some n → n / 2 = leg ∧ (d3.out (otherOut n)).on = false := by
    intro n hn
    have hw : n = 2 * leg ∨ n = 2 * leg + 1 := by
      have : legOut leg want = some n := hn
      unfold legOut at this
      split at this
      · left; simpa using this.symm
      · split at this
        · right; simpa using this.symm
        · cases this
    rcases hw with e | e
    · subst e
      refine ⟨by omega, ?_⟩
      have : otherOut (2 * leg) = 2 * leg + 1 := by unfold otherOut; rw [if_pos (by omega)]
      rw [this]
      show ((if tgt = some (2 * leg + 1) then d2 else d2.outOff (2 * leg + 1) true).out _).on = false
      rw [if_neg (by rw [hn]; simp)]
      exact outOff_off _ _ _
    · subst e
      refine ⟨by omega, ?_⟩
      have : otherOut (2 * leg + 1) = 2 * leg := by unfold otherOut; rw [if_neg (by omega)]; omega
      rw [this]
      apply f3.off
      show ((if tgt = some (2 * leg) then d1 else d1.outOff (2 * leg) true).out _).on = false
      rw [if_neg (by rw [hn]; simp)]
      exact outOff_off _ _ _
  clear_value d3 d2 d1 same tgt
  split
  · exact h3
  · rename_i n
    extract_lets o due
    obtain ⟨e, ho⟩ := off n rfl
    split
    · exact safe_outOn _ _ (by omega) h3 ho (by rw [e]; exact t3)
    · refine safe_setTurnOn _ _ _ hl h3 ?_
      intro p hp
      obtain rfl : _ = p := Option.some.inj hp
      exact ⟨e, ho⟩

namespace Tread
theorem Gate.after {d e f : Tread} (b : Gate e f) (a : Gate d e) : Gate d f := a.trans b

theorem safe_applyLegs (d : Tread) (st : Nat) (h : d.noShort) : (d.applyLegs st).noShort := by
  unfold applyLegs
  exact (Gate.showOuts _).safe (safe_setLeg _ 1 _ (by omega) (safe_setLeg _ 0 _ (by omega) h))

theorem safe_enter (d : Tread) (st : Nat) (h : d.noShort) : (d.enter st).noShort := by
  unfold enter
  extract_lets d1
  have h1 : Gate d d1 := by
    show Gate d d.leave
    unfold leave
    split
    · refine ⟨?_, rfl, rfl⟩
      simp only [List.map_map]
      apply List.map_congr_left
      intro a _; rfl
    · exact .refl d
  clear_value d1
  exact (Gate.showMode _).safe (safe_applyLegs _ _ ((Gate.wrB _ _ _).safe ((Gate.wr _ _ _).safe (h1.safe h))))

theorem Fewer.setTurnOnNone {d e : Tread} (l : Nat) (hl : l < 2) (h : Fewer d e) (a : d.noShort) : (e.setTurnOn l none).noShort :=
  safe_setTurnOn_none e l hl (h.safe a)

theorem safe_tripLeg (d : Tread) (leg : Nat) (hl : leg < 2) (h : d.noShort) : (d.tripLeg leg).noShort := by
  unfold tripLeg
  extract_lets d1 d2 clear
  have hc : ∀ d n, Gate d (clear d n) := fun d n => .setOut _ _ _ rfl
  have h2 : d2.noShort := ((Fewer.outOff d1 (2 * leg) false).trans (.outOff _ (2 * leg + 1) false)).safe (safe_setTurnOn_none d leg hl h)
  exact ((hc _ _).trans ((hc _ _).trans (.showOuts _))).safe h2

theorem safe_trip (d : Tread) (h : d.noShort) : d.trip.noShort := by
  unfold trip
  extract_lets d1 d2 d3
  have h1 : d1.noShort := safe_tripLeg _ 1 (by omega) (safe_tripLeg d 0 (by omega) h)
  clear_value d1
  have h3 : d3.noShort := (Gate.wrB _ _ _).safe ((⟨rfl, rfl, rfl⟩ : Gate d1 d2).safe h1)
  clear_value d3
  split
  · exact (Gate.showMode _).safe h3
  · exact (((Gate.wr d3 _ _).trans (.wrB _ _ _)).trans (.showMode _)).safe h3

/-- A record update that leaves the gates. -/
theorem safe_of (d e : Tread) (h : d.noShort) (h1 : e.outs = d.outs) (h2 : e.turnOnA = d.turnOnA) (h3 : e.turnOnB = d.turnOnB) :
    e.noShort := (Gate.of h1 h2 h3).safe h

theorem safe_mismatch (d : Tread) (n : Nat) (h : d.noShort) : (d.mismatch n).noShort := by
  unfold mismatch
  extract_lets o d1 d2 src d3 o2
  have h1 : d1.noShort := (by refine (Gate.setOut d n _ ?_).safe h; rfl)
  clear_value d1
  have h2 : d2.noShort := ((Gate.setBit d1 _ _ _).trans (.incSat _ _ _)).safe h1
  clear_value d2
  have h3 : d3.noShort := (by
    have hs : src.noShort := (Gate.fault _ _).safe h2
    clear_value src
    exact safe_trip _ (safe_of src _ hs rfl rfl rfl))
  clear_value d3
  split
  · exact (Gate.showOuts _).safe h3
  · refine (Gate.showOuts _).safe ((Gate.setOut d3 n _ ?_).safe h3); rfl

theorem safe_gfbMismatch (d : Tread) (n : Nat) (h : d.noShort) : (d.gfbMismatch n).noShort := by
  unfold gfbMismatch
  split
  · exact h
  · split
    · exact h
    · exact safe_mismatch _ _ ((Gate.toHall _ _).safe h)

theorem safe_deadTimeOver (d : Tread) (leg : Nat) (hl : leg < 2) (h : d.noShort) : (d.deadTimeOver leg).noShort := by
  unfold deadTimeOver
  split
  · exact h
  · rename_i p hp
    extract_lets d1
    have h1 : d1.noShort := (Gate.toHall d p.due).safe h
    have hp1 : d1.turnOn leg = some p := by rw [(Gate.toHall d p.due).turnOn]; exact hp
    clear_value d1
    split
    · exact h1
    · refine (Gate.showOuts _).safe ?_
      have hs := ((noShort_iff _).1 h1 leg hl).2 p hp1
      refine safe_outOn _ _ (by omega) (safe_setTurnOn_none _ _ hl h1) ?_ ?_
      · rw [out_setTurnOn]; exact hs.2
      · rw [turnOn_setTurnOn _ _ _ _ hl (by omega), if_pos hs.1]

theorem safe_feedbackOff (d : Tread) (n : Nat) (hn : n < 4) (h : d.noShort) : (d.feedbackOff n).noShort := by
  unfold feedbackOff
  extract_lets tardy d0 o win tf mis d1 leg d2
  have h0 : d0.noShort := by
    show (if _ then _ else _ : Tread).noShort
    split
    · exact safe_mismatch _ _ h
    · exact h
  have h1 : d1.noShort := (by refine (Gate.setOut d0 n _ ?_).safe h0; rfl)
  clear_value d1
  refine (Gate.showOuts _).safe ?_
  show (match d1.turnOn leg with | some p => _ | none => _ : Tread).noShort
  split
  · rename_i p hp
    split
    · extract_lets late d3
      have hs := ((noShort_iff _).1 h1 leg (by omega)).2 p hp
      have h3 : d3.noShort := by
        refine safe_outOn _ _ (by omega) (safe_setTurnOn_none _ _ (by omega) h1) ?_ ?_
        · rw [out_setTurnOn]; exact hs.2
        · rw [turnOn_setTurnOn _ _ _ _ (by omega) (by omega), if_pos hs.1]
      clear_value d3
      split
      · exact (Gate.incSat _ _ _).safe h3
      · exact h3
    · exact h1
  · exact h1

theorem safe_carrierNow (d : Tread) (h : d.noShort) : d.carrierNow.noShort := by
  unfold carrierNow
  split
  · extract_lets st
    split
    · exact safe_applyLegs _ _ h
    · exact safe_enter _ _ h
  · exact h

theorem Gate.ite {d : Tread} (c : Prop) [Decidable c] {a b : Tread} (ha : Gate d a) (hb : Gate d b) : Gate d (if c then a else b) := by
  split <;> assumption
theorem safe_ite (c : Prop) [Decidable c] {a b : Tread} (ha : a.noShort) (hb : b.noShort) : (if c then a else b).noShort := by
  split <;> assumption

theorem safe_commit (d : Tread) (x : TShadow) (k : Nat) (h : d.noShort) : (d.commit x k).noShort := by
  unfold commit
  extract_lets has val d1 d2 d3 d4 pd d5 left d6 d7
  have h1 : Gate d d1 := .ite _ (.setReg _ _ _) (.refl _)
  have h2 : Gate d1 d2 := .ite _ (.wr _ _ _) (.refl _)
  have h3 : Gate d2 d3 := .ite _ (.setReg _ _ _) (.refl _)
  have h4 : Gate d3 d4 := .ite _ (.setReg _ _ _) (.ite _ (.wr _ _ _) (.refl _))
  have h5 : Gate d4 d5 := ⟨rfl, rfl, rfl⟩
  have h6 : Gate d5 d6 := ((Gate.wrB _ _ _).trans (.wrB _ _ _)).trans (.wrB _ _ _)
  have h7 : Gate d6 d7 := .wrB _ _ _
  exact safe_carrierNow _ (((((((h1.trans h2).trans h3).trans h4).trans h5).trans h6).trans h7).trans
    ((Gate.wrB _ _ _).trans (.wr _ _ _)) |>.safe h)

theorem Gate.showByp (d : Tread) (b : Bool) : Gate d (d.showByp b) := (Gate.wrB d _ _).trans (.wrB _ _ _)

theorem Gate.confirm (d : Tread) : Gate d d.confirm := by
  unfold Tread.confirm
  split
  · split
    · refine Gate.after (.showByp _ _) ⟨rfl, rfl, rfl⟩
    · exact .refl _
  · exact .refl _

theorem safe_startBypass (d : Tread) (g : Bool) (h : d.noShort) : (d.startBypass g).noShort := by
  unfold startBypass
  split
  · exact h
  · extract_lets l0 d1 d2 d3 stays l off d4
    have h1 : d1.noShort := safe_of d _ h rfl rfl rfl
    clear_value d1
    have h3 : d3.noShort := ((((Gate.wrB d1 _ _).trans (.wrB _ _ _)).trans (.wr _ _ _)).trans (.wrB _ _ _)).safe h1
    clear_value d3
    have ho : ∀ (x : Tread) leg want, leg < 2 → x.noShort → (off x leg want).noShort := fun x leg want hl hx =>
      safe_ite _ (safe_tripLeg _ _ hl hx) hx
    clear_value off
    have h4 : d4.noShort := (Gate.showMode _).safe (safe_ite _ (safe_applyLegs _ _ (ho _ 1 _ (by omega) (ho _ 0 _ (by omega) h3)))
      (safe_tripLeg _ 1 (by omega) (safe_tripLeg _ 0 (by omega) h3)))
    clear_value d4
    exact safe_ite _ ((Gate.confirm _).safe h4) h4

theorem safe_bypassGatesOff (d : Tread) (h : d.noShort) : d.bypassGatesOff.noShort := by
  have key : ∀ t, ((d.toHall t).tripLeg 0 |>.tripLeg 1).noShort := fun t =>
    safe_tripLeg _ 1 (by omega) (safe_tripLeg _ 0 (by omega) ((Gate.toHall _ _).safe h))
  unfold bypassGatesOff
  split
  · split
    · exact key _
    · exact key _
    · exact h
  · exact h

theorem safe_bypassTimeout (d : Tread) (h : d.noShort) : d.bypassTimeout.noShort := by
  unfold bypassTimeout
  split
  · split
    · exact h
    · extract_lets d1 d2
      have h1 : d1.noShort := (Gate.toHall _ _).safe h
      clear_value d1
      have h2 : d2.noShort := safe_of d1 _ h1 rfl rfl rfl
      exact (((Gate.wrB d2 _ _).trans (.showByp _ _)).trans (.fault _ _)).safe h2
  · exact h

theorem safe_thyPulse (d : Tread) (h : d.noShort) : d.thyPulse.noShort := by
  have key : ∀ (d1 : Tread) (b : Bool), d1.noShort →
      (if b then { d1 with thyAt := some d1.hall } else { d1 with thyAt := none } : Tread).noShort := fun d1 b h1 =>
    safe_ite _ (safe_of d1 _ h1 rfl rfl rfl) (safe_of d1 _ h1 rfl rfl rfl)
  unfold thyPulse
  split
  · exact key _ _ ((Gate.toHall _ _).safe h)
  · exact h

theorem safe_bypassTest (d : Tread) (a b : Option Nat) (h : d.noShort) : (d.bypassTest a b).noShort := by
  unfold bypassTest
  extract_lets due ok d1
  have h1 : d1.noShort := safe_of d _ h rfl rfl rfl
  clear_value d1
  exact safe_ite _ h (safe_ite _ (((Gate.wrB _ _ _).trans (.incWrap _ _ _)).safe h1) (((Gate.wrB _ _ _).trans (.fault _ _)).safe h1))

theorem safe_release (d : Tread) (h : d.noShort) : d.release.1.noShort := by
  unfold release
  split
  · exact h
  · extract_lets d1 d2
    have h1 : d1.noShort := safe_of d _ h rfl rfl rfl
    exact safe_trip _ ((((Gate.wrB d1 _ _).trans (.wrB _ _ _)).trans (.showByp _ _)).safe h1)

theorem Gate.override (d : Tread) : Gate d d.override := by
  unfold Tread.override
  extract_lets d1
  have h1 : Gate d d1 := .ite _ (Gate.after (.incSat _ _ _) ⟨rfl, rfl, rfl⟩) (.refl _)
  clear_value d1
  exact .ite _ (h1.trans (Gate.after (.incSat _ _ _) ⟨rfl, rfl, rfl⟩)) h1

theorem safe_startNotch (d : Tread) (t : Time) (h : d.noShort) : (d.startNotch t).noShort := by
  unfold startNotch
  extract_lets d1 d2
  have h1 : d1.noShort := safe_of d _ h rfl rfl rfl
  clear_value d1
  exact (Gate.showMode _).safe (safe_applyLegs _ _ ((((Gate.wrB d1 _ _).trans (.incWrap _ _ _)).trans (.ev _ _ _)).safe h1))

theorem safe_byCmd (d : Tread) (b : Bool) (h : d.noShort) : ({ d with byCmd := b } : Tread).noShort := safe_of d _ h rfl rfl rfl

theorem safe_leave (d : Tread) (h : d.noShort) : d.leave.noShort := by
  refine Gate.safe ?_ h
  unfold leave
  split
  · refine ⟨?_, rfl, rfl⟩
    simp only [List.map_map]
    apply List.map_congr_left
    intro a _; rfl
  · exact .refl d

theorem safe_grant (d : Tread) (a : Time) (h : d.noShort) : (d.grant a).noShort := by
  unfold grant
  split
  · exact safe_startNotch _ _ (((Gate.wr _ _ _).trans (.wrB _ _ _)).safe (safe_leave _ h))
  · exact safe_enter _ _ h

theorem Gate.inNotch (d : Tread) : Gate d d.inNotch := (Gate.wr d _ _).trans (.showMode _)

theorem safe_counting (d : Tread) (f : Tread → Tread) (h : (f d).noShort) : (d.counting f).noShort :=
  (Gate.incSat _ _ _).safe h

theorem safe_execute (d : Tread) (c : TCmd) (h : d.noShort) : (d.execute c).noShort := by
  unfold execute
  extract_lets blk state mode src e d1 t2
  have hs : src.noShort := ((Gate.incSat _ _ _).trans (.fault _ _)).safe h
  have h1 : d1.noShort := safe_of d _ h rfl rfl rfl
  have he : e.noShort := safe_of d _ h rfl rfl rfl
  clear_value src e d1 blk state mode
  refine safe_ite _ (safe_trip _ (safe_byCmd _ _ hs)) (safe_ite _ (safe_trip _ (safe_byCmd _ _ h))
    (safe_ite _ (safe_startBypass _ _ (safe_byCmd _ _ h)) (safe_ite _ ?_ ?_)))
  · exact safe_ite _ ((Gate.inNotch _).safe he) (((Gate.incSat _ _ _).trans (.inNotch _)).safe (safe_of e _ he rfl rfl rfl))
  · refine safe_ite _ ((Gate.showMode _).safe (safe_ite _ h1 (safe_enter _ _ h1)))
      (safe_ite _ ((Gate.showMode _).safe (safe_grant _ _ h1)) (safe_ite _ ?_ (safe_enter _ _ h1)))
    exact safe_ite _ (safe_enter _ _ h1) ((Gate.showMode _).safe (safe_enter _ _ (safe_of d1 _ h1 rfl rfl rfl)))

theorem safe_command (d : Tread) (c : TCmd) (h : d.noShort) : (d.command c).noShort := by
  unfold command
  extract_lets d1
  have h1 : d1.noShort := by
    show Tread.noShort (match c.commit with | some x => d.commit x c.cyc | none => d)
    split
    · exact safe_commit _ _ _ h
    · exact h
  clear_value d1
  exact safe_ite _ h1 (safe_ite _ (safe_ite _ (safe_byCmd _ _ h1) h1)
    (safe_counting _ _ (safe_execute _ _ ((Gate.override _).safe h1))))

theorem safe_actionInstant (d : Tread) (h : d.noShort) : d.actionInstant.noShort := by
  unfold actionInstant
  split
  · exact h
  · exact safe_command _ _ ((Gate.toHall _ _).safe (safe_of d _ h rfl rfl rfl))

theorem safe_secondEdge (d : Tread) (h : d.noShort) : d.secondEdge.noShort := by
  unfold secondEdge
  split
  · exact h
  · exact safe_enter _ _ ((Gate.toHall _ _).safe (safe_of d _ h rfl rfl rfl))

theorem safe_carrierEdge (d : Tread) (t : Time) (h : d.noShort) : (d.carrierEdge t).noShort :=
  safe_carrierNow _ ((Gate.toHall _ _).safe h)

theorem Gate.refreshRequest (d : Tread) (l : Nat) : Gate d (d.refreshRequest l) := by
  unfold Tread.refreshRequest
  extract_lets o d1
  have h1 : Gate d d1 := .toHall _ _
  clear_value d1
  exact .ite _ (h1.trans (Gate.after (.wrB _ _ _) ⟨rfl, rfl, rfl⟩)) (.refl _)

theorem safe_notchEnd (d : Tread) (h : d.noShort) : d.notchEnd.noShort := by
  unfold notchEnd
  split
  · exact h
  · rename_i t _
    extract_lets d1 d2
    have h1 : d1.noShort := (Gate.toHall _ _).safe h
    clear_value d1
    have h2 : d2.noShort := (Gate.after (.wrB _ _ _) ⟨rfl, rfl, rfl⟩).safe h1
    clear_value d2
    split
    · exact safe_command _ _ (safe_of d2 _ h2 rfl rfl rfl)
    · exact safe_ite _ ((Gate.showMode _).safe (safe_carrierNow _ h2)) ((Gate.showMode _).safe (safe_applyLegs _ _ h2))

theorem safe_carrierNotch (d : Tread) (h : d.noShort) : d.carrierNotch.noShort := by
  unfold carrierNotch
  split
  · exact h
  · exact safe_ite _ (safe_startNotch _ _ ((Gate.toHall _ _).safe h)) h

theorem Gate.showLand (d : Tread) (k : Nat) : Gate d (d.showLand k) := by
  unfold Tread.showLand
  extract_lets has d1 d2
  exact ((Gate.setReg d _ _).trans (.setReg _ _ _)).trans (.wr _ _ _)

theorem Gate.dropLand (d : Tread) (k : Nat) : Gate d (d.dropLand k) := by
  unfold Tread.dropLand
  extract_lets old d1
  have h1 : Gate d d1 := .foldl _ _ (fun _ _ => .setReg _ _ _) d
  clear_value d1
  exact Gate.after (.showLand _ _) (h1.trans ⟨rfl, rfl, rfl⟩)

theorem Gate.landStore (d : Tread) (k : Nat) (c : Word) (l : Nat) : Gate d (d.landStore k c l) := by
  unfold Tread.landStore
  extract_lets low base x dist
  exact .ite _ (Gate.after (.showLand _ _) (Gate.after (.setReg _ _ _) ⟨rfl, rfl, rfl⟩)) (.incSat _ _ _)

theorem safe_landBlock (d : Tread) (h : d.noShort) : d.landBlock.noShort := by
  unfold landBlock
  exact safe_ite _ h (safe_trip _ (safe_byCmd _ _ ((Gate.fault _ _).safe h)))

theorem Gate.holdServo (d : Tread) : Gate d d.holdServo := (⟨rfl, rfl, rfl⟩ : Gate d { d with rhoP := 0 }).trans (.wrB _ _ _)

theorem Gate.ageLand (d : Tread) : Gate d d.ageLand := by
  unfold Tread.ageLand
  split
  · exact .dropLand _ _
  · exact .refl _

theorem safe_landingBase (d : Tread) (c : Nat) (h : d.noShort) : (d.landingBase c).noShort := by
  unfold landingBase
  split
  · rename_i k0 _ b _ _
    extract_lets n d1 e d2 d3 d4 d5
    have h1 : d1.noShort := ((Gate.toHall _ _).trans (.holdServo _)).safe h
    clear_value d1 e
    have h2 : d2.noShort := (Gate.dropLand _ _).safe h1
    clear_value d2
    have h3 : d3.noShort := safe_ite _ h2 ((Gate.wr _ _ _).safe h2)
    clear_value d3
    have h4 : d4.noShort := (((Gate.wrB d3 _ _).trans (.wrB _ _ _)).trans (.ev _ _ _)).safe h3
    clear_value d4
    have h5 : d5.noShort := (Gate.incSat _ _ _).safe h4
    clear_value d5
    refine safe_ite _ h (safe_ite _ ((Gate.dropLand _ _).safe h1) (safe_ite _ (safe_landBlock _ h2) (safe_ite _ h2 ?_)))
    split
    · exact safe_landBlock _ h2
    · extract_lets l0 l1 q
      refine safe_ite _ (safe_landBlock _ h2) (safe_counting _ _ (safe_enter _ _ ?_))
      have h6 := (Gate.override _).safe h5
      generalize d5.override = x at h6
      exact safe_ite _ h6 (safe_of x _ h6 rfl rfl rfl)
  · exact h

theorem safe_frameLoss (d : Tread) (h : d.noShort) : d.frameLoss.noShort := by
  unfold frameLoss
  split
  · exact h
  · refine safe_ite _ h ?_
    extract_lets d1 d2
    have h1 : d1.noShort := by
      show Tread.noShort (match d.landBase _ with | some b => d.toHall b | none => d)
      split
      · exact (Gate.toHall _ _).safe h
      · exact h
    clear_value d1
    have h2 : d2.noShort := (Gate.after (.fault _ _) ⟨rfl, rfl, rfl⟩).safe h1
    clear_value d2
    exact safe_ite _ h2 (safe_trip _ (safe_byCmd _ _ h2))

theorem safe_guardWatchdog (d : Tread) (t : Time) (h : d.noShort) : (d.guardWatchdog t).noShort := by
  unfold guardWatchdog
  extract_lets n lim d1
  have h1 : d1.noShort := (Gate.advance _ _).safe h
  clear_value d1
  exact safe_ite _ (safe_trip _ (safe_byCmd _ _ h1)) h1

theorem Gate.showOvg (d : Tread) : Gate d d.showOvg := (Gate.wr d _ _).trans (.wr _ _ _)

theorem Gate.ovSet (d : Tread) (uv : Nat) : Gate d (d.ovSet uv) := by
  unfold Tread.ovSet
  extract_lets bad v first diff away d1 was d2 d3
  have h1 : Gate d d1 := .ite _ ⟨rfl, rfl, rfl⟩ (.ite _ (.refl _) (.ite _ ⟨rfl, rfl, rfl⟩ (.ite _ ⟨rfl, rfl, rfl⟩ ⟨rfl, rfl, rfl⟩)))
  clear_value d1
  have h2 : Gate d1 d2 := ⟨rfl, rfl, rfl⟩
  have h3 : Gate d2 d3 := .ite _ (.wrB _ _ _) (.refl _)
  exact ((h1.trans h2).trans h3).trans (Gate.after (.showOvg _) (.ite _ (.fault _ _) (.refl _)))

theorem safe_guardTrip (d : Tread) (h : d.noShort) : d.guardTrip.noShort := by
  unfold guardTrip
  refine safe_ite _ h ?_
  extract_lets was d1 d2
  have h1 : d1.noShort := Gate.safe (Gate.after (.wrB _ _ _) ⟨rfl, rfl, rfl⟩) h
  clear_value d1
  have h2 : d2.noShort := safe_ite _ h1 (((Gate.fault _ _).trans (.ev _ _ _)).safe h1)
  clear_value d2
  exact safe_startBypass _ _ ((Gate.wrB d2 _ _).safe h2)

theorem safe_blockedByLeg (d : Tread) (h : d.noShort) : d.blockedByLeg.noShort := by
  unfold blockedByLeg
  extract_lets d1
  have h1 : d1.noShort := Gate.safe (Gate.after (.wrB _ _ _) ⟨rfl, rfl, rfl⟩) h
  clear_value d1
  exact safe_ite _ ((Gate.showMode _).safe h1) ((((Gate.wr d1 _ _).trans (.wrB _ _ _)).trans (.showMode _)).safe h1)

theorem safe_desat (d : Tread) (n : Nat) (hn : n < 4) (h : d.noShort) : (d.desat n).noShort := by
  unfold desat
  extract_lets was d1 d2
  have h1 : d1.noShort := safe_of d _ h rfl rfl rfl
  clear_value d1
  have h2 : d2.noShort := safe_ite _ h1 (((Gate.fault _ _).trans (.ev _ _ _)).safe h1)
  clear_value d2
  exact safe_blockedByLeg _ (safe_tripLeg _ _ (by omega) ((Gate.setBit d2 _ _ _).safe h2))

theorem safe_supokLoss (d : Tread) (h : d.noShort) : d.supokLoss.noShort := by
  unfold supokLoss
  extract_lets d1 src
  have h1 : d1.noShort := (Gate.after (.wrB _ _ _) ⟨rfl, rfl, rfl⟩).safe h
  clear_value d1
  have hs : src.noShort := ((Gate.setBit d1 _ _ _).trans (.fault _ _)).safe h1
  clear_value src
  exact safe_ite _ h1 (safe_trip _ (safe_byCmd _ _ hs))

theorem Gate.fltClr (d : Tread) (v : Nat) : Gate d (d.fltClr v).1 := by
  unfold Tread.fltClr
  split
  · exact .refl _
  · extract_lets g x gBad xBad o oBad d1 d2 d3 refused
    have h1 : Gate d d1 := .foldl _ _ (fun _ _ => .setBit _ _ _ _) d
    have h2 : Gate d1 d2 := .foldl _ _ (fun _ _ => .setBit _ _ _ _) d1
    have h3 : Gate d2 d3 := .ite _ (.wrB _ _ _) (.refl _)
    exact ((h1.trans h2).trans h3).trans (.incSat _ _ _)

theorem Gate.putRes (d : Tread) (n : Nat) (r : Nat × Bool × Bool) : Gate d (d.putRes n r) := by
  unfold Tread.putRes
  extract_lets d1 d2
  have h : Gate d d2 := (((Gate.wr d _ _).trans (.wrB _ _ _)).trans (.wrB _ _ _)).trans (.incWrap _ _ _)
  clear_value d2
  exact .ite _ (h.trans (.ev _ _ _)) h

theorem safe_detector (d : Tread) (b c nb ng : Nat) (bad good blk : Bool) (h : d.noShort) :
    (d.detector b c nb ng bad good blk).noShort := by
  unfold detector
  extract_lets x y d1 live d2
  have h1 : d1.noShort := safe_of d _ h rfl rfl rfl
  clear_value d1
  have h2 : d2.noShort := ((Gate.setBit d1 _ _ _).trans (.fault _ _)).safe h1
  clear_value d2
  exact safe_ite _ (safe_ite _ (safe_trip _ (safe_byCmd _ _ h2)) h2) (safe_ite _ ((Gate.setBit _ _ _ _).safe h1) h1)

theorem safe_detect (d : Tread) (n : Nat) (h : d.noShort) : (d.detect n).noShort := by
  unfold detect
  extract_lets hys t hi t2 hi2 b3 b4 b5
  exact safe_ite _ (safe_detector _ _ _ _ _ _ _ _ h) (safe_ite _ (safe_detector _ _ _ _ _ _ _ _ h) (safe_ite _ (safe_detector _ _ _ _ _ _ _ _ h)
    (safe_ite _ (safe_detector _ _ _ _ _ _ _ _ h) (safe_ite _ (safe_detector _ _ _ _ _ _ _ _ h) h))))

theorem Gate.pins (d : Tread) (p : TPins) : Gate d (d.pins p) := by
  unfold Tread.pins
  extract_lets d1 d2 d3
  have h2 : Gate d d2 := ((⟨rfl, rfl, rfl⟩ : Gate d d1).trans (.wrB _ _ _)).trans (.wrB _ _ _)
  clear_value d2
  have h3 : Gate d d3 := .ite _ (h2.trans (.setBit _ _ _ _)) h2
  exact h3.trans (.wrB _ _ _)

theorem safe_showVcap (d : Tread) (k : Nat) (t : Time) (h : d.noShort) : (d.showVcap k t).noShort := by
  unfold showVcap
  extract_lets v d1 hi high
  have h1 : d1.noShort := (((Gate.wr d _ _).trans (.wrB _ _ _)).trans (.wr _ _ _)).safe h
  clear_value d1
  exact safe_detector _ _ _ _ _ _ _ _ h1

theorem safe_convert (d : Tread) (num : Int) (den : Nat) (ovf : Bool) (p : TPins) (h : d.noShort) :
    (d.convert num den ovf p).noShort := by
  unfold convert
  extract_lets x d1 r src d2
  have h1 : d1.noShort := ((Gate.toHall _ _).trans (.pins _ _)).safe h
  clear_value d1
  have hs : src.noShort := (Gate.putRes _ _ _).safe h1
  clear_value src
  have h2 : d2.noShort := safe_of src _ hs rfl rfl rfl
  clear_value d2
  refine safe_ite _ (safe_ite _ h1 ?_) (safe_ite _ (safe_showVcap _ _ _ h2) h2)
  split
  · exact h1
  · exact safe_detect _ _ ((Gate.putRes _ _ _).safe (safe_of d1 _ h1 rfl rfl rfl))

theorem Gate.record (d : Tread) (b : Nat) (r : Nat × Nat) : Gate d (d.record b r) := by
  unfold Tread.record
  extract_lets v
  exact .ite _ ((Gate.wrB _ _ _).trans (.wr _ _ _)) ((Gate.wrB _ _ _).trans (.wr _ _ _))

theorem Gate.bootDecision (d : Tread) : Gate d d.bootDecision := by
  unfold Tread.bootDecision
  refine .ite _ (.refl _) ?_
  extract_lets ra rb d1 act ok
  have h1 : Gate d d1 := (Gate.record _ _ _).trans (.record _ _ _)
  clear_value d1
  exact .ite _ (h1.trans ((Gate.wrB _ _ _).trans (.wrB _ _ _))) (.ite _ (h1.trans ((((Gate.wr _ _ _).trans (.wrB _ _ _)).trans (.wrB _ _ _)).trans (.fault _ _)))
    (h1.trans ((Gate.wrB _ _ _).trans (.wrB _ _ _))))

theorem Gate.fwblk (d : Tread) (b v : Nat) : Gate d (d.fwblk b v).1 := by
  unfold Tread.fwblk
  extract_lets d1
  have h1 : Gate d d1 := .wrB _ _ _
  clear_value d1
  split
  · exact h1
  · exact h1.trans ⟨rfl, rfl, rfl⟩

theorem Gate.verifyDone (d : Tread) : Gate d d.verifyDone := by
  unfold Tread.verifyDone
  refine .ite _ (.refl _) ?_
  exact (((Gate.record _ _ _).trans (.wrB _ _ _)).trans (.wrB _ _ _)).trans (.wr _ _ _)

theorem Gate.fwSwitch (d : Tread) : Gate d d.fwSwitch.1 := by
  unfold Tread.fwSwitch
  split
  · extract_lets d1 d2 d3
    have h2 : Gate d d2 := ((((Gate.wr d _ _).trans (.wrB _ _ _)).trans (.wrB _ _ _)).trans (.wrB _ _ _))
    clear_value d2
    exact (h2.trans (⟨rfl, rfl, rfl⟩ : Gate d2 d3)).trans ((Gate.setReg _ _ _).trans (.setReg _ _ _))
  · exact .refl _

theorem safe_fresh (d : Tread) (h1 : d.outs = [{}, {}, {}, {}]) (h2 : d.turnOnA = none) (h3 : d.turnOnB = none) : d.noShort := by
  rw [noShort_iff]
  intro l hl
  have : ∀ n, (d.out n).on = false := by
    intro n
    unfold out nth
    rw [h1]
    rcases n with _ | _ | _ | _ | n <;> rfl
  refine ⟨fun x => (by have := this (2*l); rw [this] at x; cases x.1), fun p hp => ?_⟩
  unfold turnOn at hp; rw [h2, h3] at hp; split at hp <;> cases hp

theorem safe_cleared (d : Tread) : d.cleared.noShort := by
  refine safe_fresh _ ?_ ?_ ?_ <;> rfl

theorem Gate.showIdle (d : Tread) : Gate d d.showIdle := ⟨rfl, rfl, rfl⟩

theorem safe_supplyGood (d : Tread) (full : Bool) (uv : Nat) : (d.supplyGood full uv).noShort := by
  unfold supplyGood
  extract_lets src d1
  have hs : src.noShort := safe_cleared d
  clear_value src
  have h1 : d1.noShort := (Gate.wr _ _ _).safe (safe_of src _ hs rfl rfl rfl)
  clear_value d1
  exact (((Gate.wrB _ _ _).trans (.ovSet _ _)).trans (.showIdle _)).safe h1

theorem safe_supplyFall (v : Bool) (d : Tread) (h : d.noShort) : (d.supplyFall v).noShort := by
  unfold supplyFall
  exact safe_ite _ (safe_cleared d) (safe_ite _ h (((Gate.wrB _ _ _).trans (.wrB _ _ _)).safe
    (safe_trip _ (safe_of d _ h rfl rfl rfl))))

theorem safe_supplied (d : Tread) (f : Tread → Tread) (h : (f d).noShort) : (d.supplied f).noShort := by
  unfold supplied
  split
  · exact safe_ite _ (safe_cleared d) h
  · exact h

theorem Gate.dispatch (d : Tread) : Gate d d.dispatch := by
  unfold Tread.dispatch
  extract_lets d1 d2
  have h2 : Gate d d2 := (⟨rfl, rfl, rfl⟩ : Gate d d1).trans (.wr _ _ _)
  clear_value d2
  split
  · exact h2.trans (.wrB _ _ _)
  · exact h2.trans (((Gate.wr _ _ _).trans (.wrB _ _ _)).trans (.wrB _ _ _))

theorem Gate.setThr (d : Tread) (t : Nat) (x : TThread) : Gate d (d.setThr t x) := ⟨rfl, rfl, rfl⟩

theorem Gate.schReady (d : Tread) (t : Nat) : Gate d (d.schReady t) := by
  unfold Tread.schReady
  exact .ite _ ((Gate.setThr _ _ _).trans (.dispatch _)) (.ite _ ((Gate.setThr _ _ _).trans (.dispatch _))
    (.ite _ ((Gate.setThr _ _ _).trans (.dispatch _)) (.refl _)))

theorem Gate.schWait (d : Tread) : Gate d d.schWait := by
  unfold Tread.schWait; split
  · exact .refl _
  · exact (Gate.setThr _ _ _).trans (.dispatch _)
theorem Gate.schSleep (d : Tread) : Gate d d.schSleep := by
  unfold Tread.schSleep; split
  · exact .refl _
  · exact (Gate.setThr _ _ _).trans (.dispatch _)
theorem Gate.schPrio (d : Tread) (t p : Nat) : Gate d (d.schPrio t p) := (Gate.setThr _ _ _).trans (.dispatch _)
theorem Gate.schSuspend (d : Tread) (t : Nat) : Gate d (d.schSuspend t) := (Gate.setThr _ _ _).trans (.dispatch _)
theorem Gate.schWake (d : Tread) (t : Time) : Gate d (d.schWake t) := by
  unfold Tread.schWake
  extract_lets d1 due
  have h1 : Gate d d1 := .advance _ _
  clear_value d1
  exact h1.trans (Gate.trans (.foldl _ _ (fun d n => .ite _ (.setThr _ _ _) (.refl _)) d1) (.dispatch _))
theorem Gate.schCmd (d : Tread) (v : Nat) : Gate d (d.schCmd v) := by
  unfold Tread.schCmd
  exact .ite _ (.schReady _ _) (.ite _ (.schWait _) (.ite _ (.schSleep _) (.ite _ (.schPrio _ _ _) (.ite _ (.schSuspend _ _) (.refl _)))))
theorem Gate.evcSelect (d : Tread) (n s : Nat) : Gate d (d.evcSelect n s) := (Gate.wr _ _ _).trans (.setReg _ _ _)
theorem Gate.digest (d : Tread) : Gate d d.digest := .setReg _ _ _

theorem Gate.commitPw (d : Tread) (o : Nat) (v : Word) : Gate d (d.commitPw o v) := by
  have key : ∀ (e : Tread) (N b : Nat), Gate d e →
      Gate d (if e.rd (F.T_PW_WEAR_WRITES b) = N then (e.wrB (F.T_PW_WEAR_RDONLY b) true).fault 0x078 else e) := by
    intro e N b h
    split
    · exact h.trans ((Gate.wrB _ _ _).trans (.fault _ _))
    · exact h
  exact key _ _ _ (Gate.after (.ev _ _ _) (Gate.after (.incSat _ _ _) ⟨rfl, rfl, rfl⟩))

theorem Gate.verify (d : Tread) : Gate d d.verify := .wrB _ _ _
theorem Gate.shWrite (d : Tread) (n : Nat) : Gate d (d.shWrite n) := by
  unfold Tread.shWrite
  extract_lets f src
  have h : Gate d src := .wrB _ _ _
  exact h.trans ⟨rfl, rfl, rfl⟩

/-- Case distinctions on a result with a flag. -/
theorem safe_ite1 {α : Type} (c : Prop) [Decidable c] {a b : Tread × α} (ha : a.1.noShort) (hb : b.1.noShort) :
    (if c then a else b).1.noShort := by
  split <;> assumption

theorem safe_writeReg (d : Tread) (off : Nat) (v : Word) (cart : Bool) (h : d.noShort) : (d.writeReg off v cart).1.noShort := by
  unfold writeReg
  split
  · exact h
  · extract_lets n d1 b m d2 m2 w w2 d3 d4
    have h1 : d1.noShort := safe_ite _ ((Gate.verify _).safe h) h
    have h2 : d2.noShort := (Gate.commitPw _ _ _).safe h
    have h3 : d3.noShort := (Gate.setReg _ _ _).safe h
    clear_value d1 d2 d3
    have h4 : d4.noShort := safe_ite _ ((Gate.shWrite _ _).safe h3) (safe_ite _ ((Gate.shWrite _ _).safe h3) (safe_ite _ ((Gate.shWrite _ _).safe h3)
      (safe_ite _ ((Gate.wrB _ _ _).safe h3) (safe_ite _ (safe_deadTimeOver _ 1 (by omega) (safe_deadTimeOver _ 0 (by omega) h3)) h3))))
    clear_value d4
    exact safe_ite1 _ ((Gate.fltClr _ _).safe h) (safe_ite1 _ (safe_ite1 _ (safe_release _ h) h)
      (safe_ite1 _ (safe_ite1 _ (safe_ite1 _ ((Gate.fwSwitch _).safe h1) h1) h1) (safe_ite1 _ (safe_ite1 _ h ((Gate.schCmd _ _).safe h))
      (safe_ite1 _ h (safe_ite1 _ h (safe_ite1 _ h (safe_ite1 _ (safe_ite1 _ h (safe_ite1 _ h (safe_ite _ ((Gate.showOvg _).safe h2) h2)))
      (safe_ite1 _ ((Gate.evcSelect _ _ _).safe h) h4))))))))

theorem safe_granted (d : Tread) (a : TAsk) (h : d.noShort) : (d.granted a).noShort := by
  unfold granted
  split
  · split
    · exact (Gate.setReg _ _ _).safe h
    · exact h
  · exact safe_writeReg _ _ _ _ h
  · exact safe_writeReg _ _ _ _ h

theorem safe_grantSlot (d : Tread) (l : List TAsk) (h : d.noShort) : (d.grantSlot l).noShort := by
  unfold grantSlot
  extract_lets x d1
  have h1 : (d1.ev 11 (lateNews x.2)).noShort := (Gate.ev _ _ _).safe (safe_of d _ h rfl rfl rfl)
  generalize d1.ev 11 (lateNews x.2) = y at h1
  generalize x.1 = l
  induction l generalizing y with
  | nil => exact h1
  | cons a r ih => exact ih _ (safe_granted _ _ h1)

theorem Gate.adaptEq (d : Tread) (f : Bool) : Gate d (d.adaptEq f) := by
  unfold Tread.adaptEq
  extract_lets a v w src
  have h : Gate d src := .setReg _ _ _
  exact .ite _ (.refl _) (h.trans ⟨rfl, rfl, rfl⟩)

theorem Gate.readReg (d : Tread) (o : Nat) : Gate d (d.readReg o).1 := by
  unfold Tread.readReg
  split
  · exact .refl _
  · extract_lets d1 v x d2 src
    have h1 : Gate d d1 := .ite _ (.adaptEq _ _) (.ite _ (.adaptEq _ _) (.ageLand _))
    clear_value d1
    split
    · exact h1
    · have h2 : Gate d1 d2 := .setReg _ _ _
      exact (h1.trans h2).trans ⟨rfl, rfl, rfl⟩

theorem safe_writeWords (d : Tread) (a v : Nat) (h : d.noShort) : (d.writeWords a v).1.noShort := by
  unfold writeWords
  extract_lets off x y
  have hx : x.1.noShort := safe_writeReg _ _ _ _ h
  have hy : y.1.noShort := safe_writeReg _ _ _ _ hx
  clear_value x y
  repeat' split
  all_goals first | exact h | exact hy | exact hx

theorem safe_cart (d : Tread) (c : Nat) (r : Slot) (h : d.noShort) : (d.cart c r).1.noShort := by
  unfold cart
  extract_lets op arg data adm no say q d1 off a b w w3 low ok
  have hs : ∀ d x y, (say d x y).1 = d := fun _ _ _ => rfl
  have h1 : d1.noShort := ((Gate.wr d _ _).trans (.wrB _ _ _)).safe h
  have h1' : (say ((d1.wrB F.T_ID_INFO_NEWC false).showIdle) 0 0).1.noShort := by
    rw [hs]; exact ((Gate.wrB _ _ _).trans (.showIdle _)).safe h1
  have hsay : ∀ x y, (say d x y).1.noShort := fun x y => by rw [hs]; exact h
  have hrole : ∀ b, (say { d with cmdRole := b } 0 0).1.noShort := fun b => by rw [hs]; exact safe_of d _ h rfl rfl rfl
  have ha : a.1.noShort := (Gate.readReg _ _).safe h
  have hb : b.1.noShort := (Gate.readReg _ _).safe ha
  have hw : w.1.noShort := safe_writeWords _ _ _ h
  have hw3 : w3.1.noShort := (Gate.fwblk _ _ _).safe h
  have ha' : ∀ y, (say a.1 0 y).1.noShort := fun y => by rw [hs]; exact ha
  have hb' : ∀ y, (say b.1 0 y).1.noShort := fun y => by rw [hs]; exact hb
  have hwy : ∀ x y, (say w.1 x y).1.noShort := fun x y => by rw [hs]; exact hw
  clear_value d1 a b w w3 say
  exact safe_ite1 _ (safe_ite1 _ h (safe_ite1 _ (hsay _ _) (safe_ite1 _ (safe_ite1 _ h (safe_ite1 _ (hsay _ _) h1'))
    (safe_ite1 _ (hsay _ _) (safe_ite1 _ (hrole _) (safe_ite1 _ (safe_ite1 _ (hb' _) (ha' _)) (safe_ite1 _ h (hwy _ _))))))))
    (safe_ite1 _ h (safe_ite1 _ (safe_ite1 _ h hw) (safe_ite1 _ (safe_ite1 _ h hw3)
    (safe_ite1 _ (safe_ite1 _ h (safe_ite1 _ (safe_of d _ h rfl rfl rfl) h)) h))))

theorem safe_cartNow (d : Tread) (c : Nat) (r : Slot) (h : d.noShort) : (d.cartNow c r).noShort := by
  unfold cartNow
  extract_lets a
  have ha : a.1.noShort := safe_cart _ _ _ h
  clear_value a
  split
  · exact ha
  · exact safe_of a.1 _ ha rfl rfl rfl

theorem Gate.setLane (d : Tread) (f : Bool) (l : TLane) : Gate d (d.setLane f l) := by
  unfold Tread.setLane; split <;> exact ⟨rfl, rfl, rfl⟩
theorem Gate.takeRole (d : Tread) (f : Bool) : Gate d (d.takeRole f) := by
  unfold Tread.takeRole
  exact .ite _ (.refl _) (.setLane _ _ _)
theorem Gate.endRoles (d : Tread) (f : Bool) : Gate d (d.endRoles f) := by
  unfold Tread.endRoles
  exact (⟨rfl, rfl, rfl⟩ : Gate d { d with cmdRole := false }).trans (.setLane _ _ _)
theorem Gate.beforeUplink (d : Tread) (f : TFrame) : Gate d (d.beforeUplink f) := by
  unfold Tread.beforeUplink
  split
  · exact .ite _ (Gate.after (.wrB _ _ _) ⟨rfl, rfl, rfl⟩) (.refl _)
  · exact .refl _
theorem Gate.afterUplink (d : Tread) (f : TFrame) : Gate d (d.afterUplink f) := by
  unfold Tread.afterUplink
  extract_lets d1 d2
  have h2 : Gate d d2 := Gate.trans (⟨rfl, rfl, rfl⟩ : Gate d d1) (.ite _ (.ev _ _ _) (.refl _))
  clear_value d2
  split
  · exact h2
  · exact .ite _ (h2.trans (Gate.after (.wr _ _ _) ⟨rfl, rfl, rfl⟩)) (h2.trans ⟨rfl, rfl, rfl⟩)
theorem Gate.inboundPass (d : Tread) (f : TFrame) (p : List TRep) (fr : Frame) (b : Bool) (t : Time) (lb : Bool) :
    Gate d (d.inboundPass f p fr b t lb).1 := by
  unfold Tread.inboundPass
  extract_lets d1 up slot fr1 fr2 d2
  have h1 : Gate d d1 := .beforeUplink _ _
  clear_value d1
  exact .ite _ (h1.trans (.afterUplink _ _)) h1
theorem Gate.servoLock (d : Tread) (t : Int) : Gate d (d.servoLock t) := by
  unfold Tread.servoLock
  extract_lets i d1
  have h1 : Gate d d1 := ⟨rfl, rfl, rfl⟩
  exact .ite _ (h1.trans (.wrB _ _ _)) (.ite _ (h1.trans (.wrB _ _ _)) (.ite _ (h1.trans (.wrB _ _ _)) h1))
theorem Gate.slewBy (d : Tread) (t : Int) (l : Option Time) (b : Bool) : Gate d (d.slewBy t l b) := by
  unfold Tread.slewBy
  extract_lets d1 d2
  have h1 : Gate d d1 := .ite _ (.fault _ _) (.refl _)
  clear_value d1
  have h2 : Gate d d2 := h1.trans ⟨rfl, rfl, rfl⟩
  clear_value d2
  split
  · exact h2
  · exact h2.trans ⟨rfl, rfl, rfl⟩
theorem Gate.stepBy (d : Tread) (t : Int) : Gate d (d.stepBy t) :=
  ((⟨rfl, rfl, rfl⟩ : Gate d { d with hall := ((d.hall : Int) - t).toNat, timeOff := false }).trans (.incSat _ _ _)).trans (.ev _ _ _)
theorem Gate.servoFrame (d : Tread) (h : Header) (a : Time) (f lb : Bool) : Gate d (d.servoFrame h a f lb) := by
  unfold Tread.servoFrame
  extract_lets th d1 d2 last d3 big
  have h2 : Gate d d2 := ((Gate.wrB _ _ _).trans (.wrB _ _ _)).trans (.wr _ _ _)
  clear_value d2
  have h3 : Gate d d3 := h2.trans ⟨rfl, rfl, rfl⟩
  clear_value d3
  exact h3.trans ((Gate.ite _ (.stepBy _ _) (.slewBy _ _ _ _)).trans (.servoLock _ _))

theorem Gate.epochRule (d : Tread) (e : Nat) : Gate d (d.epochRule e).1 := by
  unfold Tread.epochRule
  extract_lets et newer
  repeat' split
  · exact (Gate.wr _ _ _).trans (.wrB _ _ _)
  · exact .refl _
  · exact .wr _ _ _
  · exact .refl _
theorem Gate.endLanding (d : Tread) : Gate d d.endLanding := (Gate.wrB _ _ _).trans (.wrB _ _ _)
theorem Gate.validFrame (d : Tread) (h : Header) (c : Slot) (a : Time) (f lb : Bool) : Gate d (d.validFrame h c a f lb) := by
  unfold Tread.validFrame
  extract_lets d1 d3 d4 d5
  have h1 : Gate d d1 := Gate.after (.ev _ _ _) ⟨rfl, rfl, rfl⟩
  clear_value d1
  have h3 : Gate d1 d3 := (Gate.endLanding _).trans (.dropLand _ _)
  clear_value d3
  have h4 : Gate d3 d4 := .ite _ (.landStore _ _ _ _) (.refl _)
  clear_value d4
  have h5 : Gate d4 d5 := .ite _ (((Gate.wr _ _ _).trans (.wr _ _ _)).trans (.shWrite _ _)) (.refl _)
  clear_value d5
  exact (((h1.trans h3).trans h4).trans h5).trans (.servoFrame _ _ _ _ _)

theorem safe_takeCommand (d : Tread) (h : Header) (c : Slot) (hd : d.noShort) : (d.takeCommand h c).noShort := by
  unfold takeCommand
  extract_lets a x d1
  have h1 : d1.noShort := safe_ite _ ((Gate.trans (Gate.after (.incSat _ _ _) ⟨rfl, rfl, rfl⟩) (.ev _ _ _)).safe hd) hd
  clear_value d1
  exact safe_ite _ (safe_command _ _ h1) (safe_of d _ hd rfl rfl rfl)
theorem safe_readCarts (d : Tread) (f : Frame) (h : d.noShort) : (d.readCarts f).noShort := by
  unfold readCarts
  generalize List.range 8 = l
  induction l generalizing d with
  | nil => exact h
  | cons x r ih => exact ih _ (safe_ite _ h (safe_cartNow _ _ _ h))

theorem safe_clockPort (d : Tread) (h : d.noShort) : d.clockPort.noShort := by
  unfold clockPort
  extract_lets up d1
  have h1 : d1.noShort := safe_ite _ ((Gate.wrB _ _ _).safe h) (safe_ite _ ((Gate.wrB _ _ _).safe h) h)
  clear_value d1
  exact safe_ite _ h1 (safe_ite _ h1 (safe_trip _ h1))

theorem safe_outbound (d : Tread) (far : Bool) (f : Frame) (ta tc : Time) (h : d.noShort) : (d.outbound far f ta tc).noShort := by
  unfold outbound
  refine safe_ite _ h ?_
  extract_lets aHat d1 d2 hd bad hop pfar known isCtl ep older acc d3 sport d3b d4 sh so d5 role d6 left d7 d7b p slot outAt d8 carOk valid car d9 fr prev d10 d11 out down
  have h1 : d1.noShort := (Gate.advance _ _).safe h
  clear_value d1
  have h2 : d2.noShort := safe_ite _ ((Gate.wrB _ _ _).safe h1) h1
  clear_value d2
  have h3 : d3.noShort := by
    show (if _ then _ else _ : Tread × Bool).1.noShort
    split
    · exact (Gate.epochRule _ _).safe h2
    · exact h2
  clear_value d3
  have h3b : d3b.noShort := ((Gate.wrB d3 _ _).trans (.wr _ _ _)).safe h3
  clear_value d3b
  have h4 : d4.noShort := safe_ite _ (safe_of d3b _ h3b rfl rfl rfl) h3
  clear_value d4
  have h5 : d5.noShort := (Gate.wr _ _ _).safe h4
  clear_value d5
  have h6 : d6.noShort := safe_ite _ ((Gate.endRoles _ _).safe h5) h5
  clear_value d6
  have h7 : d7.noShort := safe_ite _ (safe_trip _ (safe_of d6 _ h6 rfl rfl rfl)) h6
  clear_value d7
  have h7b : d7b.noShort := safe_ite _ ((Gate.wrB _ _ _).safe h7) h7
  clear_value d7b
  have h8 : d8.noShort := (Gate.advance _ _).safe h7b
  clear_value d8
  have h9 : d9.noShort := safe_ite _ (safe_takeCommand _ _ _ ((Gate.validFrame _ _ _ _ _ _).safe h8))
    (safe_ite _ ((Gate.holdServo _).safe h8) h8)
  clear_value d9
  have h10 : d10.noShort := safe_of d9 _ h9 rfl rfl rfl
  clear_value d10 role
  have h11 : d11.noShort := safe_clockPort _ (safe_ite _ (safe_readCarts _ _ h10) h10)
  clear_value d11
  have hd : ∀ x : Tread, x.noShort → (down x).noShort := fun x hx => safe_ite _ (safe_of x _ hx rfl rfl rfl) hx
  clear_value down
  split
  · exact hd _ h11
  · extract_lets e1 e2 turn lbpos w turned r src e3
    have g1 : e1.noShort := safe_ite _ (hd _ h11) h11
    have g2 : e2.noShort := safe_ite _ ((Gate.incWrap _ _ _).safe g1) g1
    have gr : r.1.noShort := (Gate.inboundPass _ _ _ _ _ _ _).safe g2
    have gs : src.noShort := gr
    clear_value src
    have g3 : e3.noShort := safe_ite _ (safe_of src _ gs rfl rfl rfl) gr
    exact safe_of e3 _ g3 rfl rfl rfl

theorem safe_inbound (d : Tread) (f : Frame) (tb : Time) (h : d.noShort) : (d.inbound f tb).noShort := by
  unfold inbound
  refine safe_ite _ h ?_
  extract_lets bHat d1 bad
  have h1 : d1.noShort := (Gate.advance _ _).safe h
  clear_value d1
  split
  · exact safe_of d1 _ h1 rfl rfl rfl
  · refine safe_ite _ h1 ?_
    extract_lets r src d2
    have hr : r.1.noShort := (Gate.inboundPass _ _ _ _ _ _ _).safe h1
    have hs : src.noShort := hr
    clear_value src
    clear_value r
    have h2 : d2.noShort := safe_ite _ (safe_of src _ hs rfl rfl rfl) hr
    exact safe_of d2 _ h2 rfl rfl rfl

theorem safe_blockLock (d : Tread) (f : Bool) (h : d.noShort) : (d.blockLock f).noShort := by
  unfold blockLock
  refine safe_ite _ h ?_
  extract_lets d1
  have h1 : d1.noShort := (((Gate.wrB d _ _).trans (.wrB _ _ _)).trans (.adaptEq _ _)).safe h
  clear_value d1
  exact safe_clockPort _ (((Gate.setLane _ _ _).trans (.showIdle _)).safe h1)
theorem safe_lossOfLock (d : Tread) (f : Bool) (h : d.noShort) : (d.lossOfLock f).noShort := by
  unfold lossOfLock
  refine safe_ite _ h ?_
  extract_lets d1 d2 src d3
  have h1 : Gate d d1 := (((Gate.adaptEq _ _).trans (.wrB _ _ _)).trans (.wrB _ _ _)).trans (.showIdle _)
  have h2 : Gate d1 d2 := (Gate.incSat _ _ _).trans (.ev _ _ _)
  have h3 : Gate d2 d3 := .setLane _ _ _
  exact safe_clockPort _ ((((h1.trans h2).trans h3).trans (.takeRole _ _)).safe h)
theorem safe_lossOfSignal (d : Tread) (f : Bool) (h : d.noShort) : (d.lossOfSignal f).noShort := by
  unfold lossOfSignal
  refine safe_ite _ h ?_
  exact (Gate.takeRole _ _).safe (safe_lossOfLock _ _ (((Gate.wrB _ _ _).trans (.incSat _ _ _)).safe h))
theorem Gate.linkFault (d : Tread) (f on : Bool) : Gate d (d.linkFault f on) := by
  unfold Tread.linkFault
  exact .ite _ (.refl _) ((Gate.setLane _ _ _).trans (.takeRole _ _))
theorem Gate.farEnd (d : Tread) (f on : Bool) : Gate d (d.farEnd f on) := by
  unfold Tread.farEnd
  exact .ite _ (.refl _) (.setLane _ _ _)
theorem Gate.rateSwitch (d : Tread) : Gate d d.rateSwitch := by
  unfold Tread.rateSwitch
  split
  · exact .refl _
  · rename_i c low _
    extract_lets d1
    have h1 : Gate d d1 := by
      show Gate d (match d.k0 with | some (k, t) => _ | none => _)
      split
      · exact .ite _ (.toHall _ _) (.refl _)
      · exact .refl _
    clear_value d1
    exact h1.trans (Gate.after (.wrB _ _ _) (Gate.after (.wrB _ _ _) ⟨rfl, rfl, rfl⟩))
end Tread
end Sys2Proof.Machine
end

