-- ==== Sys2Proof/Tests/Slice0.lean ====
section
/-!
SUPPORT. Tests/Slice0.lean: the smoke tests of WellFormed, and for every statement of Certificates/Slice0 states and
commands that meet its hypotheses, with what the rules say comes out. Each is about one command on a small state; the
expected values are those of the rules that the statement cites.
-/

namespace Sys2Proof.Machine

/-- The state with registers, in effect since the latest cycle start too. -/
def State.withRegs (s : State) (l : List (Nat × Word)) : State :=
  let s := l.foldl (fun s p => s.setReg p.1 p.2) s
  { s with eff := s.regs }

end Sys2Proof.Machine

namespace Sys2Proof.Tests
open Sys2Proof.Machine
set_option Elab.async false

/-- The next state after a command meets a check. -/
def after (c : Instr) (s : State) (p : State → Bool) : Bool :=
  match exec c s with
  | .next u => p u
  | _ => false
/-- A hub at its start, with registers. -/
def hubWith (l : List (Nat × Word)) : State := ({} : State).withRegs l
/-- A hub with one supplied Tread at local index 0. -/
def treadWith (d : Tread) : State := ({} : State).setTread 0 { d with powered := true }
/-- The write port of the persistent bank is free. -/
def portFree (s : State) : Bool :=
  s.prb.queue.isEmpty && s.prb.busy.isNone && s.prb.backlog.isEmpty && (s.waiting 0).isEmpty && !s.pwr.pfailLow &&
    s.pwr.railBad == 0
/-- A number as bytes, the highest first. -/
def beBytes (n v : Nat) : List Byte := (List.range n).map (fun k => BitVec.ofNat 8 (v >>> (8 * (n - 1 - k))))
/-- The public key of the private key 1: the base point. -/
def keyG : List Byte := 4 :: (beBytes 48 p384gx ++ beBytes 48 p384gy)
/-- A signature under the private key 1 with the nonce 1. -/
def signG (m : List Byte) : List Byte := beBytes 48 p384gx ++ beBytes 48 ((sha384 m + p384gx) % p384n)
/-- Bytes written from an address on. -/
def putBytes (m : List Host.Cell) (a : Nat) (l : List Byte) : List Host.Cell :=
  (l.foldl (fun (p : List Host.Cell × Nat) b => (writeByte p.1 p.2 b, p.2 + 1)) (m, a)).1

/-! Well-formedness: a command with each operand out of its range is refused, and one with operands at the ends of their
ranges is not. -/

theorem test_wf_registerWrite :
    ([Instr.registerWrite .host none 2 0 5,
      .registerWrite .host (some 0) 0x1000 0 5, .registerWrite .host none 0x100000000 0 5].any Instr.wf) = false := by decide
theorem test_wf_rcRead :
    ([Instr.rcRead .host none 6 5, .rcRead .host (some 0) 0x1000 5].any Instr.wf) = false := by decide
theorem test_wf_resourceGrant :
    ([Instr.resourceGrant (.hub 1 [⟨.host, 0, 0x100000000, 0⟩]) 5,
      .resourceGrant (.tread 3 [⟨.firmware, 0x1000, 0⟩]) 5].any Instr.wf) = false := by decide
theorem test_wf_cycleStart :
    ([Instr.cycleStart (List.replicate 33 0), .cycleStart [393217]].any Instr.wf) = false := by decide
theorem test_wf_adcConversion :
    ([Instr.adcConversion 0 1 0 false ⟨true, 0, false, false⟩ 5].any Instr.wf) = false := by decide
theorem test_wf_iqRead : ([Instr.iqRead 0 3 5].any Instr.wf) = false := by decide
theorem test_wf_relayDn :
    ([Instr.relayDn 0 0 false false false 0 0 (List.replicate 34 0) [] 0 0 5,
      .relayDn 0 0 false false false 0 0 [] (List.replicate 9 0) 0 0 5].any Instr.wf) = false := by decide
theorem test_wf_avsPeriod :
    ([Instr.avsPeriod true [256] 0 5, .avsPeriod true (List.replicate 16 256) 0 5,
      .avsPeriod true (List.replicate 16 255) 4096 5].any Instr.wf) = false := by decide
theorem test_wf_bar2Write : ([Instr.bar2Write 0x1FFFFFF [1, 2] 5].any Instr.wf) = false := by decide
theorem test_wf_badAcc :
    ([Instr.badAcc true 0x1000000 4 5, .badAcc true 0 0 5, .badAcc true 0 9 5].any Instr.wf) = false := by decide
theorem test_wf_doorbell : ([Instr.doorbell 3 65536 5].any Instr.wf) = false := by decide
theorem test_wf_nop : ([Instr.nop 3 256 0 5, .nop 3 0 65536 5].any Instr.wf) = false := by decide
theorem test_wf_regWr : ([Instr.regWr 3 65536 0 0 0 5, .regWr 3 0 0x100000000 0 0 5].any Instr.wf) = false := by decide
theorem test_wf_regRd : ([Instr.regRd 3 65536 0 5, .regRd 3 0 0x100000000 5].any Instr.wf) = false := by decide
theorem test_wf_mbxCommit :
    ([Instr.mbxCommit 3 65536 0 [0, 0, 0, 0] 5,
      .mbxCommit 3 0 0x100000000 [0, 0, 0, 0] 5, .mbxCommit 3 0 0 [0, 0, 0] 5].any Instr.wf) = false := by decide
theorem test_wf_armDeblock :
    ([Instr.armDeblock 3 65536 0 5, .armDeblock 3 0 0x100000000 5].any Instr.wf) = false := by decide
theorem test_wf_armBlock :
    ([Instr.armBlock 3 65536 0 5, .armBlock 3 0 0x100000000 5].any Instr.wf) = false := by decide
theorem test_wf_ringCommit :
    ([Instr.ringCommit 3 65536 0 0 true 5, .ringCommit 3 0 0x100000000 0 true 5,
      .ringCommit 3 0 0 0x100000000 true 5].any Instr.wf) = false := by decide
theorem test_wf_carDuty :
    ([Instr.carDuty 3 65536 0 0 0 5, .carDuty 3 0 0x100000000 0 0 5].any Instr.wf) = false := by decide
theorem test_wf_waitCycle :
    ([Instr.waitCycle 3 65536 0 5, .waitCycle 3 0 0x100000000 5].any Instr.wf) = false := by decide
theorem test_wf_ethTx : ([Instr.ethTx 3 65536 0 false 0 [60] 5].any Instr.wf) = false := by decide
theorem test_wf_ethRxbuf :
    ([Instr.ethRxbuf 3 65536 0 0 2048 5, .ethRxbuf 3 0 0 0x10000000000000000 2048 5].any Instr.wf) = false := by decide
theorem test_wf_cart :
    ([Instr.cart .host 3 65536 0 0 0 0 0 0 5, .cart .host 3 0 0 16 0 0 0 0 5,
      .cart .host 3 0 0 0 32 0 0 0 5, .cart .host 3 0 0 0 0 65536 0 0 5, .cart .host 3 0 0 0 0 0 0x10000000000000000 0 5, .cart .host 3 0 0 0 0 0 0 0x10000000000000000 5].any Instr.wf) = false := by decide
theorem test_wf_canRingFetch : ([Instr.canRingFetch 0 (List.replicate 25 0) 5].any Instr.wf) = false := by decide
theorem test_wf_canTxDone :
    ([Instr.canTxDone 0 .sent 0 512 0 5, .canTxDone 0 .sent 0 0 256 5].any Instr.wf) = false := by decide
theorem test_wf_canReceive :
    ([Instr.canReceive 0 ⟨1, false, false, false, 0, false, false, 0⟩ true 0 512 0 5,
      .canReceive 0 ⟨1, false, false, false, 0, false, false, 0⟩ true 0 0 256 5].any Instr.wf) = false := by decide
theorem test_wf_pcieLinkUp : ([Instr.pcieLinkUp 16 1 5, .pcieLinkUp 1 64 5].any Instr.wf) = false := by decide
theorem test_wf_good :
    [Instr.registerWrite .host (some 1023) 0xFFC 0 5, .cycleStart [393216], .presetOutput 0 0 1 0 4 4, .iqRead 0 2 5,
      .mbxCommit 3 65535 63 [0, 0, 0, 0] 5, .bar2Write 0xFFFFFE [1, 2] 5, .freeze true 5].all Instr.wf = true := by decide

/-- The table gives no row any bits. -/
theorem test_decode_gives_none : decodeTableWord 32 0xDEADBEEF = none := by decide

/-! StepTakesTheFrontCommand -/

namespace StepTakesTheFrontCommand

theorem test_premises :
    ((match ({ ({} : State) with pending := [.permitToken 9] } : State).pending with | c :: r => r == [] && (match exec c { ({} : State) with pending := r } with | .next u => u.clk.now == 9 | _ => false) | [] => false) &&
     (State.reset.pending == [])) = true := by decide +kernel

end StepTakesTheFrontCommand

/-! RunsTakeTheQueueInOrder -/

namespace RunsTakeTheQueueInOrder

theorem test_premises :
    ((match ({ ({} : State) with pending := [.permitToken 9, .freeze true 10] } : State).run 2 with | .next u => u.pending == [] && u.rdB F.EVC_CTRL_FREEZE && u.clk.now == 10 | _ => false)) = true :=
  by decide +kernel

end RunsTakeTheQueueInOrder

/-! CommandsStayOnTheirSideOfTheRing -/

namespace CommandsStayOnTheirSideOfTheRing

theorem test_premises :
    ((Instr.tSchWake 3 9).cell == some 3 && (Instr.permitToken 9).cell == none) = true := by decide +kernel

theorem test_tSchWake :
    ((match exec (.tSchWake 3 9) {} with | .next u => u.tread 4 == ({} : State).tread 4 && u.regs == ({} : State).regs | _ => false)) = true :=
  by decide +kernel

end CommandsStayOnTheirSideOfTheRing

/-! RegisterWriteChangesItsWritableBits -/

namespace RegisterWriteChangesItsWritableBits

/-- A Tread with supply and a value in one register. -/
def supplied : State := treadWith { regs := [(R.T_HT_CFG, 5), (R.T_SW_CNT, 7)] }

theorem test_premises :
    ((({} : State).reaches .host R.MI_ERR && plainWrite R.MI_ERR && (regRow R.MI_ERR).map (fun r =>
      (r.pw, r.lrw, r.rw)) == some (0, 0, 0)) &&
     (plainTread R.T_HT_CFG && (treadRow R.T_HT_CFG).map (fun r => (r.pw, r.lrw)) == some (0, 0) &&
      (supplied.tread 0).powered)) = true := by decide +kernel

theorem test_registerWrite :
    ((after (.registerWrite .host none R.MI_ERR 0x10001 5) (hubWith [(R.MI_ERR, 0x30003), (R.GEN_RING_LATE 0, 2)]) (fun u =>
      u.reg R.MI_ERR == 0x20002 && u.reg (R.GEN_RING_LATE 0) == 2)) &&
     (after (.registerWrite .host (some 0) R.T_HT_CFG 0x1234 5) supplied (fun u =>
      (u.tread 0).reg R.T_HT_CFG == 0x1234 && (u.tread 0).reg R.T_SW_CNT == 7 && u.regs == [] && u.tread 1 == {}))) = true :=
  by decide +kernel

end RegisterWriteChangesItsWritableBits

/-! ReadsAnswerThenClear -/

namespace ReadsAnswerThenClear

/-- A Tread with supply and a count. -/
def counted : State := treadWith { regs := [(R.T_SW_CNT, 0x01020304)] }

theorem test_premises :
    ((({} : State).reaches .host (R.GEN_CONT 3) && plainRead (R.GEN_CONT 3) && (regRow (R.GEN_CONT 3)).map (fun r =>
      r.rc) == some 0xFFFFFFFF) &&
     ((treadRow R.T_SW_CNT).map (fun r => r.rc) == some 0xFFFFFFFF && (counted.tread 0).powered) &&
     (({} : State).reaches .host (R.EVC_CNTL 63) && ({} : State).reaches .host R.SCH_TICKL) &&
     ((({} : State).presentPw .host (R.MI_GAIN 0) 5 0).heldBack (R.MI_GAIN 0) && plainRead (R.MI_GAIN 0) &&
      ({} : State).reaches .host (R.MI_GAIN 0))) = true := by decide +kernel

theorem test_rcRead :
    ((after (.rcRead .host none (R.GEN_CONT 3) 5) (hubWith [(R.GEN_CONT 3, 9), (R.GEN_CONT 4, 8)]) (fun u =>
      u.rdata == 9 && u.reg (R.GEN_CONT 3) == 0 && u.reg (R.GEN_CONT 4) == 8)) &&
     (!({} : State).reaches (.core 1) R.HQ_ERR &&
      after (.rcRead (.core 1) none R.HQ_ERR 5) (hubWith [(R.HQ_ERR, 1)]) (fun u => u.rdata == 0 &&
      u.reg R.HQ_ERR == 1)) &&
     (after (.rcRead .host (some 0) R.T_SW_CNT 5) counted (fun u => u.rdata == 0x01020304 &&
      (u.tread 0).reg R.T_SW_CNT == 0 && u.regs == []))) = true := by decide +kernel

theorem test_counterLowRead :
    ((after (.counterLowRead .host (some 63) 5) { ({} : State) with evc := [(63, { src := 1, count := 2 ^ 40 + 3 })] } (fun u =>
      u.rdata == 3 && u.reg (R.EVC_CNTH 63) == 256)) &&
     (after (.counterLowRead .host none (ns 5000)) {} (fun u =>
      u.rdata == BitVec.ofNat 32 (({} : State).advance (ns 5000)).schTick && u.reg R.SCH_TICKH == 0))) = true :=
  by decide +kernel

end ReadsAnswerThenClear

/-! PersistentWordGovernsAfterItsCommit -/

namespace PersistentWordGovernsAfterItsCommit

/-- A word of the user area commits. -/
def committing : State := { hubWith [(R.PRB_USER 3, 1)] with prb := { busy := some ⟨.host, R.PRB_USER 3, 77, 0⟩, wear := [(prbBlockOf (R.PRB_USER 3), 5)] } }

theorem test_premises :
    ((({} : State).reaches .host (topoReg 0) && ({} : State).reaches .host (topoReg 6) &&
      ({} : State).reaches .host (topoReg 7) && ({} : State).reaches .host (topoReg 10)) &&
     (portFree {} && !({} : State).readOnly (prbBlockOf (topoReg 0)) &&
      !({} : State).readOnly (prbBlockOf (topoReg 10)) && !({} : State).anyDeblocked) &&
     (committing.prb.queue.isEmpty && committing.prb.backlog.isEmpty && (committing.waiting 0).isEmpty &&
      (regRow (R.PRB_USER 3)).map (fun r => r.pw) == some 0xFFFFFFFF && committing.prb.wear.all (fun p =>
      decide (p.2 + 1 < 90000000)))) = true := by decide +kernel

theorem test_topologyWrite :
    ((after (.topologyWrite .host 1 5 5) {} (fun u => u.prb.busy.map (fun w =>
      (w.who, w.off)) == some (.host, topoReg 1) && u.reg (topoReg 1) == ({} : State).reg (topoReg 1))) &&
     ((hubWith [(R.HQ_ARM_STAT 0, 0xFFFFFFFF)]).anyDeblocked &&
      after (.topologyWrite .host 10 5 5) (hubWith [(R.HQ_ARM_STAT 0, 0xFFFFFFFF)]) (fun u => u.prb.busy.isNone &&
      u.latchBit 0x002 && u.reg (topoReg 10) == ({} : State).reg (topoReg 10)))) = true := by decide +kernel

theorem test_pwCommit :
    (after (.pwCommit 9) committing (fun u => u.reg (R.PRB_USER 3) == 77 && u.prb.busy.isNone &&
      u.wearOf (prbBlockOf (R.PRB_USER 3)) == 6)) = true := by decide +kernel

end PersistentWordGovernsAfterItsCommit

/-! GrantsKeepTheirOrder -/

namespace GrantsKeepTheirOrder

/-- A request as it waits. -/
def wr (a : Ask) : WaitReq := { who := a.who, key := a.key, off := a.off, val := a.val }
/-- Two requests wait at a resource. -/
def queued : State := ({} : State).setWaiting 3 [wr { who := .core 1, key := 2 }, wr { who := .host, key := 4 }]

theorem test_premises :
    (((slotOrder WaitReq.isSafety WaitReq.lt (queued.waiting 3) ([⟨.core 0, 9, 0, 0⟩].map wr)).length == 3) &&
     ((({} : State).setWaiting 1 []).reaches .host R.MI_ERR && plainWrite R.MI_ERR &&
      (({} : State).waiting 1).isEmpty && (({} : State).waiting 11).isEmpty) &&
     (portFree {} && !({} : State).readOnly (prbBlockOf (R.PRB_USER 2047))) &&
     (((treadWith {}).tread 0).asks.isEmpty && plainTread R.T_HT_CFG && ((treadWith {}).tread 0).onSupply &&
      (treadRow R.T_HT_CFG).map (fun r => r.pw) == some 0)) = true := by decide +kernel

theorem test_resourceGrant :
    ((after (.resourceGrant (.hub 3 [⟨.core 0, 9, 0, 0⟩]) 5) queued (fun u => (u.waiting 3).length == 2 &&
      u.rd (F.GEN_CONT_COUNT 3) == 1)) &&
     (after (.resourceGrant (.hub 3 [⟨.core 0, 9, 0, 0⟩]) 5) (queued.setReg (R.GEN_CONT 3) 0xFFFFFFFF) (fun u =>
      u.rd (F.GEN_CONT_COUNT 3) == 0xFFFFFFFF)) &&
     (after (.resourceGrant (.hub 1 [⟨.host, 9, R.MI_ERR, 1⟩]) 5) (hubWith [(R.MI_ERR, 3)]) (fun u =>
      u.reg R.MI_ERR == 2 && (u.waiting 1).isEmpty)) &&
     (after (.resourceGrant (.hub 11 [⟨.host, 9, R.MI_ERR, 1⟩]) 5) (hubWith [(R.MI_ERR, 3)]) (fun u =>
      u.reg R.MI_ERR == 2)) &&
     (after (.resourceGrant (.hub 0 [⟨.host, 9, R.PRB_USER 2047, 1⟩]) 5) {} (fun u =>
      u.prb.busy == some ⟨.host, R.PRB_USER 2047, 1, 0⟩ && u.regs == [])) &&
     (after (.resourceGrant (.tread 0 [⟨.firmware, R.T_HT_CFG, 0x1234⟩]) 5) (treadWith {}) (fun u =>
      (u.tread 0).reg R.T_HT_CFG == 0x1234 && (u.tread 0).asks.isEmpty)) &&
     (after (.resourceGrant (.hub 5 []) 5) {} (fun u => (u.waiting 5).isEmpty && u.regs == []))) = true :=
  by decide +kernel

theorem test_requestWithdrawal :
    ((after (.requestWithdrawal 3 .host 4 5) queued (fun u => u.waiting 3 == [wr { who := .core 1, key := 2 }])) &&
     (after (.requestWithdrawal 3 .host 2 5) queued (fun u => u.waiting 3 == queued.waiting 3))) = true :=
  by decide +kernel

end GrantsKeepTheirOrder

/-! ConditionedWordsAreJudged -/

namespace ConditionedWordsAreJudged

/-- The word whose commit runs after a command on a free port is `w` with value `v`. -/
def commits (c : Instr) (s : State) (off v : Nat) : Bool :=
  portFree s && !s.pwr.held && after c s (fun u => u.prb.busy == some ⟨.host, off, BitVec.ofNat 32 v, 0⟩)
/-- A command on a free port is ignored with a source. -/
def ignored (c : Instr) (s : State) (src : Nat) : Bool :=
  portFree s && !s.pwr.held && after c s (fun u => u.prb.busy.isNone && u.latchBit src)

theorem test_premises :
    ((({} : State).reaches .host R.GEN_CYC_LEN && ({} : State).reaches .host R.GEN_CYC_CTRL &&
      ({} : State).reaches .host (R.MI_CFG 3)) &&
     (!({} : State).readOnly 0)) = true := by decide +kernel

theorem test_cycleLengthWrite :
    ((commits (.cycleLengthWrite .host 0xF0000064 5) {} 0x400 100) &&
     (ignored (.cycleLengthWrite .host 99 5) {} 3) &&
     (ignored (.cycleLengthWrite .host 0x7D1 5) {} 3) &&
     (ignored (.cycleLengthWrite .host 500 5) (hubWith [(R.HQ_ARM_STAT 0, 0xFFFFFFFF)]) 3)) = true := by decide +kernel

theorem test_cycleControlWrite :
    (commits (.cycleControlWrite .host 0x37 5) (hubWith [(R.HQ_ARM_STAT 0, 0xFFFFFFFF)]) 0x404 7) = true :=
  by decide +kernel

theorem test_miConfigWrite :
    ((commits (.miConfigWrite .host (some 3) 0xFFF 5) {} 0x401C0 0xFFF) &&
     (commits (.miConfigWrite .host none 200 5) {} 0x40000 200) &&
     (ignored (.miConfigWrite .host none 201 5) {} 6) &&
     (ignored (.miConfigWrite .host (some 0) 0 5) (hubWith [(R.HQ_ARM_STAT 5, 0xFFFFFFFF)]) 6)) = true :=
  by decide +kernel

theorem test_severityWrite :
    ((commits (.severityWrite .host 0x002 7 5) {} (R.FLT_SEV 2) 4) &&
     (!srcSafety 0x002 && srcSafety 0x070 && after (.severityWrite .host 0x070 2 5) {} (fun u => u.latchBit 0x00F &&
      u.prb == {})) &&
     (commits (.severityWrite .host 0x002 1 5) (hubWith [(R.FLT_SEV 2, 0x34)]) (R.FLT_SEV 2) 3) &&
     (after (.severityWrite .host 0x002 1 5) (hubWith [(R.FLT_SEV 2, 0x34)]) (fun u => u.rdB F.FLT_ERR_FLOOR))) = true :=
  by decide +kernel

end ConditionedWordsAreJudged

/-! EventCountersSelectFreezeAndCount -/

namespace EventCountersSelectFreezeAndCount

theorem test_evcSelect :
    ((after (.evcSelect 63 511 false 5) { ({} : State) with evc := [(0, { src := 1, count := 3 }), (63, { src := 2, count := 7, wrap := true })] } (fun u =>
      Store.get u.evc {} 63 == { src := 511, count := 0, wrap := true } &&
      Store.get u.evc {} 0 == { src := 1, count := 3 } && u.regs == [])) &&
     (after (.evcSelect 63 511 true 5) { ({} : State) with evc := [(63, { src := 2, count := 7, wrap := true })] } (fun u =>
      Store.get u.evc {} 63 == { src := 511, count := 0, wrap := false }))) = true := by decide +kernel

theorem test_freeze :
    ((after (.freeze true 5) { ({} : State) with evc := [(0, { src := 1, count := 3 })] } (fun u =>
      u.rdB F.EVC_CTRL_FREEZE && u.count 1 4 == u)) &&
     (after (.freeze false 5) { hubWith [(R.EVC_CTRL, 1)] with evc := [(0, { src := 1, count := 2 ^ 48 - 1 })] } (fun u =>
      !u.rdB F.EVC_CTRL_FREEZE && (u.count 1 4).evc == [(0, { src := 1, count := 3, wrap := true })]))) = true :=
  by decide +kernel

theorem test_premises :
    ((EvcCounter.mk 2 5 false).add 1 4 == EvcCounter.mk 2 5 false) = true := by decide +kernel

end EventCountersSelectFreezeAndCount

/-! RecorderMovesItsSegments -/

namespace RecorderMovesItsSegments

/-- The recorder is on, segment 2 is armed, and the sources 0, 3 and 25 are enabled; input 1 takes falling edges, input 3 both. -/
def armedRec : State :=
  { hubWith [(R.REC_CTRL, 1), (R.REC_TRG_EN, 0x200000F), (R.REC_TRG_CFG, 0x840)] with
    recd := { segs := [(2, { st := 1 })], cur := some 2 } }
/-- The conditions of an armed segment. -/
def armedFor (s : State) (src h j : Nat) : Bool :=
  s.rdB F.REC_CTRL_EN && bitOf (s.erd (F.REC_TRG_EN_EN)) src && !bitOf (Store.get s.recd.trigs 0 (s.cycAt h)) src &&
    (List.range 4).all (fun l => !bitOf (s.erd (F.REC_TBUS_OUT_SRC l)) src) && s.recd.cur == some j && (s.seg j).st == 1 &&
    !serialLt (s.sliceNo (s.cycAt h)) (s.seg j).first &&
    decide (s.sliceDist (s.sliceNo (s.cycAt h)) (s.sliceNo s.cyc) ≤ s.rd F.REC_PP_PRE + 8)
/-- Segment 2 is full, and delivery is on to ring 48 with a host area of 128 slices. -/
def copying : State :=
  { hubWith [(R.REC_CTRL, 5), (R.REC_HSIZE, 278528), (R.HQ_RING_STAT 48, 0x30000), (R.HQ_STAT, 0x800)] with
    recd := { segs := [(2, { st := 4, slices := [{}] }), (3, { st := 1 })], cur := some 3, full := [2] } }

theorem test_premises :
    ((armedFor armedRec 0 5 2 && armedFor armedRec 1 5 2 && armedFor armedRec 3 5 2 &&
      armedFor armedRec 25 (armedRec.advance 5).clk.hall 2) &&
     (armedRec.erd (F.REC_TRG_CFG_EDGE 0) == 0 && armedRec.erd (F.REC_TRG_CFG_EDGE 1) == 1 &&
      armedRec.erd (F.REC_TRG_CFG_EDGE 3) == 2) &&
     (copying.areaFor (copying.recBytes (copying.seg 2)) == some 0 && !copying.ringFull copying.recRing &&
      copying.recd.lostN == 0)) = true := by decide +kernel

theorem test_trigInEdge :
    ((after (.trigInEdge 0 true 5) armedRec (fun u => (u.seg 2).st == 2 && (u.seg 2).tsrc == 1 &&
      (u.seg 2).trigHall == 5 && u.rdB F.REC_STAT_POST)) &&
     (after (.trigInEdge 3 true 5) armedRec (fun u => (u.seg 2).st == 2 && (u.seg 2).tsrc == 8)) &&
     (after (.trigInEdge 1 true 5) armedRec (fun u => bitOf u.recd.trigIn 1 && u.recd.segs == armedRec.recd.segs &&
      u.regs == armedRec.regs))) = true := by decide +kernel

theorem test_trig :
    (after (.trig 5) armedRec (fun u => (u.seg 2).st == 2 && (u.seg 2).tsrc == 2 ^ 25 && u.rdB F.REC_STAT_POST)) = true :=
  by decide +kernel

theorem test_recStop :
    (after (.recStop 5) armedRec (fun u => u.recd.cur.isNone && u.seg 2 == {} && !u.rdB F.REC_STAT_ARMED)) = true :=
  by decide +kernel

theorem test_recFree :
    (after (.recFree 4095 5) { hubWith [(R.REC_SEG, 4096)] with recd := { segs := [(0, { st := 1 }), (4095, { st := 3 })], cur := some 0, full := [4095, 7] } } (fun u =>
      u.seg 4095 == {} && u.recd.full == [7] && (u.seg 0).st == 1)) = true := by decide +kernel

theorem test_recEnable :
    (!({} : State).recOk && after (.recEnable 1 5) {} (fun u => !u.rdB F.REC_CTRL_EN && u.rdB F.REC_ERR_CFG_WR)) = true :=
  by decide +kernel

theorem test_segmentFull :
    (after (.segmentFull 5) { hubWith [(R.REC_CTRL, 1), (R.REC_PP, 0x10000)] with recd := { segs := [(2, { st := 2, trigCyc := 4, slices := [{ cyc := 4 }, { cyc := 5 }] })], cur := some 2 } } (fun u =>
      (u.seg 2).st == 3 && u.recd.full == [2])) = true := by decide +kernel

end RecorderMovesItsSegments

/-! CycleStartTrainAndDeadline -/

namespace CycleStartTrainAndDeadline

/-- Port 0 has emitted frame 7, whose cycle began at hall time 0. -/
def emitted7 (late : List Nat) (trains : List Train) : State :=
  ((hubWith [(R.GEN_CYC_NUM, 8)]).setPort 0 { sent := [⟨7, 0, 0, ftControl, 0, 0, false, 1, [], false⟩], lateOf := late, trains := trains })
/-- Frame 7 as it returns. -/
def frame7 : Frame := mkFrame { ftype := 1, dir := 0, block := true, commit := false, land := false, baseJ := 6, lag := 0, cycle := 7, epoch := 0, e := 0 } [] [] 1 0
/-- The header of frame 7 alone. -/
def header7 : Frame :=
  let w := (Header.mk 1 0 true false false 6 0 7 0 0).word
  BitVec.ofNat 5888 (w + crc16 176 w * 2 ^ 176)

theorem test_premises :
    (((emitted7 [] []).roleOf 0 != 2 && hcrcOk header7 && !(emitted7 [] []).split 0) &&
     (((emitted7 [] []).port 0).sent.any (fun x => x.cyc == (headerOf header7).cycle &&
      x.ftype == (headerOf header7).ftype && !x.back && x.ftype == ftControl) && frameStart header7) &&
     (!decide ((emitted7 [] []).deadline 0 < ((emitted7 [] []).advance 0 |>.advance 5).clk.hall)) &&
     (decide ((emitted7 [] []).deadline 0 < ((emitted7 [] []).advance 0 |>.advance (ns 20000)).clk.hall)) &&
     (after .galleryDeadline (emitted7 [] []) (fun u => u.rd (F.GEN_RING_LATE_COUNT 0) == 1 &&
      u.rd (F.GEN_RING_LATE_RUN 0) == 1)) &&
     (after .galleryDeadline (emitted7 [] []) (fun u =>
      u.liveBit 0x102 == decide (max 1 ((emitted7 [] []).erd F.GEN_CYC_CTRL_LATE_LIM) ≤ 1))) &&
     (after .galleryDeadline ((emitted7 [] [⟨7, false, []⟩]).setReg (R.GEN_RING_LATE 0) 0x20003) (fun u =>
      u.reg (R.GEN_RING_LATE 0) == 3))) = true := by decide +kernel

theorem test_cycleStart :
    (after (.cycleStart []) {} (fun u => u.clk.started && u.cyc == 0 && u.clk.tkHall == ({} : State).nextStart &&
      u.eff == [])) = true := by decide +kernel

end CycleStartTrainAndDeadline

/-! MeasurementChannelsFollowTheirInputs -/

namespace MeasurementChannelsFollowTheirInputs

/-- Channels 0 (hub clock) and 1 (external clock) are enabled. -/
def channels : State := hubWith [(R.MI_CFG 0, 1), (R.MI_CFG 1, 3)]
/-- Output bit check of a first output with only zeros sampled. -/
def zeros (u : State) (c p : Nat) : Bool :=
  let w := u.reg (presetReg c p)
  sext 24 w.toNat == -0x7FFFFF && bits w.toNat 27 5 == 1 && bits w.toNat 25 2 == 2 && (u.outputs c p).head? == some (u.clk.hall, w)

theorem test_premises :
    (channels.chanOn 0 && channels.chanOn 1 && channels.hubClock 0 && !channels.hubClock 1 &&
      !channels.rdB (F.MI_CHSTAT_CLK_FAULT 1)) = true := by decide +kernel

theorem test_presetOutput :
    ((after (.presetOutput 0 0 0 0 0 0) channels (fun u => zeros u 0 0 && u.clk.hall == ns 700)) &&
     (after (.presetOutput 0 3 0 0 0 0) channels (fun u => zeros u 0 3)) &&
     (after (.presetOutput 1 1 0 0 (ns 50) 7) (channels.setChan 1 { stuck := true }) (fun u => zeros u 1 1 &&
      bits (u.reg (presetReg 1 1)).toNat 24 1 == 1 && u.rd (F.MI_CHSTAT_EXT_PERIOD 1) == 50))) = true :=
  by decide +kernel

theorem test_miClockFault :
    ((after (.miClockFault 1 none 5) channels (fun s => s.rdB (F.MI_CHSTAT_CLK_FAULT 1) &&
      s.getBit F.MI_ERR_CLK_STICKY 1 && s.liveBit 0x031 && s.reg (presetReg 1 3) == channels.reg (presetReg 1 3) &&
      after (.miClockRecovery 1 (ns 100) 9) s (fun u => !u.rdB (F.MI_CHSTAT_CLK_FAULT 1) && !u.liveBit 0x031 &&
      u.rd (F.MI_CHSTAT_EXT_PERIOD 1) == 100))) &&
     (after (.miClockFault 1 (some (ns 22)) 5) { channels with miLog := [(6, [(0, 0)])] } (fun s =>
      s.rdB (F.MI_CHSTAT_CLK_FAULT 1) && bits (s.reg (presetReg 1 2)).toNat 25 1 == 1))) = true := by decide +kernel

theorem test_modulatorStuck :
    (after (.modulatorStuck 1 5) channels (fun s => s.rdB (F.MI_CHSTAT_OVR 1) && s.getBit F.MI_ERR_OVR_STICKY 1 &&
      s.liveBit 0x021 && (s.chan 1).stuck && after (.modulatorStuckEnd 1 (ns 9)) s (fun u =>
      !u.rdB (F.MI_CHSTAT_OVR 1) && !u.liveBit 0x021 && !(u.chan 1).stuck &&
      (u.chan 1).stuckEnd == some (s.advance (ns 9)).clk.hall))) = true := by decide +kernel

theorem test_scaleApply :
    (after (.scaleApply 4) channels (fun u => u.miApply && u.regs == channels.regs && u.mi == channels.mi)) = true :=
  by decide +kernel

theorem test_realign :
    ((after (.realign (ns 7)) channels (fun u => (u.chan 0).startIx == 19 && (u.chan 0).alignHall == 0 &&
      u.rdB (F.MI_CHSTAT_ALIGNED 0))) &&
     (after (.realign 4) (channels.setReg (R.HQ_ARM_STAT 1) 0x2000) (fun u => u.latchBit 6 && u.mi == channels.mi))) = true :=
  by decide +kernel

end MeasurementChannelsFollowTheirInputs

/-! EngineFollowsItsCommands -/

namespace EngineFollowsItsCommands

/-- Core 1 commits two words. -/
def staged : State := { ({} : State) with ace := { staging := [(4, 9), (5, 8)] } }
/-- Block 3 of the active bank is a TAP that reads the constant one. -/
def tapList : State := { ({} : State) with ace := { bank0 := [(48, 11), (49, 0x3FE)] } }

theorem test_premises :
    (!({} : State).idleUnit && dType (tapList.bank true) 3 == 11 && dA (tapList.bank true) 3 == 0x3FE) = true :=
  by decide +kernel

theorem test_stgCommit :
    (after (.stgCommit (.core 1) 5 3) staged (fun s => s.stgStat 1 == 21 &&
      s.ace.waiting == [{ slot := 0, who := 1, mbx := 5, words := [9, 8, 0, 0] }] &&
      after (.stgCommit (.core 1) 6 4) s (fun u => bitOf (u.stgStat 1) 1 && u.ace.waiting == s.ace.waiting) &&
      after (.mailboxCommitGrant 5 4) s (fun u => u.ace.granted == s.ace.waiting && !bitOf (u.stgStat 1) 0))) = true :=
  by decide +kernel

theorem test_editBankWrite :
    ((after (.editBankWrite (.desc 1) 0xFFFFFFFF 3) {} (fun u => Store.get (u.bank false) 0 1 == dMask 1 &&
      u.bank true == [])) &&
     (after (.editBankWrite (.gain 7) 5 3) {} (fun u => Store.get (u.bank false) 0 4103 == 5 &&
      !u.rdB F.ACE_LIST_STAT_OK))) = true := by decide +kernel

theorem test_copy :
    (after (.copy 3) tapList (fun s => s.rdB F.ACE_LIST_STAT_BUSY && after (.editBankWrite (.gain 7) 5 3) s (fun u =>
      u.rdB F.ACE_LIST_STAT_IGN && u.bank false == []) && after (.copyDone 4) s (fun u =>
      u.bank false == tapList.ace.bank0 && !u.rdB F.ACE_LIST_STAT_BUSY))) = true := by decide +kernel

theorem test_checkDone :
    (after (.checkDone 4) { ({} : State) with ace := { checking := some (4, 2, 2, 600) } } (fun u =>
      !u.rdB F.ACE_LIST_STAT_OK && u.rd F.ACE_LIST_STAT_ERR == 4 && u.rd F.ACE_LIST_STAT_BLOCK == 2 &&
      u.rd F.ACE_LIST_STAT_COST == 511 && after (.switch 5) u (fun v => v.latchBit 0x008))) = true := by decide +kernel

theorem test_injectStart :
    ((after (.injectStart 3) {} (fun u => u.rdB F.ACE_INJ_STAT_REFUSED)) &&
     (after (.injectStart 3) { hubWith [(R.ACE_INJ_CTRL, 1)] with ace := { bank0 := [(0, 0x7A)], acc := 5 } } (fun u =>
      !u.rdB F.ACE_INJ_STAT_REFUSED && u.rd F.ACE_INJ_STAT_STATE == 2 && u.ace.acc == 0))) = true := by decide +kernel

theorem test_injectStop :
    (after (.injectStop 3) (hubWith [(R.ACE_INJ_STAT, 2)]) (fun u => u.ace.stopReq)) = true := by decide +kernel

theorem test_captureStart :
    (after (.captureStart 3) {} (fun s => s.rd F.ACE_CAP_STAT_STATE == 2 && after (.captureStop 4) s (fun u =>
      u.rd F.ACE_CAP_STAT_STATE == 0 && u.rdB F.ACE_CAP_STAT_ABORTED))) = true := by decide +kernel

theorem test_dftDone :
    (after (.dftDone 3) (hubWith [(R.ACE_CAP_STAT, 3), (R.ACE_CAP_CTRL, 0xFFFFFFFF)]) (fun u =>
      u.rdB F.ACE_CAP_STAT_DFT_DONE)) = true := by decide +kernel

end EngineFollowsItsCommands

/-! GalleryFollowsItsEvents -/

namespace GalleryFollowsItsEvents

/-- Ring 0 belongs to arm 0, with cell 0 admitted. -/
def galRegs : List (Nat × Word) := [(R.GEN_RING_ARM 0, 0xFFFFFFF0), (R.GEN_ARM_CFG 0, 1), (R.RP_CELL_INFO 0 0, 1),
  (R.GAL_ARM_CFG 0, 0x200), (R.GAL_CELL_CEST 0, 0x3F800000), (R.GAL_HEALTH_CFG, 0)]
/-- Cell 0 has two windows of data and current samples. -/
def windowCell : State := { hubWith galRegs with
  miLog := [(0, [(ns 5000, 9), (ns 1000, 7)])],
  gal := { cells := [(0, { data := some ⟨100, false, 0, false, ns 5000, 2⟩, prev := some ⟨90, true, 0, false, ns 1000, 1⟩, fresh := true })] } }
/-- The gallery with a health check due. -/
def aged (l : List (Nat × Word)) : State := (hubWith l).setGalArm 0 { hlthN := 2 ^ 24 }

theorem test_healthCheck :
    (!decide ((({} : State).galArm 0).hlthN ≥ ({} : State).healthEvery) && after (.healthCheck 0) {} (fun u => u == {})) = true :=
  by decide +kernel

theorem test_premises :
    (((aged galRegs).healthEvery ≤ ((aged galRegs).galArm 0).hlthN) &&
     ((hubWith galRegs).armOf 0 == some 0 && (hubWith galRegs).cellsOf 0 == List.range 32 &&
      !(hubWith galRegs).nextLive 0 && !({} : State).nextResumes) &&
     ((windowCell.nearest 0 0 (ns 1000)).isSome && (windowCell.nearest 0 0 (ns 5000)).isSome &&
      (windowCell.galCell 0).winAt != ns 5000)) = true := by decide +kernel

theorem test_bandAdapt :
    ((after (.bandAdapt 0) ({} : State) (fun u => u == {})) &&
     (after (.bandAdapt 2) (({} : State).setGalArm 2 { winEnd := some (30, 0) }) (fun u =>
      (u.galArm 2).winEnd.isNone && u.rd (F.GAL_ARM_MRATE_RATE 2) == 7680 &&
      (u.galArm 2).band == u.erd (F.GAL_ARM_BAND_BMIN 2)))) = true := by decide +kernel

theorem test_estimatorWindow :
    (after (.estimatorWindow 0) windowCell (fun u => (u.galCell 0).winAt == ns 5000 && u.regs == windowCell.regs)) = true :=
  by decide +kernel

theorem test_galleryWrite :
    ((after (.galleryWrite 0x100 0xFFFFFFFF 4) ({} : State) (fun u => u.reg (R.GAL_ARM_CFG 0) == 0x3FFF &&
      u.eff == [])) &&
     (after (.galleryWrite 0x104 0x3F800000 4) (hubWith [(R.HQ_ARM_STAT 0, 0x2000)]) (fun u => u.latchBit 9 &&
      u.reg (R.GAL_ARM_QV 0) == hubReset (R.GAL_ARM_QV 0))) &&
     (after (.galleryWrite 0x10040 0xFFFFFFFF 4) ({} : State) (fun u => u.reg (R.GAL_CELL_CTRL 1) == 0xFFFF0003)) &&
     (!(hubWith (galRegs ++ [(R.HQ_ARM_STAT 0, 0x2000)])).cellFree 1 &&
      after (.galleryWrite 0x10040 0x12340001 4) (hubWith (galRegs ++ [(R.HQ_ARM_STAT 0, 0x2000)])) (fun u =>
      u.latchBit 9 && bits (u.reg (R.GAL_CELL_CTRL 1)).toNat 16 16 == bits (hubReset (R.GAL_CELL_CTRL 1)).toNat 16 16))) = true :=
  by decide +kernel

theorem test_estimateLoad :
    ((after (.estimateLoad 3 1 0x3F800000 4) ({} : State) (fun u => u.rd (F.GAL_CELL_CONF_NACC 3) == 64 &&
      (u.galCell 3).estB == b64.put (b32.dec 0x3F800000))) &&
     (after (.estimateLoad 3 1 0x3F800000 4) (hubWith (galRegs ++ [(R.HQ_ARM_STAT 0, 0x2000)])) (fun u =>
      u.latchBit 9 && u.galCell 3 == {}))) = true := by decide +kernel

end GalleryFollowsItsEvents

/-! LanesFollowTheirReceivers -/

namespace LanesFollowTheirReceivers

/-- Port 1 is enabled and has lock. -/
def lockPort : State := (({} : State).wrB (F.RP_STAT_LOCK 1) true).wrB (F.RP_CFG_EN 1) true
/-- A Tread whose near lane has had lock. -/
def lockTread : State := treadWith (({ near := { ever := true, role0 := false } } : Tread).wrB F.T_LN_STAT_NLOCK true)

theorem test_blockLock :
    ((after (.blockLock (.port 1) 9) (({} : State).wrB (F.RP_CFG_EQ_FREEZE 1) true) (fun u =>
      u.rdB (F.RP_STAT_LOCK 1) && !(u.port 1).linkFault)) &&
     (after (.blockLock (.tit 2) 9) {} (fun u => u.getBit F.STK_LINK_LOCK 2))) = true := by decide +kernel

theorem test_lossOfLock :
    ((after (.lossOfLock (.port 1) 9) lockPort (fun u => !u.rdB (F.RP_STAT_LOCK 1) && u.rdB (F.RP_ERR_LOL 1) &&
      u.rd (F.RP_CNT_LINK_LOL 1) == 1)) &&
     (after (.lossOfLock (.near 0) 9) lockTread (fun u => !(u.tread 0).laneLock false &&
      ((u.tread 0).lane false).fault == 2)) &&
     (after (.lossOfLock (.tit 2) 9) (({} : State).wr F.STK_LINK_LOCK 15) (fun u => u.rd F.STK_LINK_LOCK == 11))) = true :=
  by decide +kernel

theorem test_lossOfSignal :
    ((after (.lossOfSignal (.port 1) 9) lockPort (fun u => u.rdB (F.RP_STAT_LOS 1) && !u.rdB (F.RP_STAT_LOCK 1) &&
      u.rd (F.RP_CNT_LINK_LOS 1) == 1 && u.rd (F.RP_CNT_LINK_LOL 1) == 1)) &&
     (after (.lossOfSignal (.near 0) 9) lockTread (fun u => !(u.tread 0).laneLock false && (u.tread 0).laneLos false &&
      ((u.tread 0).lane false).fault == 1)) &&
     (after (.lossOfSignal (.tit 2) 9) (({} : State).wr F.STK_LINK_LOCK 15) (fun u => u.rd F.STK_LINK_LOCK == 11 &&
      u.rd F.STK_LINK_LOS == 4))) = true := by decide +kernel

theorem test_signalReturn :
    ((after (.signalReturn (.port 1) 9) (lockPort.wrB (F.RP_STAT_LOS 1) true) (fun u => !u.rdB (F.RP_STAT_LOS 1) &&
      u.rdB (F.RP_STAT_LOCK 1))) &&
     (after (.signalReturn (.near 0) 9) lockTread (fun u => !(u.tread 0).laneLos false &&
      (u.tread 0).laneLock false)) &&
     (after (.signalReturn (.tit 2) 9) (({} : State).wr F.STK_LINK_LOS 15) (fun u => u.rd F.STK_LINK_LOS == 11))) = true :=
  by decide +kernel

theorem test_linkFaultReceived :
    ((after (.linkFaultReceived (.port 1) 9) lockPort (fun u => (u.port 1).linkFault && u.rdB (F.RP_STAT_LOCK 1))) &&
     (after (.linkFaultReceived (.near 0) 9) lockTread (fun u => ((u.tread 0).lane false).lf &&
      ((u.tread 0).lane false).fault == 2))) = true := by decide +kernel

theorem test_linkFaultCleared :
    ((after (.linkFaultCleared (.port 1) 9) (lockPort.updPort 1 (fun p => { p with linkFault := true })) (fun u =>
      !(u.port 1).linkFault)) &&
     (after (.linkFaultCleared (.near 0) 9) lockTread (fun u => !((u.tread 0).lane false).lf))) = true :=
  by decide +kernel

theorem test_rateSwitch :
    ((after (.rateSwitch (.port 1) 9) (lockPort.updPort 1 (fun p =>
      { p with rateAt := some (1, true), began := true })) (fun u => u.rdB (F.RP_STAT_LOWRATE 1) &&
      (u.port 1).rateAt == none && (u.port 1).lowFrom == 1)) &&
     (after (.rateSwitch (.near 0) 9) (lockTread.updTread 0 (fun d => { d with rateAt := some (7, true) })) (fun u =>
      (u.tread 0).rdB F.T_LN_STAT_LOWRATE && (u.tread 0).rdB F.T_STAT_LOWP && (u.tread 0).rateAt == none))) = true :=
  by decide +kernel

theorem test_premises :
    (!(lockTread.tread 0).laneLos true && (lockTread.tread 0).onSupply && !(lockTread.tread 0).laneLos false) = true :=
  by decide +kernel

theorem test_farendReceived :
    (after (.farendReceived (.near 0) 9) lockTread (fun u => (u.tread 0).role false == some (0, true))) = true :=
  by decide +kernel

theorem test_farendStops :
    (after (.farendStops (.near 0) 9) (lockTread.updTread 0 (fun d => d.farEnd false true)) (fun u =>
      (u.tread 0).role false == none)) = true := by decide +kernel

end LanesFollowTheirReceivers

/-! RingPortsFollowTheirCommands -/

namespace RingPortsFollowTheirCommands

/-- Ring 3 belongs to no deblocked arm and runs. -/
def runPort : State := ((({} : State).wrB (F.RP_STAT_LOCK 3) true).wrB (F.RP_CFG_EN 3) true).setPst 3 3
/-- Ring 0 belongs to arm 0, which is deblocked. -/
def livePort : State := (hubWith [(R.GEN_RING_ARM 0, 0xFFFFFFF0), (R.GEN_ARM_CFG 0, 1), (R.HQ_ARM_STAT 0, 0x2000)]).setPst 0 3
/-- State or command of the witnesses. -/
def enum0Header : Frame :=
  let w := (Header.mk 1 0 true false false 6 0 7 0 0).word
  BitVec.ofNat 5888 (w + crc16 176 w * 2 ^ 176)

theorem test_premises :
    ((livePort.portLive 0 && !runPort.portLive 3 && runPort.roleOf 3 == 0) &&
     (hcrcOk enum0Header && (runPort.setPst 3 4).headerAccepted enum0Header &&
      !((runPort.setPst 3 4).port 3).feSeen 77 && ({} : State).dupMode != 2)) = true := by decide +kernel

theorem test_rpConfigWrite :
    ((after (.rpConfigWrite 0 1 9) livePort (fun u => u.latchBit 0xB &&
      u.reg (R.RP_CFG 0) == livePort.reg (R.RP_CFG 0)) || bits (livePort.reg (R.RP_CFG 0)).toNat 0 2 == 1) &&
     (after (.rpConfigWrite 3 0xFFFB 9) runPort (fun u => u.reg (R.RP_CFG 3) == 0xFB))) = true := by decide +kernel

theorem test_enum :
    ((after (.enum 0 9) livePort (fun u => u.latchBit 0xB && u.pst 0 == 3)) &&
     (after (.enum 3 9) runPort (fun u => u.pst 3 == 2 && (u.port 3).enumCnt == 0))) = true := by decide +kernel

theorem test_enumUnstable :
    (after (.enumUnstable 3 9) ((runPort.setPst 3 2).updPort 3 (fun p => { p with enumCnt := 64 })) (fun u =>
      u.liveBit 0x11B && u.pst 3 == 2)) = true := by decide +kernel

theorem test_rejoin :
    ((after (.rejoin 0 9) livePort (fun u => u == livePort.advance 9)) &&
     (after (.rejoin 3 9) ((runPort.wrB (F.RP_STAT_SPLIT 3) true).wrB ⟨R.FLT_LIVE 8, 31, 1⟩ true) (fun u =>
      !u.split 3 && !u.liveBit 0x11F && u.pst 3 == 2))) = true := by decide +kernel

theorem test_rate :
    ((after (.rate 0 9) livePort (fun u => u == livePort.advance 9)) &&
     (after (.rate 3 9) runPort (fun u => (u.port 3).carts.map (fun c =>
      (c.op, c.arg)) == [(opRate, b2n (runPort.rdB (F.RP_CFG_LOWRATE 3)))]))) = true := by decide +kernel

theorem test_rpAdmit :
    ((after (.rpAdmit 3 6 9) ((runPort.wr (F.RP_CELL_INFO_STATE 3 1) 2).wr (F.RP_CELL_INFO_STATE 3 2) 1) (fun u =>
      (u.port 3).carts.map (fun c => (c.op, c.pos)) == [(opAdmit, 1)])) &&
     (after (.rpAdmit 3 6 9) (runPort.setPst 3 5) (fun u => u == (runPort.setPst 3 5).advance 9))) = true :=
  by decide +kernel

theorem test_farEndMissing :
    ((after (.farEndMissing 3 77) (runPort.setPst 3 4) (fun u => u.rdB (F.RP_ERR_FE_MISS 3) &&
      u.rd (F.RP_FE_MISS 3) == 1)) &&
     (after (.farEndMissing 0 77) ((({} : State).wr F.GEN_TOPO_DUP_MODE 2).wr F.GEN_TOPO_DUP_STRAP 2 |>.wr F.STK_RED_STAT_STATE 1 |>.withRegs []) (fun u =>
      (u.port 0).splitTrig.isSome))) = true := by decide +kernel

theorem test_ringSplit :
    (after (.ringSplit 4 (ns 300)) ((((({} : State).wr F.GEN_TOPO_DUP_MODE 1).wr F.GEN_TOPO_DUP_STRAP 1).withRegs []).updPort 4 (fun p =>
      { p with splitTrig := some (ns 90) })) (fun u => u.split 4 && u.split 5 && u.liveBit 0x127 &&
      (u.port 4).splitTrig == none)) = true := by decide +kernel

theorem test_rttBroadcast :
    ((after (.rttBroadcast 3) runPort (fun u => u == runPort)) &&
     (after (.rttBroadcast 3) (runPort.updPort 3 (fun p => { p with rHist := [ns 5, ns 7] })) (fun u =>
      u.rd (F.HT_RING_RTT_RTT 3) == 6 * 256 && (u.port 3).carts.map (fun c =>
      (c.op, c.arg, c.data % 2 ^ 24)) == [(opBwr, 0x4C0, 6 * 256)]))) = true := by decide +kernel

end RingPortsFollowTheirCommands

/-! TreadAnswersCartsAndFrames -/

namespace TreadAnswersCartsAndFrames

/-- A frame on its outbound pass at a Tread. -/
def aFrame (ftype : Nat) : TFrame := { cyc := 7, ftype := ftype, dir := 0, pfar := 5, hop := 3, acc := true, valid := true, dlerr := false, tHat := 0, aHat := 0, outAt := 0 }
/-- A Tread at position 3, with the frame of cycle 7 on its outbound pass. -/
def cartTread (adm : Bool) : Tread :=
  ((((({ frames := [aFrame 1], near := { ever := true, role0 := false }, far := { ever := true, role0 := false } } : Tread).wr F.T_ID_INFO_HPOS 3).wr F.T_ID_INFO_POS 3).wrB F.T_ID_INFO_ADM adm).wrB F.T_LN_STAT_NLOCK true).wrB F.T_LN_STAT_FLOCK true
/-- State or command of the witnesses. -/
def cartHub (adm : Bool) : State := treadWith (cartTread adm)
/-- Frame 7 for position 3. -/
def frame7 (block : Bool) : Frame := mkFrame { ftype := 1, dir := 0, block := block, commit := false, land := false, baseJ := 6, lag := 0, cycle := 7, epoch := 0, e := 0 } [] [] 3 5
/-- State or command of the witnesses. -/
def header7 (crc : Nat) : Frame :=
  let w := (Header.mk 1 0 true false false 6 0 7 0 0).word
  BitVec.ofNat 5888 (w + ((crc16 176 w + crc) % 2 ^ 16) * 2 ^ 176)
/-- State or command of the witnesses. -/
def ansOf (u : State) : Option Slot := (u.tread 0).lastReply.bind TRep.ans
/-- State or command of the witnesses. -/
def maskOf (u : State) : Option Bool := (u.tread 0).lastReply.bind TRep.mask

theorem test_premises :
    (((cartTread true).pos == 3 && (cartTread false).pos == 3 && (cartTread true).role false == none) &&
     (plainTread R.T_SW_TCYC && (treadRow R.T_SW_TCYC).isSome && (treadRow R.T_SW_TCYC).all (fun r => r.pw == 0)) &&
     (hcrcOk (header7 0) && !hcrcOk (header7 1) && (headerOf (header7 0)).ftype == ftControl &&
      (headerOf (header7 0)).cycle == 7)) = true := by decide +kernel

theorem test_rd :
    ((after (.rd 0 0 1 4 0 false) (cartHub true) (fun u => ansOf u == none &&
      (u.tread 0).regs == (cartTread true).regs)) &&
     (after (.rd 0 0 1 3 0 false) (cartHub false) (fun u => ansOf u == some (replyTo (reqCart opRd 1 3 0 0) 5 0))) &&
     (after (.rd 0 0 1 3 (Fin.ofNat 1024 (R.T_ID_INFO / 4)) false) (cartHub true) (fun u => (ansOf u).map (fun v =>
      (cRpl v, cRstat v, cData v)) == some (true, 0, ((cartTread true).readReg R.T_ID_INFO).2.toNat)))) = true :=
  by decide +kernel

theorem test_wr :
    ((needsBlock R.T_SW_CFG && (treadRow R.T_SW_CFG).isSome &&
      after (.wr 0 0 1 3 (Fin.ofNat 1024 (R.T_SW_CFG / 4)) false 150) (treadWith ((cartTread true).wrB F.T_SW_STAT_BLOCKED false)) (fun u =>
      (u.tread 0).regs == ((cartTread true).wrB F.T_SW_STAT_BLOCKED false).regs && (ansOf u).map cRstat == some 3)) &&
     (after (.wr 0 0 1 3 (Fin.ofNat 1024 (R.T_SW_TCYC / 4)) false 150) (cartHub true) (fun u =>
      (u.tread 0).rd F.T_SW_TCYC_LEN == 150 && (ansOf u).map cRstat == some 0))) = true := by decide +kernel

theorem test_bwr :
    ((after (.bwr 0 0 1 (Fin.ofNat 1024 (R.T_SW_TCYC / 4)) false 150) (cartHub true) (fun u =>
      (u.tread 0).rd F.T_SW_TCYC_LEN == 150 && maskOf u == some true)) &&
     (after (.bwr 0 0 1 (Fin.ofNat 1024 (R.T_SW_TCYC / 4)) false 150) (cartHub false) (fun u =>
      (u.tread 0).regs == (cartTread false).regs && maskOf u == none))) = true := by decide +kernel

theorem test_fwblk :
    ((after (.fwblk 0 0 1 5 0x1122334455667788) (cartHub true) (fun u => (u.tread 0).mram == [] &&
      (u.tread 0).regs == (cartTread true).regs)) &&
     (after (.fwblk 0 0 1 5 0x1122334455667788) (treadWith ((cartTread true).wrB F.T_FW_CTRL_UPD_EN true)) (fun u =>
      (u.tread 0).mram.length == 8 && maskOf u == some true))) = true := by decide +kernel

theorem test_cartAdmit :
    ((after (.cartAdmit 0 0 1 3 0) (cartHub false) (fun u =>
      (u.tread 0).rdB F.T_ID_INFO_ADM == ((cartTread false).uid == 0) &&
      (ansOf u).map cRstat == some (if (cartTread false).uid == 0 then 0 else 4))) &&
     (after (.cartAdmit 0 0 1 3 (BitVec.ofNat 64 (cartTread false).uid)) (cartHub false) (fun u =>
      (u.tread 0).rdB F.T_ID_INFO_ADM && (u.tread 0).rd F.T_ID_INFO_POS == 3 && (ansOf u).map cRstat == some 0)) &&
     (after (.cartAdmit 0 0 1 3 1) (cartHub false) (fun u => (u.tread 0).regs == (cartTread false).regs &&
      (ansOf u).map cRstat == some 4))) = true := by decide +kernel

theorem test_linkTake :
    (after (.linkTake 0 0 1 3) (cartHub true) (fun u => (u.tread 0).cmdRole && (ansOf u).map cRstat == some 0)) = true :=
  by decide +kernel

theorem test_linkRelease :
    (after (.linkRelease 0 0 1 3) (treadWith { cartTread true with cmdRole := true }) (fun u => !(u.tread 0).cmdRole)) = true :=
  by decide +kernel

theorem test_rateQuery :
    ((after (.rateQuery 0 0 1 true) (cartHub true) (fun u => maskOf u == some true)) &&
     (after (.rateQuery 0 0 1 false) (cartHub true) (fun u => maskOf u == some (cartTread true).ready))) = true :=
  by decide +kernel

theorem test_rateGo :
    (after (.rateGo 0 0 1 true 77) (cartHub true) (fun u => (u.tread 0).rateAt == some (77, true) &&
      maskOf u == some true)) = true := by decide +kernel

theorem test_ident :
    (after (.ident 0 0 1 3 1) (cartHub true) (fun u =>
      (ansOf u).map cData == some (bits (cartTread true).enum0.toNat 64 64))) = true := by decide +kernel

end TreadAnswersCartsAndFrames

/-! TreadSwitchesAsCommanded -/

namespace TreadSwitchesAsCommanded

/-- A Tread whose lanes have lock, whose firmware runs and that stands at level 0. -/
def goTread : Tread :=
  ((((({} : Tread).wrB F.T_LN_STAT_NLOCK true).wrB F.T_STAT_BOOTED true).wrB F.T_SW_STAT_BLOCKED false).wr F.T_SW_STAT_STATE 1).setOut 1 { on := true, fb := true }
/-- State or command of the witnesses. -/
def allOff (d : Tread) : Bool := (List.range 4).all (fun n => !(d.out n).on)
/-- State or command of the witnesses. -/
def cmdOf (state mode : Nat) : TCmd := ⟨100, state, mode, 0, true, none, 7⟩
/-- State or command of the witnesses. -/
def bypOf (c f : Option Time) : Tread := { goTread with byp := some { start := 0, guard := false, conf := c, fired := f } }
/-- A Tread that lands from cycle 5 with an entry of level +1 for cycle 6. -/
def landTread (armed : Bool) : Tread :=
  ((({ goTread with k0 := some (5, 0), land := [(6, some (6, 0x5))] } : Tread).wrB F.T_LAND_STAT_ARMED armed).wr F.T_LAND_CFG_DEPTH 4)

theorem test_premises :
    (!goTread.onlyBlock && goTread.outs.length == 4 && goTread.locked) = true := by decide +kernel

theorem test_actionInstant :
    ((after (.actionInstant 0) (treadWith { goTread with cmds := [cmdOf 0 0] }) (fun u => (u.tread 0).cmds == [] &&
      (u.tread 0).blocked && (u.tread 0).byCmd && allOff (u.tread 0))) &&
     (after (.actionInstant 0) (treadWith { goTread.wrB F.T_STAT_BOOTED false with cmds := [cmdOf 2 0] }) (fun u =>
      (u.tread 0).blocked && (u.tread 0).byCmd && allOff (u.tread 0))) &&
     (after (.actionInstant 0) (treadWith { goTread with cmds := [cmdOf 7 0] }) (fun u => (u.tread 0).blocked &&
      (u.tread 0).rd F.T_FLT_STAT_LAST_CODE == 0x50 && (u.tread 0).rd F.T_SW_CNT_BADCMD == 1 && allOff (u.tread 0))) &&
     (after (.actionInstant 0) (treadWith { goTread with cmds := [cmdOf 2 0] }) (fun u =>
      (u.tread 0).rd F.T_SW_STAT_STATE == 2 && !(u.tread 0).blocked && !(u.tread 0).byCmd))) = true := by decide +kernel

theorem test_ditherEdge :
    (after (.ditherEdge 0) (treadWith { goTread with edge2 := some (500, 2) }) (fun u =>
      (u.tread 0).rd F.T_SW_STAT_STATE == 2 && (u.tread 0).edge2 == none && (u.tread 0).hall == 500)) = true :=
  by decide +kernel

theorem test_deadTimeTurnOn :
    ((after (.deadTimeTurnOn 0 0) (treadWith { goTread.setOut 1 {} with turnOnA := some ⟨0, 700⟩ }) (fun u =>
      (u.tread 0).turnOn 0 == none && ((u.tread 0).out 0).on)) &&
     (after (.deadTimeTurnOn 0 0) (treadWith ({ goTread.setOut 1 { fb := true } with turnOnA := some ⟨0, 700⟩ } |>.wrB F.T_SW_CFG_GFB_EN true)) (fun u =>
      (u.tread 0).turnOn 0 == some ⟨0, 700⟩))) = true := by decide +kernel

theorem test_gateFeedbackOff :
    (after (.gateFeedbackOff 0 1 (ns 900)) (treadWith { goTread.setOut 1 { fb := true, sample := some 0, chg := 0, tFilt := 100 } with turnOnA := some ⟨0, 700⟩ }) (fun u =>
      !((u.tread 0).out 1).fb &&
      ((u.tread 0).out 1).tFilt == (100 + (900 - 100) / 2 ^ clampN 1 7 (goTread.rd F.T_SW_CFG_DT_ASH)) &&
      ((u.tread 0).out 0).on)) = true := by decide +kernel

theorem test_gfbMismatch :
    (after (.gfbMismatch 0 1 90) (treadWith (goTread.wrB F.T_SW_CFG_GFB_EN true)) (fun u => bitOf ((u.tread 0).rd F.T_GFB_STAT_LATCH) 1 && (u.tread 0).rd F.T_FLT_STAT_LAST_CODE == 9 && allOff (u.tread 0))) = true :=
  by decide +kernel

theorem test_carrierEdge :
    ((after (.carrierEdge 0 90) (treadWith { goTread with carrier := true }) (fun u =>
      (u.tread 0).rd F.T_SW_STAT_STATE == goTread.carrierAt 90)) &&
     (after (.carrierEdge 0 90) (treadWith goTread) (fun u =>
      u.tread 0 == ({ goTread with powered := true }).toHall 90))) = true := by decide +kernel

theorem test_carrierNotch :
    (after (.carrierNotch 0) (treadWith { goTread.wrB F.T_REFR_STAT_REQ true with carrier := true, reqAt := some 90 }) (fun u =>
      (u.tread 0).notchTo == some (goTread.periodStart (90 + goTread.notch / 2) + goTread.notch / 2) &&
      (u.tread 0).rdB F.T_REFR_STAT_NOTCH && (u.tread 0).rd F.T_REFR_STAT_NOTCHES == 1)) = true := by decide +kernel

theorem test_refreshRequest :
    ((after (.refreshRequest 0 0) (treadWith (goTread.setOut 0 { on := true })) (fun u =>
      (u.tread 0).rdB F.T_REFR_STAT_REQ)) &&
     (after (.refreshRequest 0 1) (treadWith goTread) (fun u => u.tread 0 == { goTread with powered := true }))) = true :=
  by decide +kernel

theorem test_notchEnd :
    (after (.notchEnd 0) (treadWith { goTread with notchTo := some 80 }) (fun u => (u.tread 0).notchTo == none &&
      (u.tread 0).refrEnd == some 80 && !(u.tread 0).rdB F.T_REFR_STAT_NOTCH)) = true := by decide +kernel

theorem test_bypConfRise :
    (after (.bypConfRise 0 90) (treadWith (bypOf none none)) (fun u => (u.tread 0).bypassed &&
      (u.tread 0).rdB F.T_BYP_STAT_CONF)) = true := by decide +kernel

theorem test_bypassGatesOff :
    (after (.bypassGatesOff 0) (treadWith (bypOf (some 5) none)) (fun u => allOff (u.tread 0))) = true :=
  by decide +kernel

theorem test_bypassConfTimeout :
    (after (.bypassConfTimeout 0) (treadWith (bypOf none none)) (fun u => (u.tread 0).bypassed &&
      (u.tread 0).rdB F.T_BYP_STAT_THY && (u.tread 0).rd F.T_FLT_STAT_LAST_CODE == 0x48)) = true := by decide +kernel

theorem test_thyFirePulse :
    (after (.thyFirePulse 0) (treadWith { bypOf none (some 3) with thyAt := some 3 }) (fun u =>
      (u.tread 0).thyAt == some (3 + ns 100000))) = true := by decide +kernel

theorem test_bypassRelease :
    ((after (.bypassRelease 0 0x5A01 9) (treadWith { bypOf none none with byCmd := true }) (fun u =>
      (u.tread 0).byp == none && (u.tread 0).blocked && !(u.tread 0).bypassed)) &&
     (after (.bypassRelease 0 0x5B01 0) (treadWith (bypOf none none)) (fun u =>
      u.tread 0 == { bypOf none none with powered := true }))) = true := by decide +kernel

theorem test_bypassTest :
    ((after (.bypassTest 0 (some 40) none 9) (treadWith (goTread.wrB F.T_BYP_CFG_TEST_EN true)) (fun u =>
      (u.tread 0).rdB F.T_BYP_STAT_TEST_FAIL && (u.tread 0).rd F.T_FLT_STAT_LAST_CODE == 0x40)) &&
     (after (.bypassTest 0 (some 40) (some 500) 9) (treadWith (goTread.wrB F.T_BYP_CFG_TEST_EN true)) (fun u =>
      !(u.tread 0).rdB F.T_BYP_STAT_TEST_FAIL && (u.tread 0).rd F.T_BYP_STAT_TESTS == 1))) = true := by decide +kernel

theorem test_landingActionBase :
    ((after (.landingActionBase 0 6) (treadWith (landTread false)) (fun u =>
      (u.tread 0).outs == (landTread false).outs && (u.tread 0).rdB F.T_HT_STAT_HOLD)) &&
     (after (.landingActionBase 0 7) (treadWith (landTread true)) (fun u => (u.tread 0).blocked &&
      (u.tread 0).rd F.T_FLT_STAT_LAST_CODE == 0x60 && allOff (u.tread 0))) &&
     (after (.landingActionBase 0 6) (treadWith (landTread true)) (fun u => (u.tread 0).rdB F.T_LAND_STAT_PLAYING &&
      (u.tread 0).rd F.T_SW_STAT_STATE == 2 && !(u.tread 0).blocked))) = true := by decide +kernel

theorem test_frameLossWatchdog :
    ((after (.frameLossWatchdog 0) (treadWith (landTread true)) (fun u => (u.tread 0).lost &&
      (u.tread 0).outs == (landTread true).outs)) &&
     (after (.frameLossWatchdog 0) (treadWith (landTread false)) (fun u => (u.tread 0).lost && (u.tread 0).blocked &&
      allOff (u.tread 0)))) = true := by decide +kernel

theorem test_guardWatchdog :
    ((after (.guardWatchdog 0 (ns 9000000)) (treadWith goTread) (fun u => allOff (u.tread 0))) &&
     (after (.guardWatchdog 0 9) (treadWith goTread) (fun u => !allOff (u.tread 0)))) = true := by decide +kernel

end TreadSwitchesAsCommanded

/-! TreadStartsConvertsAndSchedules -/

namespace TreadStartsConvertsAndSchedules

/-- A Tread that stands at level 0 with one output on. -/
def onTread : Tread := (({} : Tread).wrB F.T_LN_STAT_NLOCK true).setOut 1 { on := true, fb := true }
/-- State or command of the witnesses. -/
def offAll (d : Tread) : Bool := (List.range 4).all (fun n => !(d.out n).on)
/-- A slot with a signed image of no body: the mark, version 3, key and signature. -/
def goodSlot (b : Nat) : List Host.Cell :=
  let m := putBytes (writeBytes (writeBytes [] (slotBase b) 4 0x32545841) (slotBase b + 8) 2 3) (slotBase b + 0x10) keyG
  putBytes m (slotBase b + 0x80) (signG (byteList m (slotBase b) 0x80))
/-- A Tread with a signed image in slot `b`. -/
def imaged (b : Nat) : Tread := { onTread with mram := goodSlot b, fuseKey := sha384 keyG }
/-- State or command of the witnesses. -/
def noPins : TPins := { flt := 0, supok := true, ov := false, conf := false }
/-- State or command of the witnesses. -/
def threads2 : Tread := { onTread with threads := [(2, { st := 1, prio := 1 }), (5, { st := 2, prio := 3, wake := some 7 })], running := some 2 }

theorem test_treadSupplyGood :
    (after (.treadSupplyGood 0 true 2000000 9) (treadWith onTread) (fun u => (u.tread 0).powered && (u.tread 0).full &&
      (u.tread 0).vOv == 2000000 && (u.tread 0).rdB F.T_OVG_STAT_ARMED && !(u.tread 0).rdB F.T_ID_INFO_ADM &&
      offAll (u.tread 0))) = true := by decide +kernel

theorem test_premises :
    (((imaged 1).checkSlot 1).1 == 0) = true := by decide +kernel

theorem test_treadBootDecision :
    ((after (.treadBootDecision 0 9) (treadWith (imaged 1)) (fun u => (u.tread 0).rdB F.T_FW_STAT_VB &&
      !(u.tread 0).rdB F.T_FW_STAT_VA && (u.tread 0).rdB F.T_STAT_BOOTED && (u.tread 0).rd F.T_FW_STAT_ACT == 1 &&
      (u.tread 0).rd F.T_FLT_STAT_LAST_CODE == 0x70)) &&
     (after (.treadBootDecision 0 9) (treadWith (imaged 0)) (fun u => (u.tread 0).rdB F.T_STAT_BOOTED &&
      (u.tread 0).rd F.T_FW_STAT_ACT == 0)) &&
     (after (.treadBootDecision 0 9) (treadWith onTread) (fun u => !(u.tread 0).rdB F.T_STAT_BOOTED &&
      (u.tread 0).rdB F.T_STAT_SELFKEEP))) = true := by decide +kernel

theorem test_treadSupplyFall :
    ((after (.treadSupplyFall 0 true 9) (treadWith onTread) (fun u => !(u.tread 0).powered && offAll (u.tread 0))) &&
     (after (.treadSupplyFall 0 false 9) (treadWith onTread) (fun u => (u.tread 0).lowAt == some 9 &&
      !(u.tread 0).rdB F.T_BYP_STAT_BYP && (u.tread 0).byp.isNone && offAll (u.tread 0)))) = true := by decide +kernel

theorem test_verify :
    (after (.verify 0 9) (treadWith onTread) (fun u => (u.tread 0).rdB F.T_FW_STAT_BUSY)) = true := by decide +kernel

theorem test_verifyDone :
    (after (.verifyDone 0 9) (treadWith { onTread.wrB F.T_FW_STAT_BUSY true with mram := goodSlot 1 }) (fun u =>
      !(u.tread 0).rdB F.T_FW_STAT_BUSY && (u.tread 0).rdB F.T_FW_STAT_VRES && (u.tread 0).rd F.T_FW_STAT_RESULT == 2)) = true :=
  by decide +kernel

theorem test_fwSwitch :
    ((after (.fwSwitch 0 0xA5 9) (treadWith ((onTread.wrB F.T_FW_STAT_VRES true).wrB F.T_SW_STAT_BLOCKED true)) (fun u =>
      (u.tread 0).rd F.T_FW_STAT_ACT == 1 && (u.tread 0).rdB F.T_STAT_BOOTED)) &&
     (after (.fwSwitch 0 0xA4 0) (treadWith onTread) (fun u => u.tread 0 == { onTread with powered := true }))) = true :=
  by decide +kernel

theorem test_ovSetMeasure :
    ((after (.ovSetMeasure 0 5 9) (treadWith { onTread with ovArm := 2000000, vOv := 2000000 }) (fun u =>
      (u.tread 0).vOv == 2000000 && (u.tread 0).rdB F.T_OVG_STAT_STRAP_FAULT)) &&
     (after (.ovSetMeasure 0 2490000 9) (treadWith { onTread with ovArm := 2470000, vOv := 2000000 }) (fun u =>
      (u.tread 0).vOv == 2250000 && (u.tread 0).rdB F.T_OVG_STAT_STRAP_FAULT)) &&
     (after (.ovSetMeasure 0 2010000 9) (treadWith { onTread with ovArm := 2000000, vOv := 2000000 }) (fun u =>
      (u.tread 0).vOv == 2000000)) &&
     (after (.ovSetMeasure 0 1900000 9) (treadWith { onTread with ovArm := 2000000, vOv := 2000000 }) (fun u =>
      (u.tread 0).vOv == 1900000 && (u.tread 0).ovHeld && (u.tread 0).rdB F.T_OVG_STAT_STRAP_FAULT))) = true :=
  by decide +kernel

theorem test_guardTrip :
    (after (.guardTrip 0 9) (treadWith (onTread.wrB F.T_OVG_STAT_ARMED true)) (fun u =>
      (u.tread 0).rdB F.T_PROT_STAT_OV_TRIP && (u.tread 0).byp.isSome && (u.tread 0).rd F.T_SW_STAT_STATE == 4 &&
      (u.tread 0).rd F.T_FLT_STAT_LAST_CODE == 0x10)) = true := by decide +kernel

theorem test_supokLoss :
    ((after (.supokLoss 0 9) (treadWith (onTread.wrB F.T_STAT_LOWP true)) (fun u => (u.tread 0).outs == onTread.outs &&
      !(u.tread 0).rdB F.T_STAT_SUPOK)) &&
     (after (.supokLoss 0 9) (treadWith (onTread.wrB F.T_STAT_LOWP false)) (fun u => offAll (u.tread 0) &&
      (u.tread 0).rd F.T_FLT_STAT_LAST_CODE == 0x32))) = true := by decide +kernel

theorem test_desatFault :
    (after (.desatFault 0 1 9) (treadWith onTread) (fun u => bitOf ((u.tread 0).rd F.T_PROT_STAT_DESAT) 1 &&
      offAll (u.tread 0) && (u.tread 0).rd F.T_FLT_STAT_LAST_CODE == 2)) = true := by decide +kernel

theorem test_adcConversion :
    ((after (.adcConversion 0 1001 2 false noPins (ns 15000)) (treadWith (onTread.wr F.T_ADC_CFG_VAVG 0)) (fun u =>
      (u.tread 0).rd (F.T_ADC_RES_CODE 0) == 500 && (u.tread 0).rd (F.T_ADC_RES_COUNT 0) == 1 &&
      (u.tread 0).rd F.T_ADC_VCAP_CYC == onTread.frameOf (ns 20000) &&
      onTread.sampling (ns 15000) == (ns 20000, false, true) && (u.tread 0).rdB F.T_STAT_SUPOK)) &&
     (after (.adcConversion 0 1003 2 false noPins 9) (treadWith ((onTread.wrB F.T_ADC_CFG_SEQ_EN true).setReg R.T_ADC_SEQ0 0xF0)) (fun u =>
      (u.tread 0).rd (F.T_ADC_RES_CODE 7) == 502 && (u.tread 0).seqPos == 2 && (onTread.sampling 9).2.1))) = true :=
  by decide +kernel

theorem test_tSchReady :
    ((after (.tSchReady 0 5 9) (treadWith threads2) (fun u => ((u.tread 0).thr 5).st == 1 &&
      (u.tread 0).running == some 5)) &&
     (after (.tSchReady 0 2 0) (treadWith threads2) (fun u => u.tread 0 == { threads2 with powered := true }))) = true :=
  by decide +kernel

theorem test_tSchPrio :
    (after (.tSchPrio 0 2 6 9) (treadWith threads2) (fun u => ((u.tread 0).thr 2).prio == 6 &&
      (u.tread 0).running == some 2)) = true := by decide +kernel

theorem test_tSchSuspend :
    (after (.tSchSuspend 0 2 9) (treadWith threads2) (fun u => ((u.tread 0).thr 2).st == 0 &&
      (u.tread 0).running == none)) = true := by decide +kernel

theorem test_tSchWait :
    (after (.tSchWait 0 9) (treadWith threads2) (fun u => ((u.tread 0).thr 2).st == 2 &&
      ((u.tread 0).thr 2).wake == none && (u.tread 0).running == none)) = true := by decide +kernel

theorem test_tSchSleep :
    (after (.tSchSleep 0 9) (treadWith threads2) (fun u => ((u.tread 0).thr 2).st == 3 &&
      ((u.tread 0).thr 2).wake == some 1)) = true := by decide +kernel

theorem test_tSchWake :
    ((after (.tSchWake 0 (ns 8000)) (treadWith threads2) (fun u => ((u.tread 0).thr 5).st == 1 &&
      (u.tread 0).running == some 5)) &&
     (after (.tSchWake 0 (ns 3000)) (treadWith threads2) (fun u => (u.tread 0).thr 5 == threads2.thr 5))) = true :=
  by decide +kernel

theorem test_tEvcSelect :
    (after (.tEvcSelect 0 3 9 9) (treadWith onTread) (fun u => (u.tread 0).rd (F.T_EVC_SEL_SRC 3) == 9 &&
      (u.tread 0).reg (R.T_EVC_CNT 3) == 0)) = true := by decide +kernel

end TreadStartsConvertsAndSchedules

/-! HallTimeFollowsItsCommands -/

namespace HallTimeFollowsItsCommands

/-- The newel with a time source. -/
def newelHub (src : Nat) : State := (({} : State).wrB F.STK_STAT_IS_NEWEL true).wr F.HT_CTRL_SRC src

theorem test_premises :
    (((newelHub 1).isNewel && !({} : State).isNewel && (newelHub 1).stepTh < ns 2000000000) &&
     (after .hallStep { ((newelHub 1).wrB F.HT_STAT_STEP_PEND true) with clk := { hall := 1000, tkHall := 900, theta := 50, stepAt := some (0, -100) } } (fun u =>
      u.clk.hall == 950 && u.clk.tkHall == 850)) &&
     (after .hallStep (hubWith [(R.HQ_ARM_STAT 0, 0x2000)]) (fun u => u == hubWith [(R.HQ_ARM_STAT 0, 0x2000)])) &&
     (after .hallStep { ({} : State) with clk := { hall := 1000, tkHall := 900, stepAt := some (0, -100) } } (fun u =>
      u.clk.hall == 900 && u.clk.tkHall == 800 && u.rd F.HT_STEP_CNT_COUNT == 1 && u.latchBit 0xC)) &&
     (after .ppsOutPulse {} (fun u => u == {})) &&
     (after .ppsOutPulse (({} : State).wrB F.HT_PPS_CFG_OUT_EN true) (fun u =>
      u.clk.hall + ({} : State).rd F.HT_PPS_ODLY_DLY * 256 == second && u.clk.ppsOut.isSome))) = true :=
  by decide +kernel

theorem test_offsetCommit :
    ((after (.offsetCommit 9 5) {} (fun u => u == ({} : State).advance 9) || ({} : State).isNewel) &&
     (after (.offsetCommit 9 5) (newelHub 2) (fun u => u.clk.ppsSecs == some 5)) &&
     (after (.offsetCommit 9 2) (newelHub 1) (fun u => u.clk.theta == 2000000000 * 65536 &&
      u.rdB F.HT_STAT_STEP_PEND && u.rdB F.HT_STAT_HOLD && u.clk.rhoP == 0)) &&
     (after (.offsetCommit 9 0) (newelHub 1) (fun u => u.clk.theta == 0 && !u.rdB F.HT_STAT_STEP_PEND &&
      !u.rdB F.HT_STAT_HOLD && u.clk.rhoP == 0)) &&
     (after (.offsetCommit (ns 1000) 0) ({ (newelHub 1).wr F.HT_OFFS_NS_NS 40 with clk := { lastOffs := some 0 } }) (fun u =>
      u.clk.theta == 40 * 65536 && decide (u.clk.rhoP < 0)))) = true := by decide +kernel

theorem test_ppsInEdge :
    ((after (.ppsInEdge 9) {} (fun u => u == ({} : State).advance 9)) &&
     (after (.ppsInEdge 9) (({} : State).wrB F.HT_PPS_CFG_IN_EN true) (fun u => u.rd F.HT_PPS_STAMP_OFFS == 0))) = true :=
  by decide +kernel

theorem test_sourceLoss :
    ((after (.sourceLoss (ns 1200000000)) { (newelHub 2) with clk := { rhoP := 5, rhoI := 6 } } (fun u =>
      u.rdB F.HT_STAT_HOLD && u.clk.rhoP == 0 && u.clk.rhoI == 6)) &&
     (after (.sourceLoss 9) (newelHub 2) (fun u => u == (newelHub 2).advance 9))) = true := by decide +kernel

theorem test_step :
    ((after (.step 9) { ((newelHub 1).wrB F.HT_STAT_STEP_PEND true) with clk := { theta := 7 } } (fun u =>
      u.clk.stepAt == some (1, -7))) &&
     (after (.step 9) { (((newelHub 1).wrB F.HT_STAT_STEP_PEND true).wr F.STK_HUBS_PRESENT 3 |>.wrB F.FLT_STAT_HALL_BLK true) with clk := { theta := 7 } } (fun u =>
      u.clk.stepAt == some (4, -7))) &&
     (after (.step (ns 5)) { (({} : State).wrB F.HT_STAT_STEP_PEND true) with clk := { theta := 7 } } (fun u =>
      u.clk.hall + 7 == ns 5 && u.latchBit 0xC && !u.rdB F.HT_STAT_STEP_PEND)) &&
     (after (.step 9) {} (fun u => u.clk.stepAt == none))) = true := by decide +kernel

theorem test_timeRead :
    (after (.timeRead (ns 1500000001)) {} (fun u => u.rd F.HT_TIME_NS_NS == 500000001 && u.rd F.HT_TIME_SL_S == 1)) = true :=
  by decide +kernel

theorem test_txqRead :
    ((after (.txqRead 1 9) {} (fun u => u.rdata == 0)) &&
     (after (.txqRead 1 9) { ({} : State) with clk := { txq1 := [⟨77, ns 1000000007⟩, ⟨78, 0⟩] } } (fun u =>
      u.rdata == 0x1004D && u.rd (F.HT_ETH_TXQ_NS_NS 1) == 7 && u.txq 1 == [⟨78, 0⟩]))) = true := by decide +kernel

end HallTimeFollowsItsCommands

/-! ClocksFollowTheirCommands -/

namespace ClocksFollowTheirCommands

/-- The chip is held in reset. -/
def heldHub : State := { ({} : State) with pwr := { held := true, pinHold := true } }

theorem test_pllLock :
    ((after (.pllLock 0 4096 0 9) ((({} : State).wrB (pllLockF 0) false).wrB ⟨R.FLT_LIVE 5, 16, 1⟩ true) (fun u =>
      u.rdB (pllLockF 0) && !u.liveBit 0xB0 && u.clk.refOk && !u.liveBit 0xB3)) &&
     (after (.pllLock 2 4096 0 9) {} (fun u => u.rdB (pllLockF 2) && !u.liveBit 0xB2))) = true := by decide +kernel

theorem test_pllLockLoss :
    (after (.pllLockLoss 0 4 (ns 64) 9) (({} : State).wrB (pllLockF 0) true) (fun u => !u.rdB (pllLockF 0) &&
      u.rdB (pllErrF 0) && u.liveBit 0xB0 && u.rdB F.CLK_STAT_SAFE)) = true := by decide +kernel

theorem test_apply :
    ((({} : State).divInRange && after (.apply 9) {} (fun u => u.rdB F.CLK_STAT_APPLY_PEND && u.rdB F.CLK_STAT_SAFE &&
      u.clk.divUsed == ({} : State).reg R.CLK_DIV)) &&
     (after (.apply 9) (hubWith [(R.CLK_DIV, 0x0F0C0A07)]) (fun u => u.latchBit 0xA && !u.rdB F.CLK_STAT_APPLY_PEND))) = true :=
  by decide +kernel

theorem test_applyComplete :
    ((after (.applyComplete 9) ((({} : State).wrB F.CLK_STAT_APPLY_PEND true).wrB (pllLockF 0) true) (fun u =>
      !u.rdB F.CLK_STAT_APPLY_PEND && !u.rdB F.CLK_STAT_SAFE)) &&
     (after (.applyComplete 9) {} (fun u => u == ({} : State).advance 9))) = true := by decide +kernel

theorem test_applyTimeout :
    (after (.applyTimeout 9) (({} : State).wrB F.CLK_STAT_APPLY_PEND true) (fun u => !u.rdB F.CLK_STAT_APPLY_PEND &&
      u.rdB F.CLK_ERR_TIMEOUT && u.liveBit 0xB0)) = true := by decide +kernel

theorem test_refLoss :
    ((after (.refLoss 9) (({} : State).wrB F.CLK_CFG_DPLL_FB_EN true) (fun u => !u.clk.refOk &&
      u.rdB F.CLK_ERR_REF_LOSS && u.liveBit 0xB3 && u.rdB F.CLK_STAT_DPLL_FB)) &&
     (after (.refLoss 9) heldHub (fun u => u.regs == heldHub.regs && !u.clk.refOk))) = true := by decide +kernel

theorem test_syncArm :
    (after (.syncArm 9) {} (fun u => u.rdB F.CLK_STAT_SYNC_ARMED)) = true := by decide +kernel

theorem test_clkSyncEdge :
    ((after (.clkSyncEdge (ns 5)) (({} : State).wrB F.CLK_STAT_SYNC_ARMED true) (fun u =>
      !u.rdB F.CLK_STAT_SYNC_ARMED && u.rd ⟨R.CLK_SYNC_NS, 0, 30⟩ == 5)) &&
     (after (.clkSyncEdge (ns 5)) {} (fun u => u == ({} : State).advance (ns 5)))) = true := by decide +kernel

theorem test_islandClockFault :
    ((after (.islandClockFault 38 9) {} (fun u => u.liveBit 0xA6 && u.pwr.noClock == [38])) &&
     (after (.islandClockFault 38 9) heldHub (fun u => u.regs == heldHub.regs && u.pwr.noClock == [38]))) = true :=
  by decide +kernel

theorem test_islandClockReturn :
    (after (.islandClockReturn 38 9) { (({} : State).wrB ⟨R.FLT_LIVE 5, 6, 1⟩ true) with pwr := { noClock := [38] } } (fun u =>
      !u.liveBit 0xA6 && u.pwr.noClock == [])) = true := by decide +kernel

end ClocksFollowTheirCommands

/-! ResetsHoldAndReleaseTheChip -/

namespace ResetsHoldAndReleaseTheChip

/-- State or command of the witnesses. -/
def straps : StartIn := ⟨5, 1, true, false, []⟩
/-- State or command of the witnesses. -/
def heldBy (por pin hot : Bool) : State := { ({} : State) with pwr := { held := true, porHold := por, pinHold := pin, hotHold := hot } }
/-- The AVS loop runs. -/
def avsHub : State := ((((({} : State).wrB F.CLK_AVS_CFG_EN true).wr F.CLK_AVS_CFG_TGT 40).wr F.CLK_AVS_CFG_HYS 2).wr F.CLK_AVS_CFG_STEP 3).wr F.CLK_AVS_MON_CRIT 5
/-- State or command of the witnesses. -/
def freed (u : State) : Bool := !u.pwr.held && u.rd F.GEN_TOPO_HUB_ID == 5 && u.rd F.GEN_TOPO_DUP_STRAP == 1 && u.clk.hall == 0 && u.pwr.raised == []

theorem test_resetPin :
    ((after (.resetPin 0 (ns 1000)) (hubWith [(R.HT_CTRL, 5)]) (fun u => u.pwr.held && u.pwr.pinHold &&
      bitOf u.pwr.causes 1 && u.reg R.HT_CTRL == hubReset R.HT_CTRL)) &&
     (after (.resetPin 0 9) {} (fun u => u == ({} : State).advance 9))) = true := by decide +kernel

theorem test_thermalShutdown :
    (after (.thermalShutdown 0 (ns 1000000)) (hubWith [(R.HT_CTRL, 5)]) (fun u => u.pwr.held && u.pwr.hotHold &&
      bitOf u.pwr.causes 3 && u.reg R.HT_CTRL == hubReset R.HT_CTRL)) = true := by decide +kernel

theorem test_powerOnReset :
    ((after (.powerOnReset (ns 2000000) straps) (heldBy true false false) freed) &&
     (after (.powerOnReset 9 straps) (heldBy false false false) freed)) = true := by decide +kernel

theorem test_resetNRelease :
    ((after (.resetNRelease 9 straps) (heldBy false true false) freed) &&
     (after (.resetNRelease 9 straps) (heldBy true true false) (fun u => u.pwr.held && !u.pwr.pinHold))) = true :=
  by decide +kernel

theorem test_thermalShutdownEnd :
    (after (.thermalShutdownEnd 109 9 straps) (heldBy false false true) freed) = true := by decide +kernel

theorem test_chip :
    ((after (.chip true 0x9D 5 9 straps) {} freed) &&
     (after (.chip true 0x9C 5 9 straps) {} (fun u => u == ({} : State).advance 5))) = true := by decide +kernel

theorem test_jtagInstruction :
    ((after (.jtagInstruction .drive 9 straps) ((({} : State).wrB F.GEN_DBG_STAT_OPEN true).wr F.GEN_DBG_STAT_SCOPE 4) (fun u =>
      u.pwr.jtagDrives)) &&
     (after (.jtagInstruction .idcode 9 straps) {} (fun u => u == ({} : State).advance 9)) &&
     (after (.jtagInstruction .idcode 9 straps) { ({} : State) with pwr := { jtagDrives := true } } (fun u =>
      freed u && !u.pwr.jtagDrives))) = true := by decide +kernel

theorem test_pfail :
    (after (.pfail 9) { ({} : State) with prb := { queue := [⟨.host, R.HT_CTRL, 1, 0⟩] } } (fun u => u.pwr.pfailLow &&
      u.rdB F.PRB_STAT_PFAIL && !u.rdB F.CLK_RAIL_STAT_PFAIL_N && u.prb.queue == [])) = true := by decide +kernel

theorem test_pfailNRise :
    (after (.pfailNRise 9) { ({} : State) with pwr := { pfailLow := true } } (fun u => !u.pwr.pfailLow &&
      u.rdB F.CLK_RAIL_STAT_PFAIL_N)) = true := by decide +kernel

theorem test_railOutOfRange :
    ((after (.railOutOfRange 2 .low 9) {} (fun u => u.pwr.railBad == 4 && u.liveBit 0xB5 &&
      u.rd F.CLK_RAIL_STAT_GOOD == 123)) &&
     (after (.railOutOfRange 2 .good 9) { ({} : State) with pwr := { railBad := 4 } } (fun u => u.pwr.railBad == 0 &&
      !u.liveBit 0xB5)) &&
     (after (.railOutOfRange 2 .reset 9) {} (fun u => u.pwr.held && u.pwr.porHold)) &&
     (after (.railOutOfRange 7 .reset 9) {} (fun u => u.saf.held && !u.rdB F.CLK_RAIL_STAT_SAF))) = true :=
  by decide +kernel

theorem test_coreVoltageOutOfRange :
    (after (.coreVoltageOutOfRange 900 0 (ns 10000)) {} (fun u => u.pwr.coreBad && u.liveBit 0xB4)) = true :=
  by decide +kernel

theorem test_dieTemperatureHigh :
    ((after (.dieTemperatureHigh (-20) 9) {} (fun u => u.rdI F.CLK_TEMP_TEMP == -20 &&
      u.liveBit 0xB6 == decide (({} : State).rdI F.CLK_TEMP_HI < -20))) &&
     (after (.dieTemperatureHigh 127 9) {} (fun u => u.rdI F.CLK_TEMP_MAX == 127))) = true := by decide +kernel

theorem test_avsPeriod :
    ((after (.avsPeriod true [3] 800 9) {} (fun u => u == ({} : State).advance 9) ||
      ({} : State).rdB F.CLK_AVS_CFG_EN) &&
     (after (.avsPeriod true [30, 31] 800 (ns 25500000)) avsHub (fun u => u.pwr.vset == 1615 && !u.liveBit 0xB4 &&
      !u.rdB F.CLK_AVS_STAT_NOREG)) &&
     (after (.avsPeriod true [70, 60] 800 (ns 25500000)) avsHub (fun u => u.pwr.vset == 1585)) &&
     (after (.avsPeriod true [3] 800 9) avsHub (fun u => u.pwr.vset == 1660 && u.liveBit 0xB4)) &&
     (after (.avsPeriod false [3] 800 9) avsHub (fun u => u.pwr.vset == 1600 && u.liveBit 0xB4 &&
      u.rdB F.CLK_AVS_STAT_NOREG))) = true := by decide +kernel

end ResetsHoldAndReleaseTheChip

/-! BootAndDebugNeedValidImagesAndAnswers -/

namespace BootAndDebugNeedValidImagesAndAnswers

/-- The bytes of a list from an address on replaced by others. -/
def patch (l : List Byte) (i : Nat) (b : List Byte) : List Byte := l.take i ++ b ++ l.drop (i + b.length)
/-- A valid image of no body: mark, version 7, entry 0x200, the key and its signature. -/
def goodImg : List Byte :=
  let l := patch (patch (List.replicate 0xE0 0) 0 [0x41, 0x58, 0x48, 0x31, 0, 0, 0, 0, 7, 0, 0, 0, 0, 2, 0, 0]) 0x10 keyG
  patch l 0x80 (signG (l.take 0x80))
/-- The hub whose fuses hold the hash of the key. -/
def keyed : State := { ({} : State) with pwr := { fuseKey := sha384 keyG, fuseDbg := sha384 keyG } }
/-- The host has placed an image, with the strap for it. -/
def placed (l : List Byte) : State := { keyed.wrB F.GEN_BOOT_STAT_SRC true with coreMem := putBytes [] 0 l }
/-- State or command of the witnesses. -/
def checking : State := ({} : State).wrB F.GEN_DBG_STAT_BUSY true
/-- A certificate with scope 3 for the part with UID 0 and no end, and the answer to the challenge of 32 zero bytes. -/
def certBytes : List Byte :=
  let l := patch (patch (patch (List.replicate 0x198 0) 0 keyG) 0x61 keyG) 0xC4 [3, 0, 0, 0]
  let l := patch l 0xD0 (List.replicate 8 0xFF)
  let l := patch l 0xD8 (signG ((l.drop 0x61).take 0x77))
  patch l 0x138 (signG (List.replicate 32 0))
/-- State or command of the witnesses. -/
def answered : State :=
  let s := (List.range 0x66).foldl (fun (s : State) n =>
    s.setReg (R.GEN_DBG_BUF n) (BitVec.ofNat 32 (imgNum certBytes (4 * n) 4))) (checking.setReg R.GEN_UIDL 0)
  { s.setReg R.GEN_UIDH 0 with pwr := { fuseDbg := sha384 keyG, chal := some (List.replicate 32 0) } }

theorem test_premises :
    ((imgCheck (({} : State).rd F.GEN_BOOT_SVN_FUSE_SVN) keyed.pwr.fuseKey goodImg == 0 &&
      !({} : State).rdB F.GEN_BOOT_STAT_SRC && !({} : State).rdB F.GEN_BOOT_STAT_DONE) &&
     (!(hubWith [(R.GEN_DBG_STAT, 0x200)]).rdB F.GEN_DBG_STAT_BUSY &&
      (hubWith [(R.GEN_DBG_STAT, 0x200)]).rd F.GEN_DBG_STAT_FAILS == 2)) = true := by decide +kernel

theorem test_bootVerify :
    ((after (.bootVerify (some goodImg) none 9) (keyed.wrB F.GEN_BOOT_CFG_SLOT false) (fun u =>
      u.rdB F.GEN_BOOT_STAT_DONE && !u.rdB F.GEN_BOOT_STAT_SLOT_USED && readByte u.coreMem 8 == 7)) &&
     (after (.bootVerify (some [0]) (some goodImg) 9) ((keyed.wrB F.GEN_BOOT_CFG_SLOT false).wrB F.GEN_BOOT_CFG_FALLBACK_EN true) (fun u =>
      u.rdB F.GEN_BOOT_STAT_DONE && u.rdB F.GEN_BOOT_STAT_SLOT_USED)) &&
     (after (.bootVerify (some [0]) none 9) (({} : State).wrB F.GEN_BOOT_CFG_SLOT false) (fun u =>
      !u.rdB F.GEN_BOOT_STAT_DONE && u.rdB F.GEN_BOOT_STAT_FAIL))) = true := by decide +kernel

theorem test_go :
    ((after (.go true 0x47 9) (placed goodImg) (fun u => u.rd F.GEN_BOOT_STAT_RESULT == 0 &&
      u.rdB F.GEN_BOOT_STAT_DONE)) &&
     (after (.go true 0x47 9) { (placed goodImg) with pwr := {} } (fun u => u.rd F.GEN_BOOT_STAT_RESULT == 2 &&
      !u.rdB F.GEN_BOOT_STAT_DONE)) &&
     (after (.go true 0x48 9) (placed []) (fun u => u == (placed []).advance 9))) = true := by decide +kernel

theorem test_chal :
    (after (.chal 0xD0 9) {} (fun u => u == ({} : State).advance 9)) = true := by decide +kernel

theorem test_submit :
    (after (.submit 0xD1 9) (({} : State).wrB F.GEN_DBG_STAT_CHAL_V true) (fun u => u.rdB F.GEN_DBG_STAT_BUSY &&
      !u.rdB F.GEN_DBG_STAT_CHAL_V && u.pwr.chal == some (List.replicate 32 0))) = true := by decide +kernel

theorem test_debugClose :
    (after (.debugClose 0xD1 9) (({} : State).wrB F.GEN_DBG_STAT_OPEN true) (fun u => !u.rdB F.GEN_DBG_STAT_OPEN &&
      u.rd F.GEN_DBG_STAT_SCOPE == 0)) = true := by decide +kernel

theorem test_debugCheckDone :
    ((after (.debugCheckDone 9) checking (fun u => !u.rdB F.GEN_DBG_STAT_BUSY && u.rdB F.GEN_DBG_STAT_FAIL &&
      !u.rdB F.GEN_DBG_STAT_OPEN && u.rd F.GEN_DBG_STAT_FAILS == 1)) &&
     (after (.debugCheckDone 9) answered (fun u => u.rdB F.GEN_DBG_STAT_OPEN && u.rd F.GEN_DBG_STAT_SCOPE == 3 &&
      !u.rdB F.GEN_DBG_STAT_FAIL && u.rd F.GEN_DBG_STAT_FAILS == 0))) = true := by decide +kernel

end BootAndDebugNeedValidImagesAndAnswers

/-! SafetyIslandHoldsItsOutputs -/

namespace SafetyIslandHoldsItsOutputs

/-- The safety island permits, with output 1 enabled and high. -/
def permitHub : State := ((((({} : State).wr F.SAF_STAT_STATE 2).wrB (F.SAF_SBO_EN 1) true).wr F.SAF_SBO_STAT_OUT 2).wr F.SAF_SBO_STAT_RB 2)
/-- State or command of the witnesses. -/
def safeHub : State := (({} : State).wr F.SAF_STAT_STATE 1).wrB (F.SAF_SBO_EN 1) true

theorem test_premises :
    (!permitHub.overrideCause && permitHub.sboEnabled == 2 && !permitHub.tripCause) = true := by decide +kernel

theorem test_permitToken :
    ((after (.permitToken 9) permitHub (fun u => (u.port 7).token == some 9 && (u.port 31).token == some 9)) &&
     (({} : State).overrideCause && after (.permitToken 9) {} (fun u => u == ({} : State).advance 9))) = true :=
  by decide +kernel

theorem test_tokenTimeout :
    (after (.tokenTimeout (ns 500)) ((({} : State).setPort 3 { token := some 0 }).setPort 4 { token := some (ns 200) }) (fun u =>
      (u.port 3).token == none && (u.port 4).token == some (ns 200))) = true := by decide +kernel

set_option maxRecDepth 20000 in
theorem test_selftestDone :
    ((after (.selftestDone true 9) (({} : State).wr F.SAF_PCRC_ACT_CRC (crcWords (paramRegs.map ({} : State).reg))) (fun u =>
      u.safState == 1)) &&
     (after (.selftestDone false 9) {} (fun u => u.safState == 3 && u.rd F.SAF_SBO_STAT_OUT == 0 && u.liveBit 0x75)) &&
     (after (.selftestDone false 9) permitHub (fun u => u == permitHub.advance 9))) = true := by decide +kernel

theorem test_safetyInternalFault :
    (after (.safetyInternalFault 9) permitHub (fun u => u.safState == 3 && u.rd F.SAF_SBO_STAT_OUT == 0 &&
      u.liveBit 0x75)) = true := by decide +kernel

theorem test_safReset :
    ((after (.safReset true false 0 0 9) (permitHub.wrB F.SAF_LOCK_OPEN true) (fun u => u.saf.held &&
      u.safState == 0 && u.rdB F.SAF_ERR_LOCK_TO && !u.lockOpen)) &&
     (after (.safReset false false 0x81 0x42 9) { ({} : State) with saf := { held := true } } (fun u => !u.saf.held &&
      u.rd F.SAF_SI_STAT_A == 0x81 && u.rd F.SAF_SI_STAT_B == 0x42))) = true := by decide +kernel

theorem test_safetyTrip :
    ((after (.safetyTrip 9) { permitHub with saf := { tripReq := true } } (fun u => u.safState == 1 &&
      u.rd F.SAF_SBO_STAT_OUT == 0)) &&
     (after (.safetyTrip 9) permitHub (fun u => u == permitHub.advance 9))) = true := by decide +kernel

theorem test_sboRel :
    ((after (.sboRel 0x6B 9) safeHub (fun u => u.safState == 2 && u.rd F.SAF_SBO_STAT_OUT == 2 &&
      !u.rdB F.FLT_STAT_SAFE_OUT)) &&
     (after (.sboRel 0x6A 9) safeHub (fun u => u.safState == 1 && u.rdB F.SAF_ERR_REL_REF &&
      u.rd F.SAF_SBO_STAT_OUT == 0))) = true := by decide +kernel

theorem test_test :
    ((after (.test 9) permitHub (fun u => u.saf.tests == 2)) &&
     (after (.test 9) safeHub (fun u => u.saf.tests == 0))) = true := by decide +kernel

theorem test_sboPulseTest :
    ((after (.sboPulseTest 1 0 9) { permitHub with saf := { tests := 2 } } (fun u =>
      Store.get u.saf.pulse none 1 == some 9 && !u.getBit F.SAF_SBO_STAT_OUT 1)) &&
     (after (.sboPulseTest 1 0 (ns 255000)) { permitHub with saf := { pulse := [(1, some 0)] } } (fun u =>
      u.rd F.SAF_SBO_STAT_TESTS == 1 && u.getBit F.SAF_SBO_STAT_OUT 1)) &&
     (after (.sboPulseTest 1 (ns 64000) 9) { permitHub with saf := { tests := 2 } } (fun u =>
      u.getBit F.SAF_ERR_SBOF 1 && u.liveBit 0x74 && u.saf.tripReq)) &&
     (after (.sboPulseTest 0 0 9) permitHub (fun u => u == permitHub.advance 9))) = true := by decide +kernel

theorem test_readbackFailure :
    (after (.readbackFailure 1 false 0 (ns 63000)) permitHub (fun u => u.getBit F.SAF_ERR_SBOF 1 &&
      !u.getBit F.SAF_SBO_STAT_RB 1 && u.liveBit 0x74 && u.saf.tripReq)) = true := by decide +kernel

theorem test_safetyDiagnostic :
    ((after (.safetyDiagnostic (.osc 1000000 900000) true 9) permitHub (fun u => u.liveBit 0xA7 && u.safState == 2)) &&
     (after (.safetyDiagnostic (.osc 2 1050001) true 9) permitHub (fun u => u.liveBit 0xA7 && u.safState == 3)) &&
     (after (.safetyDiagnostic .romCrc false 9) permitHub (fun u => u.safState == 3)) &&
     (after (.safetyDiagnostic (.readBack 5) true 9) permitHub (fun u => u.rd F.SAF_SBO_STAT_RB == 5)) &&
     (after (.safetyDiagnostic .romCrc true 9) permitHub (fun u => u == permitHub.advance 9))) = true :=
  by decide +kernel

end SafetyIslandHoldsItsOutputs

/-! SafetyInputsAndParametersFollowTheirRules -/

namespace SafetyInputsAndParametersFollowTheirRules

/-- Pair 2 stops the arms, with A high. -/
def pairHub : State := (({} : State).wr (F.SAF_SI_FUNC 2) 1).setBit F.SAF_SI_STAT_A 2 true
/-- State or command of the witnesses. -/
def chanHub : State := (({} : State).wrB (F.SAF_BCH_EN 3) true).wrB (F.SAF_BCH_POL 3) false
/-- State or command of the witnesses. -/
def openHub : State := { (({} : State).wrB F.SAF_LOCK_OPEN true).wr F.SAF_STAT_STATE 1 with saf := { openAt := some 0, shadow := [(R.SAF_SLR_RATE, 77)] } }
/-- State or command of the witnesses. -/
def safeKey (a : Option Time) : State := { (({} : State).wr F.SAF_STAT_STATE 1) with saf := { keyAt := a } }

theorem test_safetyInputChange :
    ((after (.safetyInputChange 2 true true 0 (ns 255000)) pairHub (fun u => u.siA 2 && u.siB 2 &&
      u.getBit F.SAF_SI_STAT_DEM 2 && Store.get u.saf.disc none 2 == some (ns 255000))) &&
     (after (.safetyInputChange 2 true true 8 9) pairHub (fun u => u == pairHub.advance 9)) &&
     (after (.safetyInputChange 2 true false 0 (ns 255000)) pairHub (fun u => u.siConsistent 2 &&
      Store.get u.saf.disc none 2 == none))) = true := by decide +kernel

theorem test_discrepancyTimeout :
    ((after (.discrepancyTimeout 2 (ns 90000000)) { pairHub with saf := { disc := [(2, some 0)] } } (fun u =>
      u.siLatch 2 == ({ pairHub with saf := { disc := [(2, some 0)] } }.advance (ns 90000000)).discDue 2)) &&
     (after (.discrepancyTimeout 2 (100 * second)) { pairHub with saf := { disc := [(2, some 0)] } } (fun u =>
      u.siLatch 2 && u.liveBit 0x7A)) &&
     (after (.discrepancyTimeout 2 9) pairHub (fun u => u == pairHub.advance 9))) = true := by decide +kernel

theorem test_dclr :
    ((after (.dclr 0x04 9) (pairHub.setBit F.SAF_SI_STAT_DLATCH 2 true) (fun u => !u.siLatch 2)) &&
     (after (.dclr 0x04 9) ((pairHub.setBit F.SAF_SI_STAT_DLATCH 2 true).setBit F.SAF_SI_STAT_B 2 true) (fun u =>
      u.siLatch 2 && u.rdB F.SAF_ERR_DCLR_REF))) = true := by decide +kernel

theorem test_balustradeOutput :
    ((after (.balustradeOutput 3 0xFFFFFFFF 0xFFFFFFFF (ns 50) 9) chanHub (fun u =>
      u.balCode 3 == balCodeOf (((chanHub.balSample 3 0xFFFFFFFF 0xFFFFFFFF).bal 3).sinc.outs.headD 0) false &&
      !u.rdB (F.SAF_BVAL_CFLT 3))) &&
     (after (.balustradeOutput 3 5 5 (ns 221) 9) chanHub (fun u => u.rdB (F.SAF_BVAL_CFLT 3))) &&
     (after (.balustradeOutput 4 5 5 (ns 50) 9) chanHub (fun u => u == chanHub.advance 9))) = true := by decide +kernel

theorem test_balustradeClockLoss :
    (after (.balustradeClockLoss 3 0 (ns 1000)) chanHub (fun u => u.rdB (F.SAF_BVAL_CFLT 3) &&
      u.getBit F.SAF_ERR_BCHF 3)) = true := by decide +kernel

theorem test_lockKey :
    ((after (.lockKey 0xC5 9) (safeKey none) (fun u => u.saf.keyAt == some 9)) &&
     (after (.lockKey 0x3A 9) (safeKey (some 5)) (fun u => u.lockOpen && u.saf.openAt == some 9 &&
      Store.get u.saf.shadow 0 R.SAF_SLR_RATE == (safeKey none).reg R.SAF_SLR_RATE)) &&
     (after (.lockKey 0x3A (ns 2000000)) (safeKey (some 5)) (fun u => !u.lockOpen && u.latchBit 0xF))) = true :=
  by decide +kernel

set_option maxRecDepth 20000 in
theorem test_close :
    ((after (.close 9) (openHub.wr F.SAF_PCRC_CRC openHub.shadowCrc) (fun u => !u.lockOpen &&
      u.reg R.SAF_SLR_RATE == 77 && u.rd F.SAF_PCRC_ACT_CRC == openHub.shadowCrc && u.saf.shadow == [])) &&
     (after (.close 9) (openHub.wr F.SAF_PCRC_CRC (openHub.shadowCrc + 1)) (fun u => !u.lockOpen &&
      u.reg R.SAF_SLR_RATE == openHub.reg R.SAF_SLR_RATE && u.rdB F.SAF_ERR_PCRC))) = true := by decide +kernel

theorem test_abandon :
    (after (.abandon 9) openHub (fun u => !u.lockOpen && u.saf.shadow == [])) = true := by decide +kernel

theorem test_lockTimeout :
    ((after (.lockTimeout (600 * second)) openHub (fun u => !u.lockOpen && u.rdB F.SAF_ERR_LOCK_TO)) &&
     (after (.lockTimeout 9) openHub (fun u => u == openHub.advance 9))) = true := by decide +kernel

end SafetyInputsAndParametersFollowTheirRules

/-! LatchesClearAndQueuesRead -/

namespace LatchesClearAndQueuesRead

/-- Sources 0x0A4 and 0x0B4 are latched, the second still live. -/
def latchHub : State := (((({} : State).wrB ⟨R.FLT_LATCH 5, 4, 1⟩ true).wrB ⟨R.FLT_LATCH 5, 20, 1⟩ true).wrB ⟨R.FLT_LIVE 5, 20, 1⟩ true)
/-- A Tread with latched faults, of which output 1 still disagrees. -/
def faultTread : Tread := (((({ fltIn := 2 } : Tread).wr F.T_GFB_STAT_LATCH 3).wr F.T_GFB_STAT_LIVE 2).wr F.T_PROT_STAT_DESAT 3).wrB F.T_PROT_STAT_OV_TRIP true

theorem test_premises :
    ((latchHub.latched 5 4 && latchHub.latched 5 20 && !latchHub.latchHeld 0xA4 && latchHub.latchHeld 0xB4) &&
     ((List.range 22).any (fun b => !(hubWith [(R.FLT_CELL 7, 0x3)]).cellHeld 7 b))) = true := by decide +kernel

theorem test_latchClear :
    ((after (.latchClear .host none 5 0xFFFFFFFF 9) latchHub (fun u => !u.latched 5 4 && u.latched 5 20)) &&
     (after (.latchClear .host none 5 0x00100000 9) latchHub (fun u => u.latched 5 4 && u.latched 5 20)) &&
     (after (.latchClear .host (some 7) 0 0x0000FFFF 9) (hubWith [(R.FLT_CELL 7, 0x3)]) (fun u =>
      !u.rdB ⟨R.FLT_CELL 7, 0, 1⟩ || (hubWith [(R.FLT_CELL 7, 0x3)]).cellHeld 7 0))) = true := by decide +kernel

theorem test_tFltClr :
    ((after (.tFltClr 0 0x3C01FF 9) (treadWith faultTread) (fun u => (u.tread 0).rd F.T_GFB_STAT_LATCH == 2 &&
      (u.tread 0).rd F.T_PROT_STAT_DESAT == 2 && !(u.tread 0).rdB F.T_PROT_STAT_OV_TRIP)) &&
     (after (.tFltClr 0 0x3D01FF 0) (treadWith faultTread) (fun u => u.tread 0 == { faultTread with powered := true }))) = true :=
  by decide +kernel

theorem test_iqRead :
    ((after (.iqRead 6 0 9) (({} : State).setIq 6 { items := [0x123456789, 5] }) (fun u => u.rdata == 0x23456789 &&
      u.reg (R.FLT_IQ_RDH 6) == 1 && (u.iq 6).items == [5])) &&
     (after (.iqRead 6 0 9) (({} : State).wrB (F.FLT_IQ_CFG_FALLBACK 6) false) (fun u => u.rdata == 0 &&
      u.reg (R.FLT_IQ_RDH 6) == 0x80000000)) &&
     (after (.iqRead 6 0 9) ((({} : State).wrB (F.FLT_IQ_CFG_FALLBACK 6) true).setIq 6 { last := 77 }) (fun u =>
      u.rdata == 77 && u.rdB (F.FLT_IQ_STAT_UNDERRUN 6)))) = true := by decide +kernel

end LatchesClearAndQueuesRead

/-! TitajorMessagesActAsTheirRulesSay -/

namespace TitajorMessagesActAsTheirRulesSay

/-- Hub 0 of a whole-unit pair in INIT; hub 3, heard a moment ago, and hub 1, ACTIVE. -/
def initHub : State := (((({} : State).wr F.GEN_TOPO_DUP_MODE 2).wr F.GEN_TOPO_DUP_STRAP 2).withRegs []).wr F.STK_RED_STAT_STATE 0
/-- State or command of the witnesses. -/
def pairInit : State := initHub.setHub 1 { cyc := some 0, hb := { active := true } }
/-- State or command of the witnesses. -/
def heardHub : State := (({} : State).setHub 3 { cyc := some 0 }).wrB F.STK_STAT_IS_NEWEL true
/-- State or command of the witnesses. -/
def timeHub : State := { (({} : State).wr F.STK_STAT_NEWEL 3) with stk := { hopA := [(3, 1)], hubs := [(3, { atA := some 0 })] } }
/-- A message of four blocks with its CRC, on ring A: source, destination, TTL, MTYPE, cycle and payload. -/
def titWord (src dst ttl mtype cyc pay : Nat) : BitVec 256 :=
  let n := 0x87 + src * 2 ^ 8 + dst * 2 ^ 12 + ttl * 2 ^ 17 + mtype * 2 ^ 22 + cyc * 2 ^ 32 + pay * 2 ^ 64
  BitVec.ofNat 256 (n + crc32 224 n * 2 ^ 224)

theorem test_premises :
    ((after .heartbeatSend {} (fun u => (u.titMsgs false).length == 1 && (u.titMsgs true).length == 1)) &&
     (({} : State).hubId == 0 && pairInit.redSt == 0 && pairInit.dupMode == 2) &&
     (!timeHub.isNewel && timeHub.nearRing timeHub.newel == false && timeHub.stepTh == ns 10000 || timeHub.stepTh != 0)) = true :=
  by decide +kernel

theorem test_heartbeat :
    ((after (.heartbeat 0 false 1 30 {} 0 9) {} (fun u => u.stk.dupAt == some 0 && u.liveBit 0)) &&
     (after (.heartbeat 3 false 1 30 { healthy := true } 0 9) {} (fun u => (u.hub 3).hb.healthy &&
      u.getBit F.STK_HUBS_PRESENT 3))) = true := by decide +kernel

theorem test_heartbeatMissing :
    ((after (.heartbeatMissing 3 0) {} (fun u => u == ({} : State).advanceHall (({} : State).clk.tkHall + ns 300) ||
      u.stk == {})) &&
     (after (.heartbeatMissing 3 0) heardHub (fun u => u.stk == heardHub.stk)) &&
     (after (.heartbeatMissing 3 1) heardHub (fun u => (u.hub 3).missRun == 1 && !u.getBit F.STK_HUBS_PRESENT 3))) = true :=
  by decide +kernel

theorem test_partnerWait :
    ((after (.partnerWait 9) {} (fun u => u == ({} : State).advance 9)) &&
     (after (.partnerWait 9) pairInit (fun u => u == pairInit.advance 9)) &&
     (after (.partnerWait (64 * initHub.cycT)) { initHub with stk := { linksAt := some 0 } } (fun u => u.redSt == 1 &&
      u.rdB F.GEN_TOPO_ACTIVE)) &&
     (after (.partnerWait 9) (initHub.wr F.GEN_TOPO_HUB_ID 5) (fun u => u.redSt == 2))) = true := by decide +kernel

theorem test_newelChange :
    ((after (.newelChange 9) { ({} : State) with stk := { change := some (4, 0) } } (fun u => u.newel == 4 &&
      !u.isNewel && u.stk.change == none && u.latchBit 0x6D)) &&
     (after (.newelChange 9) { ({} : State) with stk := { change := some (4, 7) } } (fun u =>
      u == ({ ({} : State) with stk := { change := some (4, 7) } }).advance 9)) &&
     (after (.newelChange 9) {} (fun u => u == ({} : State).advance 9))) = true := by decide +kernel

theorem test_timeMessage :
    ((after (.timeMessage false 0 (timeHub.rd F.GEN_CYC_LEN_LEN) 0 (some (5, 6)) 0 0 (ns 40)) timeHub (fun u =>
      u.clk.theta == ns 40 && u.rd F.HT_STAT_SRC_USED == 3 && u.clk.stepAt == some (5, 6) && !u.liveBit 4)) &&
     (after (.timeMessage false 0 99 0 none 0 0 (ns 40)) timeHub (fun u => u.stk.lenBad && u.liveBit 4)) &&
     (after (.timeMessage true 0 99 0 none 0 0 (ns 40)) timeHub (fun u => u == timeHub.advance (ns 40)))) = true :=
  by decide +kernel

theorem test_blockMessage :
    ((after (.blockMessage 3 0 9) heardHub (fun u => u.latchBit 0x6F && u.rdB F.FLT_STAT_HALL_BLK &&
      (u.titMsgs true).contains ⟨3, 0x1F, 15, true, 0, .block⟩)) &&
     (after (.blockMessage 0 0 9) heardHub (fun u => u == heardHub.advance 9))) = true := by decide +kernel

theorem test_tripMessage :
    (after (.tripMessage 3 0 9) heardHub (fun u => u.latchBit 0x6F && u.saf.tripReq &&
      (u.titMsgs false).contains ⟨3, 0x1F, 15, false, 0, .trip⟩)) = true := by decide +kernel

theorem test_exch :
    ((after (.exch 3 0 1 2 3 4 9) {} (fun u => Store.get u.stk.exch [] 3 == [1, 2, 3, 4])) &&
     (after (.exch 0 0 1 2 3 4 9) {} (fun u => u == ({} : State).advance 9))) = true := by decide +kernel

theorem test_titajorMessageForward :
    ((after (.titajorMessageForward (titWord 3 5 7 1 0 9 + 1#256 <<< 230) 5 9) {} (fun u =>
      u.rd F.STK_CNT_LINK_BADMSG == 1 && u.titMsgs false == [])) &&
     (after (.titajorMessageForward (titWord 3 5 7 9 2 77) 5 9) {} (fun u =>
      u.titMsgs false == [⟨3, 5, 6, false, 2, .passed 9 77 5⟩])) &&
     (after (.titajorMessageForward (titWord 3 0x1F 7 2 0 77) 5 9) {} (fun u =>
      u.titMsgs false == [⟨3, 0x1F, 6, false, 0, .passed 2 77 0⟩])) &&
     (after (.titajorMessageForward (titWord 0 5 7 2 0 77) 5 9) {} (fun u => u == ({} : State).advance 9)) &&
     (after (.titajorMessageForward (titWord 3 5 1 2 0 77) 5 9) {} (fun u => u == ({} : State).advance 9))) = true :=
  by decide +kernel

end TitajorMessagesActAsTheirRulesSay

/-! PairHandsOverAsCommanded -/

namespace PairHandsOverAsCommanded

/-- Hub 0 in a redundancy state, with a READY partner. -/
def snapOf (dig : Nat) (ok : Bool) : Snap := ⟨0, 6, dig, ok, [], [], [], [], [], []⟩
/-- State or command of the witnesses. -/
def recOf (ok : Bool) : JRec := { cyc := 0, epoch := 6, good := ok, inputs := [], commits := [], chk := none, excl := [], cars := [], cmdBlk := 0, live := 0, latched := 0, table := [] }
/-- State or command of the witnesses. -/
def pairAt (st : Nat) : State := ((((({} : State).wr F.GEN_TOPO_DUP_MODE 2).wr F.GEN_TOPO_DUP_STRAP 2).withRegs []).wr F.STK_RED_STAT_STATE st).setHub 1 { cyc := some 0, hb := { ready := true, fenced := true, healthy := true } }
/-- State or command of the witnesses. -/
def oddAt (st : Nat) : State := (pairAt st).wr F.GEN_TOPO_HUB_ID 1
/-- State or command of the witnesses. -/
def takeAtPhase (p : Nat) : State := { pairAt 3 with stk := { take := some ⟨p, 0, false⟩, base := some (snapOf 0 true) } }
/-- State or command of the witnesses. -/
def relayHub : State := (((((({} : State).wr F.GEN_TOPO_DUP_MODE 2).wr F.GEN_TOPO_DUP_STRAP 2).withRegs []).wr (F.RP_STAT_STATE 2) 4).wr F.STK_RED_STAT_STATE 2)
/-- State or command of the witnesses. -/
def farHub : State := ((pairAt 1).wrB (F.RP_STAT_SPLIT 2) true).wr F.STK_PAIR_TSTK 30
theorem test_good_snapshot_witness : (pairAt 2).redSt = 2 ∧ (snapOf (pairAt 2).cfgDig true).good = true ∧
    (snapOf (pairAt 2).cfgDig true).dig = (pairAt 2).cfgDig ∧ (pairAt 2).since (snapOf (pairAt 2).cfgDig true).cyc < 32 :=
  ⟨by decide +kernel, rfl, rfl, by decide +kernel⟩

theorem test_resign :
    ((after (.resign 0x4F 9) (pairAt 1) (fun u => u == (pairAt 1).advance 9)) &&
     (after (.resign 0x4E 9) (pairAt 1) (fun u => u.stk.resignAt == some 64 && (u.titMsgs false).length == 1)) &&
     (after (.resign 0x4E 9) (pairAt 2) (fun u => u.rdB F.STK_ERR_RES_REF))) = true := by decide +kernel

theorem test_resignMessage :
    ((after (.resignMessage 70 9) (pairAt 2) (fun u => u.stk.takeAt == some 70)) &&
     (after (.resignMessage 70 9) (pairAt 1) (fun u => u.stk.takeAt == none))) = true := by decide +kernel

theorem test_revert :
    ((after (.revert 70 9) (oddAt 1) (fun u => u.stk.resignAt == some 70)) &&
     (after (.revert 70 9) (pairAt 1) (fun u => u.stk.resignAt == none))) = true := by decide +kernel

theorem test_revertHold :
    (after (.revertHold 9) (pairAt 2) (fun u => u == (pairAt 2).advance 9)) = true := by decide +kernel

theorem test_stkAdmit :
    ((after (.stkAdmit 1 9) ((pairAt 1).wrB F.STK_STAT_IS_NEWEL true) (fun u => (u.titMsgs false).length == 1 &&
      !u.rdB F.STK_ERR_ADM_REF)) &&
     (after (.stkAdmit 2 9) ((pairAt 1).wrB F.STK_STAT_IS_NEWEL true) (fun u => (u.titMsgs false).isEmpty &&
      u.rdB F.STK_ERR_ADM_REF))) = true := by decide +kernel

theorem test_premises :
    ((portFree (pairAt 4)) &&
     (farHub.farSeg 2 == some 34)) = true := by decide +kernel

theorem test_admitMessage :
    ((after (.admitMessage 0x1234 9) (pairAt 4) (fun u => u.redSt == 2 &&
      u.prb.busy == some ⟨.hubHw, R.STK_EPOCH, 0x1234, 0⟩)) &&
     (after (.admitMessage 0x1234 9) (pairAt 2) (fun u => u == (pairAt 2).advance 9))) = true := by decide +kernel

theorem test_relayDn :
    (after (.relayDn 3 1 true true false 3 2 [] [] 0x1234 5 9) relayHub (fun u => u == relayHub.advance 9)) = true :=
  by decide +kernel

theorem test_relayUp :
    (after (.relayUp 3 0 9) farHub (fun u => u == farHub.advance 9)) = true := by decide +kernel

theorem test_snapshot :
    ((after (.snapshot (snapOf 0 false) 9) (pairAt 2) (fun u => u.stk.base == none && u.latchBit 0x6C)) &&
     (after (.snapshot (snapOf 0 false) 9) (pairAt 1) (fun u => u == (pairAt 1).advance 9))) = true := by decide +kernel

theorem test_journal :
    ((after (.journal (recOf true) 9) (pairAt 2) (fun u => u.stk.jrnl == [recOf true])) &&
     (after (.journal (recOf false) 9) (pairAt 2) (fun u => u.stk.jrnl == [] && !u.rdB F.STK_RED_STAT_JRNL_OK)) &&
     (after (.journal (recOf true) 9) (pairAt 1) (fun u => u == (pairAt 1).advance 9))) = true := by decide +kernel

theorem test_snapshotLoadDone :
    ((after (.snapshotLoadDone 9) (takeAtPhase 2) (fun u => u.stk.take == some ⟨3, 0, false⟩)) &&
     (after (.snapshotLoadDone 9) (takeAtPhase 4) (fun u => u == (takeAtPhase 4).advance 9))) = true :=
  by decide +kernel

theorem test_replayDone :
    ((after (.replayDone 9) (takeAtPhase 4) (fun u => u.stk.take == some ⟨5, 0, false⟩ &&
      u.prb.busy == some ⟨.hubHw, R.STK_EPOCH, 7, 0⟩)) &&
     (after (.replayDone 9) (takeAtPhase 2) (fun u => u == (takeAtPhase 2).advance 9))) = true := by decide +kernel

end PairHandsOverAsCommanded

/-! HostCommandsCompleteAsTheirRulesSay -/

namespace HostCommandsCompleteAsTheirRulesSay

/-- Ring `n` with completion ring 16 and one descriptor. -/
def ringHub (n : HRing) : State :=
  ((((({} : State).wrB F.HQ_STAT_BME true).wrB (F.HQ_RING_CFG_EN n) true).wrB (F.HQ_RING_CFG_EN 16) true).updHring n
    (fun h => { h with hostIdx := 1 })).updHring 16 (fun h => { h with hostIdx := 9 })
theorem test_ringHub_commandAt : (ringHub 3).CommandAt 3 := ⟨⟨by decide +kernel, by decide +kernel, by decide +kernel, by decide +kernel⟩, by decide +kernel, by decide +kernel, by decide +kernel, by decide +kernel, by decide +kernel, by decide +kernel, by decide +kernel, by intro x h; cases h⟩
theorem test_ringHub_cart : (ringHub 57).CommandAt 57 := ⟨⟨by decide +kernel, by decide +kernel, by decide +kernel, by decide +kernel⟩, by decide +kernel, by decide +kernel, by decide +kernel, by decide +kernel, by decide +kernel, by decide +kernel, by decide +kernel, by intro x h; cases h⟩
/-- The first completion that ring `n` wrote. -/
def compl (u : State) : Nat := readBytes u.hostMem 0 16
/-- Ring 0 serves arm 0, which is in carrier mode; or is deblocked. -/
def carHub (n : HRing) : State := ((((ringHub n).wr (F.GEN_RING_ARM_RING_ARM 0 0) 0).wrB (F.GAL_ARM_CFG_MODE 0) true).withRegs [])
/-- State or command of the witnesses. -/
def liveHub (n : HRing) : State := (carHub n).wrB (F.HQ_ARM_STAT_DEBLOCKED 0) true
/-- State or command of the witnesses. -/
def rw (off : Nat) : Bool := match regRow off with | some r => r.pw == 0 && r.lrw == 0 | none => false

theorem test_nop :
    ((after (.nop 3 0 7 9) (ringHub 3) (fun u => bits (compl u) 0 16 == 7 && bits (compl u) 16 6 == 3 &&
      bits (compl u) 24 8 == 0 && bits (compl u) 32 16 == 1 && u.rd (F.HQ_RING_STAT_HUB_IDX 16) == 1 &&
      bits (compl u) 127 1 == (ringHub 3).rd (F.HQ_RING_STAT_PHASE 16))) &&
     (after (.nop 3 99 7 9) (ringHub 3) (fun u => bits (compl u) 24 8 == 1))) = true := by decide +kernel

theorem test_regWr :
    ((after (.regWr 3 7 (R.PRB_USER 0) 5 0xFF 9) (ringHub 3) (fun u => (u.hring 3).wait == .pw 7 (R.PRB_USER 0) 0 &&
      u.prb.busy == some ⟨.host, (R.PRB_USER 0), 5, 4⟩)) &&
     (after (.regWr 3 7 2 5 0xFF 9) (ringHub 3) (fun u => bits (compl u) 24 8 == 2)) &&
     (after (.regWr 3 7 0x400000 5 0xFF 9) (ringHub 3) (fun u => bits (compl u) 24 8 == 5)) &&
     (after (.regWr 3 7 R.HT_CTRL 2 0xFFFFFFFF 9) (ringHub 3) (fun u => bits (compl u) 24 8 == 0 &&
      u.rd F.HT_CTRL_SRC == 2))) = true := by decide +kernel

theorem test_regRd :
    ((after (.regRd 3 7 0x1000000 9) (ringHub 3) (fun u => bits (compl u) 24 8 == 2)) &&
     (after (.regRd 3 7 0x47FFFC 9) (ringHub 3) (fun u => bits (compl u) 24 8 == 5)) &&
     (after (.regRd 3 7 R.GEN_CYC_LEN 9) (ringHub 3) (fun u => bits (compl u) 24 8 == 0 &&
      bits (compl u) 64 32 == ({} : State).rd F.GEN_CYC_LEN_LEN))) = true := by decide +kernel

theorem test_premises :
    ((plainRead R.GEN_CYC_LEN && (regRow R.GEN_CYC_LEN).isSome) &&
     (plainWrite R.HT_CTRL && rw R.HT_CTRL && ({} : State).reaches .host R.HT_CTRL) &&
     (match (carHub 3).armOf 0 with | some a => (carHub 3).carrierMode a | none => false)) = true := by decide +kernel

theorem test_mbxCommit :
    ((after (.mbxCommit 3 7 65 [1, 2, 3, 4] 9) (ringHub 3) (fun u => (u.hring 3).wait == .mbxGrant 7 1 &&
      u.ace.waiting.length == 1 && Store.get u.ace.staging 0 18 == 3)) &&
     (after (.mbxCommit 3 7 65 [1, 2, 3, 4] 9) ((ringHub 3).setStgStat 4 1) (fun u =>
      (u.hring 3).wait == .mbxFree 7 1 [1, 2, 3, 4] && u.ace.waiting.length == 0))) = true := by decide +kernel

theorem test_armDeblock :
    ((after (.armDeblock 3 7 64 9) (ringHub 3) (fun u => u.host.armReq == [(true, 0, 9)] &&
      bits (compl u) 24 8 == 0)) &&
     (after (.armDeblock 3 7 2 9) (ringHub 3) (fun u => u.host.armReq == [] && bits (compl u) 24 8 == 3))) = true :=
  by decide +kernel

theorem test_armBlock :
    (after (.armBlock 3 7 2 9) (ringHub 3) (fun u => u.host.armReq == [(false, 2, 9)] && bits (compl u) 24 8 == 0)) = true :=
  by decide +kernel

theorem test_ringCommit :
    ((after (.ringCommit 3 7 2 0 true 9) (ringHub 3) (fun u => u.host.commits == [(2, none, 9)] &&
      bits (compl u) 64 32 == 2)) &&
     (after (.ringCommit 3 7 2 0 false 9) (ringHub 3) (fun u => u.host.commits == [] && bits (compl u) 24 8 == 4)) &&
     (after (.ringCommit 3 7 2 99 false 9) (ringHub 3) (fun u => u.host.commits == [(2, some 99, 9)] &&
      bits (compl u) 96 31 == 99))) = true := by decide +kernel

theorem test_carDuty :
    ((after (.carDuty 3 7 5 6 1 9) (ringHub 3) (fun u => u.host.dutyReq == [] && bits (compl u) 24 8 == 3)) &&
     (after (.carDuty 3 7 5 6 1 9) (carHub 3) (fun u => u.host.dutyReq == [(5, 6, 1, 9)] && bits (compl u) 24 8 == 0))) = true :=
  by decide +kernel

theorem test_waitCycle :
    ((after (.waitCycle 3 7 5 9) (ringHub 3) (fun u => (u.hring 3).wait == .cycle 7 5 &&
      u.rdB (F.HQ_RING_STAT_STALL 3))) &&
     (after (.waitCycle 3 7 0 9) (ringHub 3) (fun u => bits (compl u) 24 8 == 4))) = true := by decide +kernel

theorem test_cart :
    ((after (.cart .host 3 7 2 1 0 0 0 0 9) (ringHub 3) (fun u => bits (compl u) 24 8 == 1)) &&
     (after (.cart .host 57 7 2 9 0 0 0 0 9) (ringHub 57) (fun u => bits (compl u) 24 8 == 2 &&
      (u.port 2).carts == [])) &&
     (after (.cart .host 57 7 2 1 4 5 6 16 9) (ringHub 57) (fun u => (u.port 2).carts.length == 1 &&
      (u.hring 57).flight.length == 1)) &&
     (after (.cart .host 57 7 0 opRate 4 5 6 16 9) (liveHub 57) (fun u => (u.port 0).carts.length == 0 &&
      u.latchBit 0xB)) &&
     (after (.cart (.core 2) 0 7 0 opRate 4 5 6 16 9) (liveHub 57) (fun u => (u.port 0).carts.length == 0 &&
      u.latchBit 0xB)) &&
     (after (.cart (.core 2) 0 7 0 1 4 5 6 16 9) {} (fun u =>
      (u.port 0).carts == [{ who := .core 2, op := 1, pos := 4, arg := 5, data := 6, cid := 7 }]))) = true :=
  by decide +kernel

end HostCommandsCompleteAsTheirRulesSay

/-! HostIslandFollowsItsCommands -/

namespace HostIslandFollowsItsCommands

/-- State or command of the witnesses. -/
def ringOnHub : State := (({} : State).wrB (F.HQ_RING_CFG_EN 3) true).updHring 3 (fun h => { h with timer := some 0 })
/-- MSI-X vector 0 is unmasked, with an address and data. -/
def vecHub : State := (((((ringOnHub.wrB F.HQ_STAT_MSIX_EN true).wrB F.HQ_STAT_BME true).setReg 0x470000 64).setReg 0x470008 77).setReg 0x47000C 0).wr (F.HQ_RING_MOD_MOD_TMR 3) 2 |>.wrB (F.HQ_RING_CFG_VEC_EN 3) true
/-- State or command of the witnesses. -/
def busyRing : State := ringOnHub.updHring 3 (fun h => { h with wait := .mbxGrant 7 1 })

theorem test_hostReset :
    ((after (.hostReset false 9) (busyRing.setStgStat 4 5) (fun u => !u.ringOn 3 && u.host.rings == [] &&
      !bitOf (u.stgStat 4) 0)) &&
     (after (.hostReset true 9) ringOnHub (fun u => !u.rdB F.HQ_STAT_LINK_UP && u.liveBit 0xE0 &&
      u.reg (R.HQ_RING_CFG 3) == hubReset (R.HQ_RING_CFG 3)))) = true := by decide +kernel

theorem test_bar2Write :
    ((after (.bar2Write 0x17FFFFE [1, 2] 9) (({} : State).wrB F.HQ_CTRL_BAR2_WE true) (fun u =>
      readByte u.coreMem 0x17FFFFF == 2)) &&
     (after (.bar2Write 5 [1, 2] 9) {} (fun u => u == ({} : State).advance 9))) = true := by decide +kernel

theorem test_badAcc :
    ((after (.badAcc true 5 2 9) {} (fun u => u.rdB F.HQ_ERR_BAD_ACC)) &&
     (after (.badAcc false (R.GEN_CYC_LEN + 1) 2 9) {} (fun u =>
      u.rdata == BitVec.ofNat 32 (bits (({} : State).peek .host R.GEN_CYC_LEN).toNat 8 16)))) = true :=
  by decide +kernel

theorem test_doorbell :
    ((after (.doorbell 3 5 9) {} (fun u => (u.hring 3).hostIdx == 5)) &&
     (after (.doorbell 3 64 9) {} (fun u => (u.hring 3).hostIdx == 0 && u.rdB F.HQ_ERR_DB_RANGE && u.latchBit 0xE1)) &&
     (after (.doorbell 60 63 9) {} (fun u => (u.hring 60).hostIdx == 63)) &&
     (after (.doorbell 20 63 9) {} (fun u => (u.hring 20).hostIdx == 63))) = true := by decide +kernel

theorem test_ringConfigWrite :
    ((after (.ringConfigWrite 3 0 0x12345678 9) {} (fun u => u.reg (R.HQ_RING_BASEL 3) == 0x12345000)) &&
     (after (.ringConfigWrite 3 0 0x12345678 9) ringOnHub (fun u => u.reg (R.HQ_RING_BASEL 3) == 0 &&
      u.rdB F.HQ_ERR_CFG_WR)) &&
     (after (.ringConfigWrite 3 1 0x12345678 9) {} (fun u => u.reg (R.HQ_RING_BASEH 3) == 0x12345678)) &&
     (after (.ringConfigWrite 3 2 0x511 9) {} (fun u => u.ringOn 3 && u.rd (F.HQ_RING_CFG_LOG2SIZE 3) == 8 &&
      u.rd (F.HQ_RING_CFG_CQ 3) == 5 && u.rd (F.HQ_RING_STAT_PHASE 3) == 1)) &&
     (after (.ringConfigWrite 3 2 0x510 9) ringOnHub (fun u => !u.ringOn 3 && u.rdB F.HQ_ERR_CFG_WR)) &&
     (after (.ringConfigWrite 3 2 0x510 9) busyRing (fun u => u.ringOn 3 && (u.hring 3).closing)) &&
     (after (.ringConfigWrite 3 7 0x12345678 9) ringOnHub (fun u => u.reg (R.HQ_RING_MOD 3) == 0x5678))) = true :=
  by decide +kernel

theorem test_readFail :
    ((after (.readFail 3 9) ringOnHub (fun u => u.rdB (F.HQ_RING_STAT_ERR 3) && u.rdB F.HQ_ERR_RD_FAIL &&
      u.latchBit 0xE1)) &&
     (after (.readFail 4 9) ringOnHub (fun u => u == ringOnHub.advance 9))) = true := by decide +kernel

theorem test_moderationTimer :
    ((after (.moderationTimer 3 (ns 2000)) vecHub (fun u => (u.hring 3).timer == none &&
      readBytes u.hostMem 64 4 == 77)) &&
     (after (.moderationTimer 3 (ns 2000)) (vecHub.setReg 0x47000C 1) (fun u => (u.hring 3).timer == none &&
      u.rdB ⟨0x478000, 0, 1⟩ && u.hostMem == [])) &&
     (after (.moderationTimer 3 (ns 1999)) vecHub (fun u => u == vecHub.advance (ns 1999))) &&
     (after (.moderationTimer 4 (ns 1999)) vecHub (fun u => u == vecHub.advance (ns 1999)))) = true := by decide +kernel

theorem test_pcieLinkUp :
    (after (.pcieLinkUp 3 8 9) {} (fun u => u.rdB F.HQ_STAT_LINK_UP && u.rd F.HQ_STAT_SPEED == 3 &&
      u.rd F.HQ_STAT_WIDTH == 8 && !u.liveBit 0xE0)) = true := by decide +kernel

theorem test_busMasterEnableWrite :
    ((after (.busMasterEnableWrite false true 9) ringOnHub (fun u => !u.rdB F.HQ_STAT_BME && u.rdB F.HQ_STAT_MSIX_EN &&
      u.rdB F.HQ_ERR_BME_OFF && u.rdB (F.HQ_RING_STAT_STALL 3))) &&
     (after (.busMasterEnableWrite true false 9) (ringOnHub.wrB (F.HQ_RING_STAT_STALL 3) true) (fun u =>
      u.rdB F.HQ_STAT_BME && !u.rdB (F.HQ_RING_STAT_STALL 3)))) = true := by decide +kernel

end HostIslandFollowsItsCommands

/-! EthernetSendsAndReceives -/

namespace EthernetSendsAndReceives

/-- Ring 3 with completion ring 16 and one descriptor. -/
def ringHub (n : HRing) : State :=
  ((((({} : State).wrB F.HQ_STAT_BME true).wrB (F.HQ_RING_CFG_EN n) true).wrB (F.HQ_RING_CFG_EN 16) true).updHring n
    (fun h => { h with hostIdx := 1 })).updHring 16 (fun h => { h with hostIdx := 9 })
/-- State or command of the witnesses. -/
def compl (u : State) : Nat := readBytes u.hostMem 0 16
theorem test_ethRing_commandAt : (ringHub 3).CommandAt 3 := ⟨⟨by decide +kernel, by decide +kernel, by decide +kernel, by decide +kernel⟩, by decide +kernel, by decide +kernel, by decide +kernel, by decide +kernel, by decide +kernel, by decide +kernel, by decide +kernel, by intro x h; cases h⟩
/-- State or command of the witnesses. -/
def bcast : List Byte := [255, 255, 255, 255, 255, 255, 1, 2, 3, 4, 5, 6, 0x88, 0xF7, 0, 0]
/-- State or command of the witnesses. -/
def sendHub : State := ((((ringHub 3).wrB (F.HT_ETH_CFG_TS_EN 1) true).wrB (F.HT_ETH_CFG_L2 1) true).updHring 3 (fun h => { h with wait := .eth 7 1 true 99 bcast }))
/-- Port 1 receives into event ring 32, with a buffer at 0x1000. -/
def netHub : State := { (((ringHub 3).wrB (F.HQ_ETH_CFG_EN 1) true).wrB F.HQ_EV_ROUTE_ETH1_EN true).wrB (F.HQ_RING_CFG_EN 32) true |>.updHring 32 (fun h => { h with hostIdx := 9 }) with
  host := { rings := [(32, { hostIdx := 9, seq := 4 })], rxbuf1 := [⟨7, 0x1000, 1536⟩] } }

theorem test_ethTx :
    ((after (.ethTx 3 7 1 true 99 (List.replicate 1522 5) 9) (ringHub 3) (fun u =>
      (u.hring 3).wait == .eth 7 1 true 99 (List.replicate 1522 5))) &&
     (after (.ethTx 3 7 1 true 99 [] 9) (ringHub 3) (fun u => bits (compl u) 24 8 == 2))) = true := by decide +kernel

theorem test_ethRxbuf :
    ((after (.ethRxbuf 3 7 1 0x1000 1535 9) (ringHub 3) (fun u => bits (compl u) 24 8 == 2)) &&
     (after (.ethRxbuf 3 7 1 0x1000 1536 9) (ringHub 3) (fun u => bits (compl u) 24 8 == 0 &&
      u.rxbufs 1 == [⟨7, 0x1000, 1536⟩])) &&
     (after (.ethRxbuf 3 7 1 0x1000 1536 9) ((ringHub 3).setRxbufs 1 (List.replicate 256 ⟨7, 0x1000, 1536⟩)) (fun u =>
      bits (compl u) 24 8 == 3 && (u.rxbufs 1).length == 256))) = true := by decide +kernel

theorem test_ethTxComplete :
    ((after (.ethTxComplete 3 10 (ns 50)) sendHub (fun u => bits (compl u) 24 8 == 0 && bits (compl u) 64 32 == 99 &&
      u.txq 1 == [⟨99, ns 40⟩])) &&
     (after (.ethTxComplete 4 10 (ns 50)) sendHub (fun u => u == sendHub.advance (ns 50)))) = true := by decide +kernel

theorem test_ethReceive :
    ((after (.ethReceive 1 bcast true 10 (ns 50)) netHub (fun u => u.rxbufs 1 == [] &&
      u.rd (F.HQ_RING_STAT_HUB_IDX 32) == 1 && readByte u.hostMem 0x1000 == 255 && readByte u.hostMem 0 == 2 &&
      readBytes u.hostMem 16 2 == 16)) &&
     (after (.ethReceive 1 bcast false 10 (ns 50)) netHub (fun u => (u.rxbufs 1).length == 1 &&
      u.rd F.HQ_ETH_CNT_DROP1 == 1 && u.rdB F.HQ_ERR_ETH_DROP)) &&
     (after (.ethReceive 0 bcast true 10 (ns 50)) netHub (fun u => u == netHub.advance (ns 50))) &&
     (after (.ethReceive 1 [2, 0, 0, 0, 0, 9] true 10 (ns 50)) netHub (fun u => u == netHub.advance (ns 50)))) = true :=
  by decide +kernel

end EthernetSendsAndReceives

/-! SchedulerOperationsMoveThreads -/

namespace SchedulerOperationsMoveThreads

/-- Core 1 runs thread 5. -/
def runHub : State := ((({} : State).setRun 1 (some 5)).setNext 1 (some 5)).setThrState 5 2
/-- State or command of the witnesses. -/
def argHub (a : Nat) : State := runHub.wr (F.SCH_ARG_ARG 1) a
/-- State or command of the witnesses. -/
def ticketHub (w : Nat) : State := ((runHub.wrB (F.SCH_THR_STAT_TKV 5) true).wr (F.SCH_THR_STAT_FLOW 5) 2).setFlow 2 { out := [(0, w), (1, 9)] }
theorem test_threadsExist_witness : (ticketHub 5).ThreadsExist := ⟨by decide +kernel, by decide +kernel, by decide +kernel, by decide +kernel⟩

theorem test_schReady :
    ((after (.schReady none 7 9) (({} : State).setThrState 7 3) (fun u => u.thrState 7 == 1 &&
      u.reg R.SCH_HRES == 0)) &&
     (after (.schReady (some 2) 7 9) {} (fun u => u.rdB (F.SCH_THR_STAT_PEND 7) && u.reg (R.SCH_RES 2) == 0)) &&
     (after (.schReady none 7 9) (({} : State).wrB (F.SCH_THR_STAT_PEND 7) true) (fun u =>
      u.rd F.SCH_CNT_SIG_LOST == 1))) = true := by decide +kernel

theorem test_schPrio :
    (after (.schPrio none 255 31 9) {} (fun u => u.thrPrio 255 == 31)) = true := by decide +kernel

theorem test_schSuspend :
    ((after (.schSuspend (some 1) 5 9) (ticketHub 5) (fun u => u.thrState 5 == 8 && !u.rdB (F.SCH_THR_STAT_TKV 5) &&
      u.reg (R.SCH_RES 1) == 2)) &&
     (after (.schSuspend none 5 9) (ticketHub 5) (fun u => u.thrState 5 == 8 && u.reg R.SCH_HRES == 0)) &&
     (after (.schSuspend none 6 9) {} (fun u => u.thrState 6 == 0 && u.reg R.SCH_HRES == 1))) = true :=
  by decide +kernel

theorem test_schResume :
    ((after (.schResume none 6 9) (({} : State).setThrState 6 8) (fun u => u.thrState 6 == 1 && (u.thr 6).susp)) &&
     (after (.schResume none 6 9) {} (fun u => u.reg R.SCH_HRES == 1))) = true := by decide +kernel

theorem test_start :
    ((after (.start none 6 9) {} (fun u => u.thrState 6 == 1 && u.reg R.SCH_HRES == 0)) &&
     (after (.start none 6 9) (({} : State).setThrState 6 8) (fun u => u.thrState 6 == 8 && u.reg R.SCH_HRES == 1))) = true :=
  by decide +kernel

theorem test_schWait :
    ((after (.schWait none 9) {} (fun u => u.reg R.SCH_HRES == 1)) &&
     (after (.schWait (some 1) 9) (runHub.wrB (F.SCH_THR_STAT_PEND 5) true) (fun u => !u.rdB (F.SCH_THR_STAT_PEND 5) &&
      u.thrState 5 == 2)) &&
     (after (.schWait (some 1) 9) (argHub 7) (fun u => u.thrState 5 == 3 && u.rdB (F.SCH_RES_BLOCKED 1) &&
      (u.thr 5).wake == some (({} : State).schTick + 7) && u.coreNext 1 == none))) = true := by decide +kernel

theorem test_exit :
    ((after (.exit (some 3) 9) {} (fun u => u.reg (R.SCH_RES 3) == 1)) &&
     (after (.exit (some 1) 9) (ticketHub 5) (fun u => u.thrState 5 == 0 && !u.rdB (F.SCH_THR_STAT_TKV 5) &&
      u.coreNext 1 == none))) = true := by decide +kernel

theorem test_premises :
    (runHub.coreRun 1 == some 5) = true := by decide +kernel

theorem test_schSleep :
    ((after (.schSleep (some 1) 9) (argHub 0) (fun u => u.reg (R.SCH_RES 1) == 1)) &&
     (after (.schSleep (some 1) 9) (argHub 1) (fun u => u.thrState 5 == 4))) = true := by decide +kernel

theorem test_waitQ :
    ((after (.waitQ (some 1) 48 9) (argHub 0) (fun u => u.reg (R.SCH_RES 1) == 1)) &&
     (after (.waitQ (some 1) 47 9) (argHub 0) (fun u => u.thrState 5 == 5 && (u.thr 5).q == some 47 &&
      (u.thr 5).wake == none)) &&
     (after (.waitQ (some 1) 3 9) ((argHub 0).setIq 3 { items := [1] }) (fun u => u.thrState 5 == 2 &&
      u.reg (R.SCH_RES 1) == 0))) = true := by decide +kernel

theorem test_waitCyc :
    ((after (.waitCyc (some 1) 9) (argHub 1) (fun u => u.thrState 5 == 6 && (u.thr 5).cyc == some 1)) &&
     (after (.waitCyc (some 1) 9) (argHub 0) (fun u => u.thrState 5 == 2 && u.rdB (F.SCH_RES_LATE 1)))) = true :=
  by decide +kernel

theorem test_flowEnter :
    ((after (.flowEnter (some 1) 2 9) (ticketHub 5) (fun u => u.reg (R.SCH_RES 1) == 1)) &&
     (after (.flowEnter (some 1) 2 9) runHub (fun u => u.rdB (F.SCH_THR_STAT_TKV 5) &&
      u.rd (F.SCH_FLOW_NEXT_TICKET 2) == 1 && (u.flow 2).out == [(0, 5)])) &&
     (after (.flowEnter (some 1) 2 9) (runHub.setFlow 2 { out := List.replicate 64 (0, 9) }) (fun u =>
      u.thrState 5 == 7 && (u.flow 2).enter == [5]))) = true := by decide +kernel

theorem test_flowRelease :
    ((after (.flowRelease (some 1) 2 9) (ticketHub 5) (fun u => !u.rdB (F.SCH_THR_STAT_TKV 5) &&
      u.reg (R.SCH_RES 1) == 0)) &&
     (after (.flowRelease (some 1) 2 9) (ticketHub 9) (fun u => u.rdB (F.SCH_THR_STAT_TKV 5) && u.thrState 5 == 7 &&
      (u.thr 5).rel)) &&
     (after (.flowRelease (some 1) 3 9) (ticketHub 9) (fun u => u.reg (R.SCH_RES 1) == 1))) = true := by decide +kernel

end SchedulerOperationsMoveThreads

/-! CoresRunWhatTheSchedulerDispatches -/

namespace CoresRunWhatTheSchedulerDispatches

/-- Core 1 runs thread 5 of priority 3; thread 6 of priority 9 is ready and may run on core 1 alone. -/
def liveCore : State := ((((({} : State).wrB (F.SCH_CORE_CTRL_RUN 1) true).setRun 1 (some 5)).setNext 1 (some 5)).setThrState 5 2).wr (F.SCH_THR_CFG_PRIO 5) 3
/-- State or command of the witnesses. -/
def readyHub : State := ((liveCore.setThrState 6 1).wr (F.SCH_THR_CFG_PRIO 6) 9).wr (F.SCH_THR_CFG_AFF 6) 2
/-- State or command of the witnesses. -/
def sleepHub (st : Nat) : State := (({} : State).setThr 4 { wake := some 2 }).setThrState 4 st
theorem test_sleepHub_threadsExist : (sleepHub 4).ThreadsExist := ⟨by decide +kernel, by decide +kernel, by decide +kernel, by decide +kernel⟩

theorem test_schTimeout :
    ((after (.schTimeout (ns 20)) (sleepHub 4) (fun u => u.thrState 4 == 1 && !u.rdB (F.SCH_THR_STAT_TIMEOUT 4))) &&
     (after (.schTimeout (ns 20)) (sleepHub 3) (fun u => u.thrState 4 == 1 && u.rdB (F.SCH_THR_STAT_TIMEOUT 4))) &&
     (after (.schTimeout (ns 19)) (sleepHub 3) (fun u => u.thrState 4 == 3))) = true := by decide +kernel

theorem test_dispatch :
    ((after (.dispatch 9) {} (fun u => u.thrState 4 == 0)) &&
     (after (.dispatch 9) readyHub (fun u => u.thrState 6 == 2 && u.coreNext 1 == some 6 && bitOf u.sch.irq 1 &&
      u.thrState 5 == 1)) &&
     (after (.dispatch 9) { ((readyHub.setThrState 7 1).wr (F.SCH_THR_CFG_PRIO 7) 4) with sch := { counted := [7] } } (fun u =>
      u.thrState 7 == 2 && u.coreNext 1 == some 7)) &&
     (after (.dispatch 9) { (({} : State).setThrState 7 7) with sch := { released := [7] } } (fun u =>
      u.thrState 7 == 1 && u.sch.released == []))) = true := by decide +kernel

theorem test_premises :
    (readyHub.coreFor 6 == some 1) = true := by decide +kernel

theorem test_schSwitch :
    ((after (.schSwitch 1 6 false 9) (readyHub.setNext 1 (some 6)) (fun u => u.coreRun 1 == some 6 &&
      !bitOf u.sch.irq 1 && !u.rdB (F.SCH_RES_REFUSED 1))) &&
     (after (.schSwitch 1 6 true 9) (readyHub.setNext 1 none) (fun u => u.coreRun 1 == none)) &&
     (after (.schSwitch 1 7 false 9) (readyHub.setNext 1 (some 6)) (fun u => u.coreRun 1 == some 5 &&
      u.rdB (F.SCH_RES_REFUSED 1)))) = true := by decide +kernel

theorem test_schResRead :
    (after (.schResRead 1 9) (({} : State).setReg (R.SCH_RES 1) 0x12340003) (fun u => u.rdata == 0x12340003)) = true :=
  by decide +kernel

theorem test_lockstepMismatch :
    (after (.lockstepMismatch 1 9) (liveCore.setNext 1 (some 8)) (fun u => u.latchBit 0xB9 && u.rdB (F.SCH_CORE_STAT_HALT 1) && !u.coreLive 1 && u.thrState 5 == 9 && u.thrState 8 == 1 && u.coreRun 1 == none)) = true :=
  by decide +kernel

theorem test_coreRun :
    ((after (.coreRun 2 true 9) {} (fun u => u.rdB (F.SCH_CORE_CTRL_RUN 2))) &&
     (after (.coreRun 2 false 9) {} (fun u => u == ({} : State).advance 9))) = true := by decide +kernel

theorem test_uncorrectableEccError :
    (after (.uncorrectableEccError 4 9) {} (fun u => u.latchBit 0xC4)) = true := by decide +kernel

end CoresRunWhatTheSchedulerDispatches

/-! CanControllersSend -/

namespace CanControllersSend

/-- State or command of the witnesses. -/
def frameOf (tag : Nat) : CanTx := { words := (List.replicate 17 0) ++ [BitVec.ofNat 32 (tag * 65536)] ++ List.replicate 6 0 }
/-- Controller 1 is error active with two frames queued and an urgent one; `b`: what is on the bus. -/
def canHub (b : Option Bool) : State := (({} : State).wr (F.CAN_STAT_STATE 1) 2).putCan 1 { txq := [frameOf 7, frameOf 300], urg := some (frameOf 9), bus := b }
/-- State or command of the witnesses. -/
def fetchHub : State := ((((({} : State).wrB F.HQ_STAT_BME true).wrB (F.HQ_RING_CFG_EN 62) true).wrB (F.HQ_RING_CFG_EN 16) true).updHring 62
    (fun h => { h with hostIdx := 1 })).updHring 16 (fun h => { h with hostIdx := 9 }) |>.wrB (F.CAN_CTRL_TXRING 1) true

theorem test_canInitWrite :
    ((after (.canInitWrite 1 true 9) (canHub none) (fun u => u.rdB (F.CAN_CTRL_INIT 1) &&
      u.rd (F.CAN_STAT_STATE 1) == 0 && (u.canSt 1).txq == [] && (u.canSt 1).urg == none)) &&
     (after (.canInitWrite 1 false 9) ((canHub none).wrB (F.CAN_CTRL_INIT 1) true) (fun u =>
      !u.rdB (F.CAN_CTRL_INIT 1) && u.rd (F.CAN_STAT_STATE 1) == 1)) &&
     (after (.canInitWrite 1 false 9) ((canHub none).wrB (F.CAN_CTRL_INIT 1) false) (fun u =>
      u.rd (F.CAN_STAT_STATE 1) == 2))) = true := by decide +kernel

theorem test_canIntegrationDone :
    ((after (.canIntegrationDone 1 (ns 1000000)) (({} : State).wr (F.CAN_STAT_STATE 1) 1) (fun u =>
      u.rd (F.CAN_STAT_STATE 1) == 2)) &&
     (after (.canIntegrationDone 1 9) (canHub none) (fun u => u == (canHub none).advance 9))) = true :=
  by decide +kernel

theorem test_canProtocolException :
    (after (.canProtocolException 1 9) (canHub none) (fun u => u.rd (F.CAN_STAT_STATE 1) == 1 &&
      u.rd (F.CAN_CNT_PEXC 1) == 1)) = true := by decide +kernel

theorem test_push :
    ((after (.push 1 .host 9) (canHub none) (fun u => (u.canSt 1).txq.length == 3 &&
      u.rd (F.CAN_STAT_TXQ_LEVEL 1) == 3)) &&
     (after (.push 1 .host 9) (({} : State).putCan 1 { txq := List.replicate 32 (frameOf 1) }) (fun u =>
      (u.canSt 1).txq.length == 32 && u.rdB (F.CAN_ERR_TXQ_FULL 1)))) = true := by decide +kernel

theorem test_urgent :
    ((after (.urgent 0 .host 9) {} (fun u => (u.canSt 0).urg.isSome && u.rdB (F.CAN_STAT_URG_FULL 0))) &&
     (after (.urgent 1 .host 9) (canHub none) (fun u => u.rdB (F.CAN_ERR_URG_BUSY 1)))) = true := by decide +kernel

theorem test_cancel :
    ((after (.cancel 1 true 0 9) (canHub none) (fun u => (u.canSt 1).urg == none &&
      u.rd (F.CAN_TXRES_OUTCOME 1) == 2 && u.rd (F.CAN_TXRES_TAG 1) == 9)) &&
     (after (.cancel 1 true 0 9) (canHub (some true)) (fun u =>
      (u.canSt 1).urg == some { frameOf 9 with cancel := true })) &&
     (after (.cancel 0 true 0 9) (canHub none) (fun u => u == (canHub none).advance 9)) &&
     (after (.cancel 1 false 300 9) (canHub (some false)) (fun u => (u.canSt 1).txq == [frameOf 7] &&
      u.rd (F.CAN_TXRES_TAG 1) == 300)) &&
     (after (.cancel 1 false 7 9) (canHub (some false)) (fun u =>
      (u.canSt 1).txq == [{ frameOf 7 with cancel := true }, frameOf 300])) &&
     (after (.cancel 1 false 8 9) (canHub none) (fun u => u == (canHub none).advance 9))) = true := by decide +kernel

theorem test_recover :
    ((after (.recover 1 9) (({} : State).wr (F.CAN_STAT_STATE 1) 4) (fun u => u.rd (F.CAN_STAT_STATE 1) == 5)) &&
     (after (.recover 1 9) (canHub none) (fun u => u == (canHub none).advance 9))) = true := by decide +kernel

theorem test_canRingFetch :
    ((after (.canRingFetch 1 [1, 2] 9) fetchHub (fun u => (u.canSt 1).txq == [{ words := [1, 2], ring := true }] &&
      u.rd (F.HQ_RING_STAT_HUB_IDX 62) == 1)) &&
     (after (.canRingFetch 0 [1, 2] 9) fetchHub (fun u => u == fetchHub.advance 9))) = true := by decide +kernel

theorem test_canStartOfFrame :
    ((after (.canStartOfFrame 1 9) (canHub none) (fun u => (u.canSt 1).bus == some true)) &&
     (after (.canStartOfFrame 1 9) ((canHub none).putCan 1 { txq := [frameOf 7] }) (fun u =>
      (u.canSt 1).bus == some false)) &&
     (after (.canStartOfFrame 1 9) ((canHub none).wrB (F.CAN_CTRL_RESTR 1) true) (fun u => (u.canSt 1).bus == none &&
      (u.canSt 1).restr))) = true := by decide +kernel

theorem test_canBusOff :
    ((after (.canBusOff 1 9) ((canHub (some true)).wrB (F.CAN_CTRL_AUTO_REC 1) false) (fun u =>
      u.rdB (F.CAN_ERR_BUSOFF 1) && u.liveBit 0xE3 && u.rd (F.CAN_STAT_STATE 1) == 4 && (u.canSt 1).bus == none)) &&
     (after (.canBusOff 1 9) ((canHub (some true)).wrB (F.CAN_CTRL_AUTO_REC 1) true) (fun u =>
      u.rd (F.CAN_STAT_STATE 1) == 5))) = true := by decide +kernel

theorem test_canRecoveryDone :
    ((after (.canRecoveryDone 1 9) ((canHub none).wr (F.CAN_STAT_STATE 1) 5) (fun u =>
      u == ((canHub none).wr (F.CAN_STAT_STATE 1) 5).advance 9)) &&
     (after (.canRecoveryDone 1 (ns 1000000000)) ((canHub none).wr (F.CAN_STAT_STATE 1) 5) (fun u =>
      u.rd (F.CAN_STAT_STATE 1) == 2 && u.rd (F.CAN_STAT_TEC 1) == 0)) &&
     (after (.canRecoveryDone 1 9) (canHub none) (fun u => u == (canHub none).advance 9))) = true := by decide +kernel

theorem test_canTxDone :
    ((after (.canTxDone 1 .error 0 256 0 9) (canHub (some true)) (fun u => u.rdB (F.CAN_ERR_BUSOFF 1) &&
      (u.canSt 1).urg.isSome && (u.canSt 1).bus == none)) &&
     (after (.canTxDone 1 .sent 0 0 0 9) (canHub (some false)) (fun u => (u.canSt 1).txq == [frameOf 300] &&
      u.rd (F.CAN_TXRES_OUTCOME 1) == 0 && u.rd (F.CAN_TXRES_TAG 1) == 7)) &&
     (after (.canTxDone 1 .lost 0 0 0 9) (canHub (some true)) (fun u => (u.canSt 1).urg == some (frameOf 9) &&
      u.rd (F.CAN_CNT_ARBLOST 1) == 1 && (u.canSt 1).bus == none)) &&
     (after (.canTxDone 1 .error 0 0 0 9) ((canHub (some true)).wr (F.CAN_CTRL_RETRY 1) 1) (fun u =>
      (u.canSt 1).urg == some { frameOf 9 with tries := 1 } && u.rd (F.CAN_CNT_ERRFR 1) == 1)) &&
     (after (.canTxDone 1 .error 0 0 0 9) ((canHub (some true)).wr (F.CAN_CTRL_RETRY 1) 0) (fun u =>
      (u.canSt 1).urg == none && u.rd (F.CAN_TXRES_OUTCOME 1) == 3)) &&
     (after (.canTxDone 1 .sent 0 0 0 9) (canHub none) (fun u => u == (canHub none).advance 9))) = true :=
  by decide +kernel

end CanControllersSend

/-! CanControllersReceive -/

namespace CanControllersReceive

/-- Controller 1 is error active; filter 3 matches every standard frame, with target `tg`. -/
def rxHub (tg : Nat) : State := (((({} : State).wr (F.CAN_STAT_STATE 1) 2).wrB (F.CAN_FLT_EN 1 3) true).wr (F.CAN_FLTM_TARGET 1 3) tg)
/-- State or command of the witnesses. -/
def stdFrame : CanFrame := ⟨0x123, false, false, false, 2, false, false, 0xBEEF⟩
/-- State or command of the witnesses. -/
def lockHub : State := ((rxHub 4).wrB (F.CAN_SMB_STAT_LOCKED 1 2) true)
/-- State or command of the witnesses. -/
def pendHub : State := lockHub.setCan 1 { pend := [(2, some [5, 6])] }
/-- State or command of the witnesses. -/
def fullQ (q : Nat) : State := if q = 0 then (rxHub 0).putCan 1 { rx0 := List.replicate 64 ⟨[], 0⟩ } else (rxHub 1).putCan 1 { rx1 := List.replicate 64 ⟨[], 0⟩ }

theorem test_premises :
    (((rxHub 0).canMatch 1 stdFrame == some (3, 0) && (rxHub 0).canActive 1 &&
      !(rxHub 0).rdB (F.CAN_RXQ_CFG_RING 1 0) && !(rxHub 0).rdB (F.CAN_RXQ_CFG_RING 1 1)) &&
     (({} : State).reaches (.core 2) (R.CAN_SMB 1 2 0) && ({} : State).reaches (.core 2) (R.CAN_SMB 1 2 23))) = true :=
  by decide +kernel

theorem test_canReceive :
    ((after (.canReceive 1 stdFrame false 3 0 0 (ns 9)) (rxHub 0) (fun u => u.rd (F.CAN_CNT_ERRFR 1) == 1 &&
      u.can == [])) &&
     (after (.canReceive 0 stdFrame false 3 0 0 (ns 9)) (rxHub 0) (fun u => u == (rxHub 0).advance (ns 9))) &&
     (after (.canReceive 1 stdFrame true 3 0 0 (ns 9)) (rxHub 0) (fun u =>
      (u.canSt 1).rx0 == [⟨canWords stdFrame 3 0 (ns 6), 0⟩])) &&
     (after (.canReceive 1 stdFrame true 3 0 0 (ns 9)) (rxHub 1) (fun u =>
      (u.canSt 1).rx1 == [⟨canWords stdFrame 3 0 (ns 6), 0⟩])) &&
     (after (.canReceive 1 stdFrame true 3 0 0 (ns 9)) (fullQ 0) (fun u => u.rd (F.CAN_RXQ_STAT_LOST 1 0) == 1)) &&
     (after (.canReceive 1 stdFrame true 3 0 0 (ns 9)) (fullQ 1) (fun u => u.rd (F.CAN_RXQ_STAT_LOST 1 1) == 1)) &&
     (after (.canReceive 1 stdFrame true 3 0 0 (ns 9)) (rxHub 4) (fun u => u.rdB (F.CAN_SMB_STAT_NEW 1 2) &&
      u.reg (R.CAN_SMB 1 2 0) == 0xBEEF && u.reg (R.CAN_SMB 1 2 16) == 0x123)) &&
     (after (.canReceive 1 stdFrame true 3 0 0 (ns 9)) lockHub (fun u => u.rdB (F.CAN_SMB_STAT_PEND 1 2) &&
      u.reg (R.CAN_SMB 1 2 0) == 0)) &&
     (after (.canReceive 1 { stdFrame with ide := true } true 3 0 0 (ns 9)) (rxHub 0) (fun u => u.can == [])) &&
     (after (.canReceive 1 { stdFrame with ide := true } true 3 0 0 (ns 9)) ((rxHub 0).wrB (F.CAN_CTRL_ACC_ALL 1) true) (fun u =>
      (u.canSt 1).rx0 == [⟨canWords { stdFrame with ide := true } 31 0 (ns 6), 0⟩]))) = true := by decide +kernel

theorem test_rxqAck :
    ((after (.rxqAck 1 1 9) (fullQ 1) (fun u => (u.canSt 1).rx1.length == 63)) &&
     (after (.rxqAck 1 0 9) (fullQ 0) (fun u => (u.canSt 1).rx0.length == 63))) = true := by decide +kernel

theorem test_smbLockRead :
    (after (.smbLockRead (.core 2) 1 2 9) ((rxHub 0).setReg (R.CAN_SMB 1 2 0) 77) (fun u => u.rdata == 77 &&
      u.rdB (F.CAN_SMB_STAT_LOCKED 1 2))) = true := by decide +kernel

theorem test_smbUnlockRead :
    (after (.smbUnlockRead .host 1 2 9) pendHub (fun u => !u.rdB (F.CAN_SMB_STAT_LOCKED 1 2) &&
      u.rdB (F.CAN_SMB_STAT_NEW 1 2) && u.reg (R.CAN_SMB 1 2 1) == 6)) = true := by decide +kernel

theorem test_unlock :
    ((after (.unlock 1 2 9) lockHub (fun u => !u.rdB (F.CAN_SMB_STAT_LOCKED 1 2) &&
      !u.rdB (F.CAN_SMB_STAT_NEW 1 2))) &&
     (after (.unlock 1 2 9) pendHub (fun u => !u.rdB (F.CAN_SMB_STAT_PEND 1 2) && u.reg (R.CAN_SMB 1 2 0) == 5))) = true :=
  by decide +kernel

end CanControllersReceive

/-! HeldHubAndUnsuppliedTreadTakeNoCommand -/

namespace HeldHubAndUnsuppliedTreadTakeNoCommand

/-- State or command of the witnesses. -/
def heldHub : State := { ({} : State) with pwr := { held := true } }

theorem test_premises :
    (heldHub.pwr.held && (Instr.doorbell 3 5 9).cell == none && (Instr.doorbell 3 5 9).whileHeld == false) = true :=
  by decide +kernel

theorem test_doorbell :
    ((match exec (.doorbell 3 5 9) heldHub with | .next u => u == heldHub | _ => false)) = true := by decide +kernel

theorem test_tSchWake :
    (((({} : State).tread 3).powered == false) && (match exec (.tSchWake 3 9) {} with | .next u => u == {} | _ => false)) = true :=
  by decide +kernel

end HeldHubAndUnsuppliedTreadTakeNoCommand

/-! StepsKeepCoreMemoryInForm -/

namespace StepsKeepCoreMemoryInForm

theorem test_reset_coreMem_wf : Memory.wf State.reset.coreMem := by decide
theorem test_some_coreMem_wf : Memory.wf ({ ({} : State) with coreMem := [(5, 7), (9, 1)], pending := [.bar2Write 6 [3] 9] } : State).coreMem := by decide

theorem test_premises :
    ((match step ({ (({} : State).wrB F.HQ_CTRL_BAR2_WE true) with coreMem := [(5, 7), (9, 1)], pending := [.bar2Write 5 [0, 3] 9] } : State) with | .next u => u.coreMem == [(6, 3), (9, 1)] | _ => false) &&
     ((Instr.permitToken 9) != .enginePass)) = true := by decide +kernel

end StepsKeepCoreMemoryInForm

/-! NoStepShortsACell -/

namespace NoStepShortsACell

theorem test_reset_noShort : State.reset.noShort := by
  intro i
  have h : State.reset.tread i = {} := rfl
  rw [h]
  refine ⟨⟨by decide +kernel, ?_⟩, ⟨by decide +kernel, ?_⟩⟩ <;> intro p hp <;> simp [Tread.turnOn] at hp

end NoStepShortsACell

/-! EstimateLoadsAreAcceptedWhileFree -/

namespace EstimateLoadsAreAcceptedWhileFree

/-- State or command of the witnesses. -/
def freeHub (x : Nat) : State := (((({} : State).wr (F.GEN_RING_ARM_RING_ARM 0 0) 0).withRegs []).wrB (F.HQ_ARM_STAT_DEBLOCKED 0) true).wr (F.GAL_CELL_STAT_EXCL 3) x

theorem test_premises :
    ((match (freeHub 0).armOf 0 with | some a => (freeHub 0).deblocked a | none => false)) = true := by decide +kernel

theorem test_estimateLoad :
    ((after (.estimateLoad 3 1 0x3F800000 4) (freeHub 1) (fun u => u.rd (F.GAL_CELL_CONF_NACC 3) == 64 &&
      (u.galCell 3).estB == b64.put (b32.dec 0x3F800000))) &&
     (after (.estimateLoad 3 1 0x3F800000 4) (freeHub 0) (fun u => u.latchBit 9 &&
      u.galCell 3 == (freeHub 0).galCell 3))) = true := by decide +kernel

end EstimateLoadsAreAcceptedWhileFree

/-! QueueReadsGiveTheOldestItem -/

namespace QueueReadsGiveTheOldestItem

theorem test_iqRead :
    (after (.iqRead 6 0 9) (({} : State).setIq 6 { items := [0x123456789, 5] }) (fun u => u.rdata == 0x23456789 &&
      u.reg (R.FLT_IQ_RDH 6) == 1 && (u.iq 6).items == [5])) = true := by decide +kernel

end QueueReadsGiveTheOldestItem

/-! FramesCarryWhatTheyAreMadeOf -/

namespace FramesCarryWhatTheyAreMadeOf

/-- State or command of the witnesses. -/
def someHeader : Header := ⟨1, 1, true, false, true, 6, 16383, 4294967295, 65535, ns 1999999999⟩

theorem test_premises :
    ((hallS someHeader.e < 2 ^ 48 && someHeader.lag < 2 ^ 14) &&
     (let v := mkCart 9 63 31 true 65535 (2 ^ 64 - 1); cOp v == 9 && cTag v == 63 && cPos v == 31 && cRpl v &&
      cArg v == 65535 && cData v == 2 ^ 64 - 1)) = true := by decide +kernel

end FramesCarryWhatTheyAreMadeOf

/-! SideCommandsLeaveTheControlPath -/

namespace SideCommandsLeaveTheControlPath

theorem test_premises :
    ((Instr.push 1 .host 9).beside && (Instr.freeze true 9).beside) = true := by decide +kernel

theorem test_push :
    (after (.push 1 .host 9) {} (fun u => u.reg R.GEN_CYC_LEN == ({} : State).reg R.GEN_CYC_LEN &&
      u.treads == ({} : State).treads)) = true := by decide +kernel

end SideCommandsLeaveTheControlPath

/-! OutsideCommandsLeaveTheControlPath -/

namespace OutsideCommandsLeaveTheControlPath

theorem test_premises :
    ((Instr.tripMessage 1 3 9).outside && (Instr.sboRel 0x6B 9).outside) = true := by decide +kernel

theorem test_tripMessage :
    (after (.tripMessage 1 3 9) {} (fun u => u.ace == ({} : State).ace && u.gal == ({} : State).gal && u.saf.tripReq)) = true :=
  by decide +kernel

end OutsideCommandsLeaveTheControlPath

end Sys2Proof.Tests
end

section
/-!
PROOFS. The sides of the ring (R7, R27, R33): each command passes one gate of Machine/Reach.lean, and each gate keeps what
lies on the other side of the ring and the queue of waiting commands.
-/

namespace Sys2Proof.Machine

/-- A read at a Tread with supply: the Tread reads, and the hub's part of the state holds the answer. -/
theorem State.readBus_powered (s : State) (i : Cell) (t : Time) (f : State → State) (g : Tread → Tread × Word)
    (h : (s.tread i).powered = true) : s.readBus (some i) t f g =
      { s.setTread i (g ((s.tread i).advance t)).1 with rdata := (g ((s.tread i).advance t)).2 } := by
  simp [State.readBus, h]

theorem State.readBus_off (s : State) (i : Cell) (t : Time) (f : State → State) (g : Tread → Tread × Word)
    (h : (s.tread i).powered = false) : s.readBus (some i) t f g = s := by
  simp [State.readBus, h]

/-- From `s` to `u` a command of Tread `side`, or of the hub when there is none, has kept the queue and what is not of its
side: every other Tread, and of the hub all but the answer of a read when it is a Tread's. -/
structure State.KeepsSide (s : State) (side : Option Cell) (u : State) : Prop where
  pending : u.pending = s.pending
  others : ∀ j : Cell, side ≠ some j → u.tread j = s.tread j
  hub : ∀ i : Cell, side = some i → u = { s with treads := u.treads, rdata := u.rdata }

namespace State.KeepsSide

theorem of_hub {s u : State} (ht : u.treads = s.treads) (hp : u.pending = s.pending) : s.KeepsSide none u :=
  ⟨hp, fun j _ => by rw [State.tread, State.tread, ht], fun _ h => nomatch h⟩

theorem of_tread {s u : State} {i : Cell} (hu : u = { s with treads := u.treads, rdata := u.rdata })
    (ho : ∀ j : Cell, j ≠ i → u.tread j = s.tread j) : s.KeepsSide (some i) u :=
  ⟨by rw [hu], fun j h => ho j fun e => h (congrArg some e.symm), fun _ _ => hu⟩

/-! One rule per gate. -/

theorem onChip (s : State) (f : State → State) : s.KeepsSide none (s.onChip f) := of_hub rfl rfl

theorem onHub (s : State) (f : State → State) : s.KeepsSide none (s.onHub f) :=
  of_hub (State.onHub_treads s f) (State.onHub_pending s f)

theorem onSafety (s : State) (f : State → State) : s.KeepsSide none (s.onSafety f) :=
  of_hub (State.onSafety_treads s f) (State.onSafety_pending s f)

theorem onHubMem (s : State) (f : State → State) : s.KeepsSide none (s.onHubMem f) :=
  of_hub (State.onHubMem_treads s f) (State.onHubMem_pending s f)

theorem onPass (s : State) (f : State → State × List (Nat × Nat)) : s.KeepsSide none (s.onPass f) :=
  of_hub (State.onPass_treads s f) (State.onPass_pending s f)

theorem updTread (s : State) (i : Cell) (f : Tread → Tread) : s.KeepsSide (some i) (s.updTread i f) :=
  of_tread rfl fun j h => State.tread_updTread_other s i j f (Fin.val_ne_of_ne h)

theorem onTread (s : State) (i : Cell) (f : Tread → Tread) : s.KeepsSide (some i) (s.onTread i f) :=
  of_tread (by rw [State.onTread_eq]) fun j h => State.tread_onTread_other s i j f (Fin.val_ne_of_ne h)

theorem onLane (s : State) (l : Lane) (t : Time) (f : Lane → State → State) : s.KeepsSide l.cell (s.onLane l t f) := by
  cases l with
  | port r | tit n => exact onHub s _
  | near i | far i => exact onTread s i _

theorem onBus (s : State) (tgt : Option Cell) (t : Time) (f : State → State) (g : Tread → Tread) :
    s.KeepsSide tgt (s.onBus tgt t f g) := by
  cases tgt with
  | none => exact onHub s _
  | some i => exact onTread s i _

theorem readBus (s : State) (tgt : Option Cell) (t : Time) (f : State → State) (g : Tread → Tread × Word) :
    s.KeepsSide tgt (s.readBus tgt t f g) := by
  cases tgt with
  | none => exact onHub s _
  | some i =>
    cases hp : (s.tread i).powered with
    | true =>
      rw [State.readBus_powered s i t f g hp]
      exact of_tread rfl fun j h => State.tread_setTread_other s i j _ (Fin.val_ne_of_ne h)
    | false =>
      rw [State.readBus_off s i t f g hp]
      exact of_tread rfl fun _ _ => rfl

end State.KeepsSide

/-- Every command completes, and keeps what is not of its side of the ring: the commands by the gate that they pass. -/
theorem exec_keepsSide (c : Instr) (s : State) : ∃ u, exec c s = .next u ∧ s.KeepsSide c.cell u := by
  cases c with
  | registerWrite who tgt off v t => exact ⟨_, rfl, .onBus s tgt t _ _⟩
  | rcRead who tgt off t => exact ⟨_, rfl, .readBus s tgt t _ _⟩
  | resourceGrant g t =>
    cases g with
    | hub res asks => exact ⟨_, rfl, .onHub s _⟩
    | tread i asks => exact ⟨_, rfl, .onTread s i _⟩
  | treadSupplyGood => exact ⟨_, rfl, .updTread s _ _⟩
  | outboundFrame | inboundFrame | rd | wr | bwr | fwblk | cartAdmit | linkTake | linkRelease | rateQuery | rateGo | ident
  | actionInstant | ditherEdge | deadTimeTurnOn | gateFeedbackOff | gfbMismatch | carrierEdge | refreshRequest | notchEnd
  | carrierNotch | bypConfRise | bypassGatesOff | bypassConfTimeout | thyFirePulse | bypassTest | bypassRelease
  | landingActionBase | frameLossWatchdog | guardWatchdog | treadBootDecision | treadSupplyFall | ovSetMeasure | guardTrip
  | supokLoss | verify | verifyDone | fwSwitch | adcConversion | desatFault | digestUpdate | tSchReady | tSchWait
  | tSchSleep | tSchPrio | tSchSuspend | tSchWake | tEvcSelect | tFltClr => exact ⟨_, rfl, .onTread s _ _⟩
  | blockLock l t | lossOfLock l t | lossOfSignal l t | signalReturn l t | rateSwitch l t | linkFaultReceived l t
  | linkFaultCleared l t | farendReceived l t | farendStops l t => exact ⟨_, rfl, .onLane s l t _⟩
  | enginePass => exact ⟨_, rfl, .onPass s _⟩
  | bootVerify | bar2Write => exact ⟨_, rfl, .onHubMem s _⟩
  | permitToken | tokenTimeout | selftestDone | safetyInternalFault | safReset | safetyTrip | sboRel | dclr | test
  | sboPulseTest | readbackFailure | safetyInputChange | discrepancyTimeout | balustradeOutput | balustradeClockLoss
  | lockKey | close | abandon | lockTimeout | safetyDiagnostic => exact ⟨_, rfl, .onSafety s _⟩
  | islandClockFault | pllLock | refLoss | powerOnReset | resetPin | chip | thermalShutdown | pfail | islandClockReturn
  | railOutOfRange | coreVoltageOutOfRange | thermalShutdownEnd | resetNRelease | pfailNRise | jtagInstruction =>
    exact ⟨_, rfl, .onChip s _⟩
  | _ => exact ⟨_, rfl, .onHub s _⟩

/-- What a command answers is what `exec_keepsSide` speaks of. -/
theorem keepsSide_of_exec {c : Instr} {s u : State} (h : exec c s = .next u) : s.KeepsSide c.cell u := by
  obtain ⟨w, hw, keeps⟩ := exec_keepsSide c s
  rw [h] at hw
  cases hw
  exact keeps

/-- Settles O4: each command passes a gate of its own side. -/
theorem commandsStayOnTheirSideOfTheRing : Obligations.CommandsStayOnTheirSideOfTheRing := by
  refine ⟨fun c s u j h side => (keepsSide_of_exec h).others j side, fun c i s u side h => ?_⟩
  exact (keepsSide_of_exec h).hub i side

/-- Settles O2: each command answers by its gate, and no gate touches the queue (DESIGN CHOICE, log entry 87: also a
command to which the spec gives no meaning in the state completes). -/
theorem everyCommandCompletes : Obligations.EveryCommandCompletes := by
  intro c s
  obtain ⟨u, hu, keeps⟩ := exec_keepsSide c s
  exact ⟨u, hu, keeps.pending⟩

end Sys2Proof.Machine
end

section
/-!
PROOFS. Register accesses that have no rule of their own (R6, R9, R499, R540): what a write under the access codes and a
read with its clearing do at the hub and at a Tread.
-/

namespace Sys2Proof.Machine

/-! Registers of a Tread. -/

@[simp] theorem Tread.reg_setReg_same (d : Tread) (o : Nat) (v : Word) : (d.setReg o v).reg o = v :=
  Store.get_put_same _ _ _ _

theorem Tread.reg_setReg_other (d : Tread) (o p : Nat) (v : Word) (h : p ≠ o) : (d.setReg o v).reg p = d.reg p :=
  Store.get_put_key _ _ _ _ _ _ h

@[simp] theorem Tread.reg_advance (d : Tread) (t : Time) (o : Nat) : (d.advance t).reg o = d.reg o := by
  unfold Tread.advance; split <;> rfl

/-- The hub's gate, for an operation that by itself keeps the Treads, core memory and the queue. -/
theorem State.onHubAt_of_keeps {s u : State} {t : Time} {f : State → State} (held : s.pwr.held = false)
    (hf : f (s.advance t) = u) (ht : u.treads = s.treads) (hc : u.coreMem = s.coreMem) (hp : u.pending = s.pending) :
    s.onHubAt t f = u := by
  rw [State.onHubAt_awake s t f held, State.onChip, hf, ← ht, ← hc, ← hp]

/-! Writes of the hub. -/

/-- What a write of `v` leaves in a register of row `r` that held `cur`, and `old` before the write's instant (R9). -/
def writtenWord (r : RegRow) (cur old v : Word) : Word :=
  ((cur &&& ~~~ (BitVec.ofNat 32 r.rw)) ||| (v &&& BitVec.ofNat 32 r.rw)) &&& ~~~ (v &&& BitVec.ofNat 32 r.w1c &&& old)

theorem writtenWord_of_none (r : RegRow) (cur old v : Word) (h : r.rw = 0 ∧ r.w1c = 0) : writtenWord r cur old v = cur := by
  obtain ⟨hrw, hw1c⟩ := h
  simp only [writtenWord, hrw, hw1c, BitVec.and_zero, BitVec.zero_and, BitVec.or_zero, BitVec.not_zero, BitVec.and_allOnes]

/-- A register without a rule of its own is written under its access codes alone. -/
theorem hubWrite_of_plainWrite (s : State) (who : Requester) (off : Nat) (v : Word) (tag : Nat)
    (hr : s.reaches who off = true) (hp : plainWrite off = true) : hubWrite who off v s tag = s.plain who off v tag := by
  simp only [plainWrite, List.contains_cons, List.contains_nil, Bool.and_eq_true, Bool.or_eq_true, beq_iff_eq,
    Bool.not_eq_true', Bool.or_eq_false_iff, beq_eq_false_iff_ne, Bool.or_false] at hp
  obtain ⟨hb, hboot, hdbg, hclk, hrst, hht, hfr, hns, hs, hmi, hstk⟩ := hp
  rcases hb with hb | hb | hb | hb | hb | hb
  · simp [hubWrite, hr, hb, writeGen, hboot, hdbg]
  · simp [hubWrite, hr, hb, writeClk, hclk, hrst]
  · simp [hubWrite, hr, hb, writeHt, hht, hfr, hns, hs]
  · simp [hubWrite, hr, hb, writeMi, hmi]
  · simp [hubWrite, hr, hb, writeStk, hstk]
  · simp [hubWrite, hr, hb]

/-- Of a row without PW and LRW fields: nothing is stored, or the word that the access codes give. -/
theorem State.plain_of_row (s : State) (who : Requester) (off : Nat) (v : Word) (tag : Nat) {r : RegRow}
    (hrow : regRow off = some r) (hpw : r.pw = 0) (hlrw : r.lrw = 0) :
    s.plain who off v tag =
      if r.rw = 0 ∧ r.w1c = 0 then s else s.setReg off (writtenWord r (s.reg off) (s.before off) v) := by
  simp only [State.plain, hrow, hpw, hlrw, if_true]
  rfl

theorem State.reg_plain_same (s : State) (who : Requester) (off : Nat) (v : Word) (tag : Nat) {r : RegRow}
    (hrow : regRow off = some r) (hpw : r.pw = 0) (hlrw : r.lrw = 0) :
    (s.plain who off v tag).reg off = writtenWord r (s.reg off) (s.before off) v := by
  rw [State.plain_of_row s who off v tag hrow hpw hlrw]
  split
  · next h => exact (writtenWord_of_none r _ _ _ h).symm
  · exact State.reg_setReg_same _ _ _

theorem State.reg_plain_other (s : State) (who : Requester) (off : Nat) (v : Word) (tag : Nat) {r : RegRow}
    (hrow : regRow off = some r) (hpw : r.pw = 0) (hlrw : r.lrw = 0) (o : Nat) (ho : o ≠ off) :
    (s.plain who off v tag).reg o = s.reg o := by
  rw [State.plain_of_row s who off v tag hrow hpw hlrw]
  split
  · rfl
  · exact State.reg_setReg_other _ _ _ _ ho

theorem State.plain_eq (s : State) (who : Requester) (off : Nat) (v : Word) (tag : Nat) {r : RegRow}
    (hrow : regRow off = some r) (hpw : r.pw = 0) (hlrw : r.lrw = 0) :
    s.plain who off v tag = { s with regs := (s.plain who off v tag).regs } := by
  rw [State.plain_of_row s who off v tag hrow hpw hlrw]
  split <;> rfl

/-- REGISTER_WRITE of the hub whose islands run: time passes, and the register is written under its access codes. -/
theorem exec_registerWrite_plain (s : State) (who : Requester) (off : Nat) (v : Word) (t : Time) {r : RegRow}
    (held : s.pwr.held = false) (hr : (s.advance t).reaches who off = true) (hp : plainWrite off = true)
    (hrow : regRow off = some r) (hpw : r.pw = 0) (hlrw : r.lrw = 0) :
    exec (.registerWrite who none off v t) s = .next ((s.advance t).plain who off v) := by
  have heq := State.plain_eq (s.advance t) who off v 0 hrow hpw hlrw
  refine congrArg Host.Outcome.next (State.onHubAt_of_keeps (f := fun s => hubWrite who off v s) held
    (hubWrite_of_plainWrite (s.advance t) who off v 0 hr hp) ?_ ?_ ?_)
  · rw [heq]; exact State.advance_treads s t
  · rw [heq]; exact State.advance_coreMem s t
  · rw [heq]; exact State.advance_pending s t

/-! Writes of a Tread. -/

/-- The firmware's write of a register without a rule of its own stores its RW bits. -/
theorem Tread.writeReg_of_plainTread (d : Tread) (off : Nat) (v : Word) {r : RegRow} (hp : plainTread off = true)
    (hrow : treadRow off = some r) (hpw : r.pw = 0) :
    d.writeReg off v false =
      (d.setReg off ((d.reg off &&& ~~~ (BitVec.ofNat 32 r.rw)) ||| (v &&& BitVec.ofNat 32 r.rw)), true) := by
  simp only [plainTread, List.contains_cons, List.contains_nil, Bool.and_eq_true, Bool.not_eq_true',
    Bool.or_eq_false_iff, beq_eq_false_iff_ne, Bool.or_false, ne_eq, Bool.and_eq_false_iff, decide_eq_false_iff_not] at hp
  obtain ⟨⟨hclr, hbyp, hfw, hsch, hper, hph, hopt, hrtt, hcfg⟩, hevc⟩ := hp
  have hevc' : ¬ (R.T_EVC_SEL 0 ≤ off ∧ off < R.T_EVC_SEL 8) := fun h => hevc.elim (· h.1) (· h.2)
  simp [Tread.writeReg, hrow, hpw, hclr, hbyp, hfw, hsch, hper, hph, hopt, hrtt, hcfg, hevc']

/-- REGISTER_WRITE at a Tread with supply: the Tread writes its register. -/
theorem exec_registerWrite_tread (s : State) (who : Requester) (i : Cell) (off : Nat) (v : Word) (t : Time)
    (h : (s.tread i).onSupply = true) :
    exec (.registerWrite who (some i) off v t) s =
      .next (s.updTread i (fun d => ((d.advance t).writeReg off v false).1)) :=
  congrArg Host.Outcome.next (State.onTreadAt_powered s i t _ h)

/-- Settles O5: a write without a rule of its own goes under the access codes of its row; of a write and an event of one
instant the event wins (DESIGN CHOICE, log entry 86). -/
theorem registerWriteChangesItsWritableBits : Obligations.RegisterWriteChangesItsWritableBits := by
  refine ⟨fun s who off v t r held hr hp hrow hpw hlrw => ?_, fun s who i off v t r hs hp hrow hpw => ?_⟩
  · refine ⟨_, exec_registerWrite_plain s who off v t held hr hp hrow hpw hlrw, ?_, ?_, fun o ho => ?_⟩
    · simpa [writtenWord] using State.reg_plain_same (s.advance t) who off v 0 hrow hpw hlrw
    · exact State.plain_eq (s.advance t) who off v 0 hrow hpw hlrw
    · simpa using State.reg_plain_other (s.advance t) who off v 0 hrow hpw hlrw o ho
  · have keeps := keepsSide_of_exec (exec_registerWrite_tread s who i off v t hs)
    refine ⟨_, exec_registerWrite_tread s who i off v t hs, ?_, fun o ho => ?_, ?_, fun j hj => ?_⟩
    · simp [Tread.writeReg_of_plainTread _ off v hp hrow hpw]
    · simp [Tread.writeReg_of_plainTread _ off v hp hrow hpw, Tread.reg_setReg_other _ _ _ _ ho]
    · rfl
    · exact keeps.others j fun e => hj (Option.some.inj e).symm

end Sys2Proof.Machine
end

section
/-!
PROOFS. Reads (R6, R9, R39, R499): what a read answers and clears at the hub and at a Tread, a read held back until a commit,
and the low word of a counter.
-/

namespace Sys2Proof.Machine

/-! Clear-on-read words. -/

/-- With no RC field a read returns the word and leaves it. -/
theorem rcSplit_zero (cur old : Word) : rcSplit cur old 0#32 = (cur, cur) := by
  simp only [rcSplit, BitVec.and_zero, ite_self, BitVec.not_zero, BitVec.and_allOnes,
    BitVec.sub_self, BitVec.or_zero]

theorem State.reg_clearRc_same (s : State) (off mask : Nat) :
    (s.clearRc off mask).reg off = (rcSplit (s.reg off) (s.before off) (BitVec.ofNat 32 mask)).2 :=
  State.reg_setReg_same _ _ _

theorem State.reg_clearRc_other (s : State) (off mask o : Nat) (h : o ≠ off) :
    (s.clearRc off mask).reg o = s.reg o := State.reg_setReg_other _ _ _ _ h

/-! Reads of the hub. -/

/-- The registers whose read has an effect of its own, which `plainRead` leaves out. -/
theorem plainRead_iff (off : Nat) : plainRead off = true ↔ off < 0x1000000 ∧
    ¬ (R.FLT_IQ_RDL 0 ≤ off ∧ off < R.FLT_IQ_RDL 64 ∧ off % 16 = 0) ∧ off ≠ R.HT_TIME_FR ∧ off ≠ R.HT_ETH_TXQ_ID 0 ∧
    off ≠ R.HT_ETH_TXQ_ID 1 ∧ off ≠ R.SCH_TICKL ∧ ¬ (R.EVC_CNTL 0 ≤ off ∧ off < R.EVC_CNTL 64 ∧ off % 8 = 0) ∧
    off / 0x10000 ≠ 0x4C ∧ ¬ (0x200040 ≤ off ∧ off < 0x220000 ∧ off % 0x1000 = 0x40) := by
  simp only [plainRead, List.contains_cons, List.contains_nil, Bool.or_false, Bool.and_eq_true, Bool.or_eq_true,
    Bool.not_eq_true', ← Bool.not_eq_true, not_or, decide_eq_true_eq, beq_iff_eq, bne_iff_ne, ne_eq, and_assoc]

theorem hubRead_of_not_reaches (s : State) (who : Requester) (off : Nat) (h : s.reaches who off = false) :
    hubRead who off s = { s with rdata := 0 } := by
  simp [hubRead, h]

/-- A register whose read has no other effect: the read waits for the register's commit, or answers and clears. -/
theorem hubRead_of_plainRead (s : State) (who : Requester) (off : Nat) (hr : s.reaches who off = true)
    (hp : plainRead off = true) :
    hubRead who off s =
      if s.heldBack off then { s with prb := { s.prb with reads := s.prb.reads ++ [(who, off)] } }
      else { s.readEffect off with rdata := s.seen who off } := by
  obtain ⟨hiq, htime, hq0, hq1, -, -, -, heq⟩ := (plainRead_iff off).1 hp |>.2
  have hiq48 : ¬ (R.FLT_IQ_RDL 0 ≤ off ∧ off < R.FLT_IQ_RDL 48 ∧ off % 16 = 0) := by
    simp only [R.FLT_IQ_RDL] at hiq ⊢; omega
  simp only [hubRead, hr, hiq48, htime, heq, hq0, hq1, Bool.not_true, Bool.false_eq_true, if_false]

/-- Such a read clears the RC fields of its register. -/
theorem State.readEffect_of_plainRead (s : State) (off : Nat) {r : RegRow} (hp : plainRead off = true)
    (hrow : regRow off = some r) : s.readEffect off = if r.rc = 0 then s else s.clearRc off r.rc := by
  obtain ⟨-, -, -, -, htick, hevc, hcan, -⟩ := (plainRead_iff off).1 hp |>.2
  simp only [State.readEffect, htick, hevc, hcan, hrow, false_and, if_false]

theorem State.reg_readEffect_same (s : State) (off : Nat) {r : RegRow} (hp : plainRead off = true)
    (hrow : regRow off = some r) :
    (s.readEffect off).reg off = (rcSplit (s.reg off) (s.before off) (BitVec.ofNat 32 r.rc)).2 := by
  rw [State.readEffect_of_plainRead s off hp hrow]
  split
  · next h => rw [h]; exact (congrArg Prod.snd (rcSplit_zero _ _)).symm
  · exact State.reg_clearRc_same s off r.rc

theorem State.reg_readEffect_other (s : State) (off : Nat) {r : RegRow} (hp : plainRead off = true)
    (hrow : regRow off = some r) (o : Nat) (ho : o ≠ off) : (s.readEffect off).reg o = s.reg o := by
  rw [State.readEffect_of_plainRead s off hp hrow]
  split
  · rfl
  · exact State.reg_clearRc_other s off r.rc o ho

theorem State.readEffect_eq (s : State) (off : Nat) {r : RegRow} (hp : plainRead off = true) (hrow : regRow off = some r) :
    s.readEffect off = { s with regs := (s.readEffect off).regs,
                                clk := { s.clk with before := (s.readEffect off).clk.before } } := by
  rw [State.readEffect_of_plainRead s off hp hrow]
  split <;> rfl

/-- RC_READ of the hub whose islands run, when the read keeps the Treads, core memory and the queue. -/
theorem exec_rcRead_hub {s u : State} {who : Requester} {off : Nat} {t : Time} (held : s.pwr.held = false)
    (hu : hubRead who off (s.advance t) = u) (ht : u.treads = s.treads) (hc : u.coreMem = s.coreMem)
    (hp : u.pending = s.pending) : exec (.rcRead who none off t) s = .next u :=
  congrArg Host.Outcome.next (State.onHubAt_of_keeps (f := fun s => hubRead who off s) held hu ht hc hp)

/-- RC_READ of a register whose read only clears its RC fields, with no commit of the register waiting. -/
theorem exec_rcRead_plain (s : State) (who : Requester) (off : Nat) (t : Time) {r : RegRow} (held : s.pwr.held = false)
    (hr : (s.advance t).reaches who off = true) (hp : plainRead off = true) (hrow : regRow off = some r)
    (hb : (s.advance t).heldBack off = false) :
    exec (.rcRead who none off t) s =
      .next { (s.advance t).readEffect off with rdata := (s.advance t).seen who off } := by
  have heq := State.readEffect_eq (s.advance t) off hp hrow
  refine exec_rcRead_hub held (by simp [hubRead_of_plainRead _ _ _ hr hp, hb]) ?_ ?_ ?_
  · rw [heq]; exact State.advance_treads s t
  · rw [heq]; exact State.advance_coreMem s t
  · rw [heq]; exact State.advance_pending s t

/-! The low words of counters. -/

/-- The registers from 0x40_0000 on have no read of their own but the effects of `State.readEffect`. -/
theorem hubRead_of_high (s : State) (who : Requester) (off : Nat) (hr : s.reaches who off = true)
    (h : 0x400000 ≤ off) (hb : s.heldBack off = false) :
    hubRead who off s = { s.readEffect off with rdata := s.seen who off } := by
  have hiq : ¬ (R.FLT_IQ_RDL 0 ≤ off ∧ off < R.FLT_IQ_RDL 48 ∧ off % 16 = 0) := by simp only [R.FLT_IQ_RDL]; omega
  have htime : off ≠ R.HT_TIME_FR := by simp only [R.HT_TIME_FR]; omega
  have heq : ¬ (0x200040 ≤ off ∧ off < 0x220000 ∧ off % 0x1000 = 0x40) := by omega
  have hq (n : Nat) (hn : n < 2) : off ≠ R.HT_ETH_TXQ_ID n := by simp only [R.HT_ETH_TXQ_ID]; omega
  simp only [hubRead, hr, hiq, htime, heq, hq, Nat.zero_lt_two, Nat.one_lt_two, hb, Bool.not_true, Bool.false_eq_true,
    if_false]

/-- A read of a register with a computed value answers that value. -/
theorem State.seen_of_view (s : State) (who : Requester) (off v : Nat) (hr : s.reaches who off = true)
    (hv : s.view who off = some v) : s.seen who off = BitVec.ofNat 32 v := by
  simp [State.seen, State.peek, hr, hv]

/-- A read of the low word of event counter `n` answers it and latches the high word (R6). -/
theorem hubRead_counterLow (s : State) (who : Requester) (n : Fin 64) (hr : s.reaches who (R.EVC_CNTL n) = true)
    (hb : s.heldBack (R.EVC_CNTL n) = false) :
    hubRead who (R.EVC_CNTL n) s =
      { s.setReg (R.EVC_CNTH n) (BitVec.ofNat 32 ((Store.get s.evc {} n.val).count / 2 ^ 32)) with
        rdata := BitVec.ofNat 32 (Store.get s.evc {} n.val).count } := by
  have hlt := n.isLt
  have hin : R.EVC_CNTL 0 ≤ R.EVC_CNTL n ∧ R.EVC_CNTL n < R.EVC_CNTL 64 ∧ R.EVC_CNTL n % 8 = 0 := by
    simp only [R.EVC_CNTL]; omega
  have hidx : (R.EVC_CNTL n - R.EVC_CNTL 0) / 8 = n := by simp only [R.EVC_CNTL]; omega
  have hblock : R.EVC_CNTL n / 0x10000 = 0x54 := by simp only [R.EVC_CNTL]; omega
  have hsel : ¬ R.EVC_CNTL n < R.EVC_SEL 64 := by simp only [R.EVC_CNTL, R.EVC_SEL]; omega
  have htick : R.EVC_CNTL n ≠ R.SCH_TICKL := by simp only [R.EVC_CNTL, R.SCH_TICKL]; omega
  have hhigh : 0x400000 ≤ R.EVC_CNTL n := by simp only [R.EVC_CNTL]; omega
  have hview : s.view who (R.EVC_CNTL n) = some (Store.get s.evc {} n.val).count := by
    simp [State.view, hblock, State.viewEvc, hsel, hin, hidx]
  have heffect : s.readEffect (R.EVC_CNTL n) =
      s.setReg (R.EVC_CNTH n) (BitVec.ofNat 32 ((Store.get s.evc {} n.val).count / 2 ^ 32)) := by
    simp only [State.readEffect, htick, if_false, if_pos hin, hidx]
  rw [hubRead_of_high s who _ hr hhigh hb, State.seen_of_view s who _ _ hr hview, heffect]

/-- A read of the low word of the scheduler tick answers it and latches the high word (R6). -/
theorem hubRead_tickLow (s : State) (who : Requester) (hr : s.reaches who R.SCH_TICKL = true)
    (hb : s.heldBack R.SCH_TICKL = false) :
    hubRead who R.SCH_TICKL s =
      { s.setReg R.SCH_TICKH (BitVec.ofNat 32 (s.schTick / 2 ^ 32)) with rdata := BitVec.ofNat 32 s.schTick } := by
  have hview : s.view who R.SCH_TICKL = some s.schTick := rfl
  have heffect : s.readEffect R.SCH_TICKL = s.setReg R.SCH_TICKH (BitVec.ofNat 32 (s.schTick / 2 ^ 32)) := by
    rw [State.readEffect, if_pos rfl]
  rw [hubRead_of_high s who _ hr (by decide) hb, State.seen_of_view s who _ _ hr hview, heffect]

/-! Reads of a Tread. -/

/-- A read of a Tread register other than an equaliser's, and than the two whose value is computed, ages the landing table,
answers the register's readable bits and clears its RC fields. -/
theorem Tread.readReg_stored (d : Tread) (off : Nat) {r : RegRow} (hrow : treadRow off = some r)
    (hn : off ≠ R.T_LN_EQN) (hf : off ≠ R.T_LN_EQF) (htick : off ≠ R.T_SCH_TICK) (hstat : off ≠ R.T_STAT) :
    (d.readReg off).2 =
        (rcSplit (d.ageLand.reg off) (d.ageLand.old off) (BitVec.ofNat 32 r.rc)).1 &&& BitVec.ofNat 32 r.rd ∧
      (d.readReg off).1.reg off = (rcSplit (d.ageLand.reg off) (d.ageLand.old off) (BitVec.ofNat 32 r.rc)).2 := by
  simp only [Tread.readReg, hrow, hn, hf, htick, hstat, if_false]
  split
  · next h => rw [h, rcSplit_zero]; exact ⟨rfl, rfl⟩
  · exact ⟨rfl, Tread.reg_setReg_same _ _ _⟩

/-- Such a read, the computed ones too, changes no other register of the aged Tread. -/
theorem Tread.reg_readReg_other (d : Tread) (off : Nat) {r : RegRow} (hrow : treadRow off = some r)
    (hn : off ≠ R.T_LN_EQN) (hf : off ≠ R.T_LN_EQF) (o : Nat) (ho : o ≠ off) :
    (d.readReg off).1.reg o = d.ageLand.reg o := by
  simp only [Tread.readReg, hrow, hn, hf, if_false]
  split
  · rfl
  · exact Tread.reg_setReg_other _ _ _ _ ho

/-- RC_READ at a Tread with supply: the Tread reads, and the answer is its. -/
theorem exec_rcRead_tread (s : State) (who : Requester) (i : Cell) (off : Nat) (t : Time)
    (h : (s.tread i).powered = true) :
    exec (.rcRead who (some i) off t) s =
      .next { s.setTread i (((s.tread i).advance t).readReg off).1 with
              rdata := (((s.tread i).advance t).readReg off).2 } :=
  congrArg Host.Outcome.next (State.readBus_powered s i t _ _ h)

/-- COUNTER_LOW_READ of the hub whose islands run: the low word of counter `n`, or of the scheduler tick, is read. -/
theorem exec_counterLowRead {s : State} {who : Requester} {n : Option (Fin 64)} {t : Time} {o : Nat} {v w : Word}
    (held : s.pwr.held = false)
    (hu : hubRead who (match n with | some n => R.EVC_CNTL n | none => R.SCH_TICKL) (s.advance t) =
      { (s.advance t).setReg o v with rdata := w }) :
    exec (.counterLowRead who n t) s = .next { (s.advance t).setReg o v with rdata := w } :=
  congrArg Host.Outcome.next (State.onHubAt_of_keeps held hu (State.advance_treads s t) (State.advance_coreMem s t)
    (State.advance_pending s t))

/-- Settles O6: each read answers what the register shows and clears or latches by its row; an event of the read's own
instant stays for the next read (DESIGN CHOICE, log entry 86). -/
theorem readsAnswerThenClear : Obligations.ReadsAnswerThenClear := by
  refine ⟨fun s who off t r held hr hp hrow hb => ?_, fun s who off t held hr => ?_, fun s who off t held hr hp hb => ?_,
    fun s who i off t r d hpow hrow hn hf hd => ?_, fun s who n t held hr hb => ?_, fun s who t held hr hb => ?_⟩
  · refine ⟨_, exec_rcRead_plain s who off t held hr hp hrow hb, rfl, ?_, ?_, fun o ho => ?_⟩
    · exact (State.reg_readEffect_same (s.advance t) off hp hrow).trans (by rw [State.reg_advance])
    · exact congrArg (fun u : State => { u with rdata := (s.advance t).seen who off })
        (State.readEffect_eq (s.advance t) off hp hrow)
    · exact (State.reg_readEffect_other (s.advance t) off hp hrow o ho).trans (State.reg_advance s t o)
  · exact ⟨_, exec_rcRead_hub held (hubRead_of_not_reaches (s.advance t) who off hr) (State.advance_treads s t)
      (State.advance_coreMem s t) (State.advance_pending s t), rfl⟩
  · refine exec_rcRead_hub held ?_ (State.advance_treads s t) (State.advance_coreMem s t) (State.advance_pending s t)
    rw [hubRead_of_plainRead _ _ _ hr hp, if_pos hb, State.advance_prb]
  · subst hd
    have hu := exec_rcRead_tread s who i off t hpow
    have keeps := keepsSide_of_exec hu
    refine ⟨_, hu, fun htick hstat => ?_, fun o ho => ?_, rfl, fun j hj => keeps.others j fun e => hj (Option.some.inj e).symm⟩
    · obtain ⟨answer, left⟩ := Tread.readReg_stored ((s.tread i).advance t) off hrow hn hf htick hstat
      exact ⟨answer, (congrArg (Tread.reg · off) (State.tread_setTread_same s i _)).trans left⟩
    · exact (congrArg (Tread.reg · o) (State.tread_setTread_same s i _)).trans
        (Tread.reg_readReg_other _ off hrow hn hf o ho)
  · have hu := exec_counterLowRead held (n := some n) (hubRead_counterLow (s.advance t) who n hr hb)
    refine ⟨_, hu, by rw [State.advance_evc], ?_, fun o ho => ?_⟩
    · exact (State.reg_setReg_same _ _ _).trans (by rw [State.advance_evc])
    · exact (State.reg_setReg_other _ _ _ _ ho).trans (State.reg_advance s t o)
  · have hu := exec_counterLowRead held (n := none) (hubRead_tickLow (s.advance t) who hr hb)
    refine ⟨_, hu, rfl, State.reg_setReg_same _ _ _, fun o ho => ?_⟩
    exact (State.reg_setReg_other _ _ _ _ ho).trans (State.reg_advance s t o)

end Sys2Proof.Machine
end

section
/-!
PROOFS. Persistent words with a write condition (R49, R103, R321, R343, R540), and `GEN_CYC_CTRL` (R80): what the bank's free
write port makes of the word that a write presents.
-/

namespace Sys2Proof.Machine

/-! Fields that two states share with their registers. -/

theorem State.rd_congr {s u : State} {f : Fld} (h : u.reg f.reg = s.reg f.reg) : u.rd f = s.rd f := by
  rw [State.rd, State.rd, h]

theorem State.rdB_congr {s u : State} {f : Fld} (h : u.reg f.reg = s.reg f.reg) : u.rdB f = s.rdB f := by
  rw [State.rdB, State.rdB, State.rd_congr h]

/-! A word at the free port. -/

/-- A register of PW fields alone is written through the port. -/
theorem State.plain_of_pwRow (s : State) (who : Requester) (off : Nat) (v : Word) (tag : Nat) {r : RegRow}
    (hrow : regRow off = some r) (hrw : r.rw = 0) (hw1c : r.w1c = 0) (hlrw : r.lrw = 0) (hpw : r.pw ≠ 0) :
    s.plain who off v tag = s.presentPw who off (v &&& BitVec.ofNat 32 r.pw) tag := by
  simp [State.plain, hrow, hrw, hw1c, hlrw, hpw]

theorem State.presentPw_accepted {s x : State} {who : Requester} {off : Nat} {val v : Word} (h : s.PortFree)
    (ho : s.readOnly (prbBlockOf off) = false) (hj : s.portTaken.judgePw ⟨who, off, val, 0⟩ = (x, some v)) :
    s.presentPw who off val = { x with prb := { x.prb with busy := some ⟨who, off, v, 0⟩ } } := by
  rw [State.presentPw_free s who off val h ho, hj]

theorem State.presentPw_ignored {s x : State} {who : Requester} {off : Nat} {val : Word} (h : s.PortFree)
    (ho : s.readOnly (prbBlockOf off) = false) (hj : s.portTaken.judgePw ⟨who, off, val, 0⟩ = (x, none)) :
    s.presentPw who off val = x := by
  rw [State.presentPw_free s who off val h ho, hj]

theorem State.readOnly_advance (s : State) (t : Time) (b : Nat) : (s.advance t).readOnly b = s.readOnly b := by
  unfold State.readOnly State.wearOf
  rw [State.advance_prb]

theorem State.anyDeblocked_advance (s : State) (t : Time) : (s.advance t).anyDeblocked = s.anyDeblocked := by
  have h : (s.advance t).deblocked = s.deblocked := funext fun a => by simp [State.deblocked]
  rw [State.anyDeblocked, State.anyDeblocked, h]

/-! The judgement (R540). -/

theorem State.judgePw_cycLen (s : State) (who : Requester) (v : Word) (tag : Nat) :
    s.judgePw ⟨who, R.GEN_CYC_LEN, v, tag⟩ =
      if s.anyDeblocked = true ∨ bits v.toNat 0 11 < 100 ∨ 2000 < bits v.toNat 0 11 then (s.raise 0x003, none)
      else (s, some v) := by
  have ht : isTopology R.GEN_CYC_LEN = false := by decide
  simp [State.judgePw, ht, or_assoc]

theorem State.judgePw_mi (s : State) (who : Requester) {off : Nat} (v : Word) (tag : Nat)
    (hm : (miConfig off).isSome = true) (ht : isTopology off = false) (hc : off ≠ R.GEN_CYC_LEN) :
    s.judgePw ⟨who, off, v, tag⟩ =
      if s.anyDeblocked = true ∨ miInRange off v = false then (s.raise 0x006, none) else (s, some v) := by
  simp [State.judgePw, ht, hc, hm]

/-- A word of no condition. -/
theorem State.judgePw_plain (s : State) (who : Requester) {off : Nat} (v : Word) (tag : Nat) (ht : isTopology off = false)
    (hc : off ≠ R.GEN_CYC_LEN) (hm : miConfig off = none) (hs : sevSource off = none) :
    s.judgePw ⟨who, off, v, tag⟩ = (s, some v) := by
  simp [State.judgePw, ht, hc, hm, hs]

theorem miConfig_flt_sev (src : Fin 544) : miConfig (R.FLT_SEV src) = none := by
  have hctrl : R.FLT_SEV src ≠ R.MI_CTRL := by simp only [R.FLT_SEV, R.MI_CTRL]; omega
  have hcfg : (List.range 16).find? (fun c => R.FLT_SEV src == R.MI_CFG c) = none := by
    simp only [List.find?_eq_none, List.mem_range, beq_iff_eq, R.FLT_SEV, R.MI_CFG]
    omega
  simp [miConfig, hctrl, hcfg]

theorem sevSource_flt_sev (src : Fin 544) : sevSource (R.FLT_SEV src) = some src.val := by
  have hlt := src.isLt
  have hin : R.FLT_SEV 0 ≤ R.FLT_SEV src ∧ R.FLT_SEV src < R.FLT_SEV 0x220 ∧ R.FLT_SEV src % 4 = 0 := by
    simp only [R.FLT_SEV]; omega
  have hidx : (R.FLT_SEV src - R.FLT_SEV 0) / 4 = src.val := by simp only [R.FLT_SEV]; omega
  simp [sevSource, hin, hidx]

/-- A severity below the floor is raised to it (R321). -/
theorem State.judgePw_sev (s : State) (who : Requester) (src : Fin 544) (v : Word) (tag : Nat) :
    s.judgePw ⟨who, R.FLT_SEV src, v, tag⟩ =
      (if min 4 (bits v.toNat 0 3) < s.rd (F.FLT_SEV_FLOOR src) then s.wrB F.FLT_ERR_FLOOR true else s,
        some (BitVec.ofNat 32 (max (s.rd (F.FLT_SEV_FLOOR src)) (min 4 (bits v.toNat 0 3))))) := by
  have ht : isTopology (R.FLT_SEV src) = false := by
    have htopo : R.FLT_SEV src ≠ R.GEN_TOPO := by simp only [R.FLT_SEV, R.GEN_TOPO]; omega
    have harm : ¬ R.FLT_SEV src < R.GEN_ARM_CFG 6 := by simp only [R.FLT_SEV, R.GEN_ARM_CFG]; omega
    have hring : ¬ R.FLT_SEV src < R.GEN_RING_ARM 4 := by simp only [R.FLT_SEV, R.GEN_RING_ARM]; omega
    simp [isTopology, htopo, harm, hring]
  have hc : R.FLT_SEV src ≠ R.GEN_CYC_LEN := by simp only [R.FLT_SEV, R.GEN_CYC_LEN]; omega
  simp only [State.judgePw, ht, hc, miConfig_flt_sev, sevSource_flt_sev, Option.isSome_none, Bool.false_eq_true, if_false]
  split
  · next hlt => rw [Nat.max_eq_left (Nat.le_of_lt hlt)]
  · next hge => rw [Nat.max_eq_right (Nat.not_lt.1 hge)]

/-! The registers of this section. -/

/-- A register of the PW fields `pw` alone, whose write has no rule of its own. -/
structure PwRegister (off pw : Nat) : Prop where
  plain : plainWrite off = true
  row : ∃ r, regRow off = some r ∧ r.rw = 0 ∧ r.w1c = 0 ∧ r.lrw = 0 ∧ r.pw = pw ∧ pw ≠ 0

theorem hubWrite_of_pwRegister (s : State) (who : Requester) {off pw : Nat} (v : Word) (h : PwRegister off pw)
    (hr : s.reaches who off = true) : hubWrite who off v s = s.presentPw who off (v &&& BitVec.ofNat 32 pw) := by
  obtain ⟨r, hrow, hrw, hw1c, hlrw, rfl, hpw⟩ := h.row
  rw [hubWrite_of_plainWrite s who off v 0 hr h.plain, State.plain_of_pwRow s who off v 0 hrow hrw hw1c hlrw hpw]

theorem pwRegister_cycLen : PwRegister R.GEN_CYC_LEN 0x7FF := ⟨by decide, _, rfl, rfl, rfl, rfl, rfl, by decide⟩

theorem pwRegister_cycCtrl : PwRegister R.GEN_CYC_CTRL 0xF := ⟨by decide, _, rfl, rfl, rfl, rfl, rfl, by decide⟩

/-- `MI_CTRL`, or `MI_CFGc` of a channel. -/
def miOffset (c : Option Chan) : Nat := match c with | some c => R.MI_CFG c | none => R.MI_CTRL

theorem pwRegister_miOffset (c : Option Chan) : PwRegister (miOffset c) (if c.isSome then 0xFFF else 0xFF) := by
  cases c with
  | none => exact ⟨by decide, _, rfl, rfl, rfl, rfl, rfl, by decide⟩
  | some c =>
    have h : ∀ c : Fin 16, plainWrite (R.MI_CFG c) = true ∧
        regRow (R.MI_CFG c) = some ⟨0x40100, [(0x40, 16)], 0, 0, 0, 0, 0xFFF, 0, 0xFFF⟩ := by decide
    exact ⟨(h c).1, _, (h c).2, rfl, rfl, rfl, rfl, (by decide : 0xFFF ≠ 0)⟩

/-- A measurement register is judged by R103 alone. -/
theorem miOffset_judged (c : Option Chan) : (miConfig (miOffset c)).isSome = true ∧ isTopology (miOffset c) = false ∧
    miOffset c ≠ R.GEN_CYC_LEN := by
  cases c with
  | none => decide
  | some c => exact (by decide : ∀ c : Fin 16, (miConfig (R.MI_CFG c)).isSome = true ∧ isTopology (R.MI_CFG c) = false ∧
      R.MI_CFG c ≠ R.GEN_CYC_LEN) c

theorem quietReg_miOffset (c : Option Chan) : quietReg (miOffset c) := by
  cases c with
  | none => simp [quietReg, miOffset, R.MI_CTRL]
  | some c => simp only [quietReg, miOffset, R.MI_CFG]; omega

theorem RegRow.has_single (off b rst rw rc w1c pw lrw rd : Nat) :
    RegRow.has ⟨b, [], rst, rw, rc, w1c, pw, lrw, rd⟩ off = true ↔ off = b := by
  simp only [RegRow.has, inDims, Bool.and_eq_true, decide_eq_true_eq, beq_iff_eq]
  omega

theorem RegRow.has_array (off b st n rst rw rc w1c pw lrw rd : Nat) :
    RegRow.has ⟨b, [(st, n)], rst, rw, rc, w1c, pw, lrw, rd⟩ off = true ↔
      b ≤ off ∧ (off - b) / st < n ∧ (off - b) % st = 0 := by
  simp only [RegRow.has, inDims, Bool.and_eq_true, decide_eq_true_eq, beq_iff_eq]

theorem regRow_flt_sev (src : Fin 544) :
    regRow (R.FLT_SEV src) = some ⟨0x3C1000, [(0x4, 544)], 0, 0, 0xFFFF0000, 0, 0x7, 0, 0xFFFF0F77⟩ := by
  have hlt := src.isLt
  have hoff : R.FLT_SEV src = 0x3C1000 + 4 * src.val := rfl
  generalize R.FLT_SEV src = off at hoff
  have hrows : blockRows off = rowsFlt := by simp [blockRows, show off / 0x10000 = 0x3C by omega]
  rw [regRow, hrows, List.find?_eq_some_iff_append]
  refine ⟨(RegRow.has_array ..).2 ?_, rowsFlt.take 8, rowsFlt.drop 9, rfl, ?_⟩
  · omega
  · simp only [rowsFlt, List.take_succ_cons, List.take_zero, List.forall_mem_cons, Bool.not_eq_true', ← Bool.not_eq_true,
      RegRow.has_single, RegRow.has_array]
    refine ⟨?_, ?_, ?_, ?_, ?_, ?_, ?_, ?_, by simp⟩ <;> omega

/-- A severity that is the hub's own goes through the port (R321, R343). -/
theorem State.sevWrite_of_hub (s : State) (who : Requester) (src : Fin 544) (v : Word) (h : srcSafety src = false) :
    s.sevWrite who src v 0 = s.presentPw who (R.FLT_SEV src) (v &&& BitVec.ofNat 32 0x7) := by
  rw [State.sevWrite, h, if_neg Bool.false_ne_true,
    State.plain_of_pwRow _ _ _ _ _ (regRow_flt_sev src) rfl rfl rfl (by decide)]

theorem State.sevWrite_of_safety (s : State) (who : Requester) (src : Nat) (v : Word) (h : srcSafety src = true) :
    s.sevWrite who src v 0 = s.raise 0x00F := by
  rw [State.sevWrite, h, if_pos rfl]

/-! The command's outcome. -/

section Port

variable {s : State} {who : Requester} {off : Nat} {val : Word} {t : Time} {f : State → State}

/-- A command that presents a word which the bank accepts at the free port: the word's commit runs. -/
theorem State.onHubAt_accepted {x : State} {v : Word} (held : s.pwr.held = false) (port : s.PortFree)
    (ro : s.readOnly (prbBlockOf off) = false) (hf : f (s.advance t) = (s.advance t).presentPw who off val)
    (hj : (s.advance t).portTaken.judgePw ⟨who, off, val, 0⟩ = (x, some v)) :
    (s.onHubAt t f).prb.busy = some ⟨who, off, v, 0⟩ ∧ ∀ o, (s.onHubAt t f).reg o = x.reg o := by
  have ro' : (s.advance t).readOnly (prbBlockOf off) = false := by rw [State.readOnly_advance, ro]
  rw [State.onHubAt_awake s t f held, State.onChip, hf, State.presentPw_accepted (port.advance t) ro' hj]
  exact ⟨rfl, fun _ => rfl⟩

/-- A command that presents a word which the bank ignores with source `src`. -/
theorem State.onHubAt_ignored {src : Nat} (held : s.pwr.held = false) (port : s.PortFree)
    (ro : s.readOnly (prbBlockOf off) = false) (hf : f (s.advance t) = (s.advance t).presentPw who off val)
    (hj : (s.advance t).portTaken.judgePw ⟨who, off, val, 0⟩ = ((s.advance t).portTaken.raise src, none))
    (hsrc : (srcInfo src).isSome = true) :
    (s.onHubAt t f).prb.busy = none ∧ (s.onHubAt t f).latchBit src = true ∧
      ∀ o, quietReg o → (s.onHubAt t f).reg o = s.reg o := by
  have ro' : (s.advance t).readOnly (prbBlockOf off) = false := by rw [State.readOnly_advance, ro]
  have keeps := RaiseKeeps.raise0 (s.advance t).portTaken src
  rw [State.onHubAt_awake s t f held, State.onChip, hf, State.presentPw_ignored (port.advance t) ro' hj]
  refine ⟨?_, State.latched_raise _ _ _ _ (by simp) hsrc, fun o ho => ?_⟩
  · exact (congrArg PrbSt.busy keeps.prb).trans (port.advance t).busy
  · exact (keeps.reg o ho).trans (State.reg_advance s t o)

end Port

theorem bits_and_mask (v : Word) (w : Nat) (h : w ≤ 32) :
    bits (v &&& BitVec.ofNat 32 (2 ^ w - 1)).toNat 0 w = bits v.toNat 0 w := by
  have hm : (2 ^ w - 1) % 2 ^ 32 = 2 ^ w - 1 := by
    have := Nat.pow_le_pow_right (n := 2) (by decide) h
    have := Nat.two_pow_pos w
    omega
  rw [BitVec.toNat_and, BitVec.toNat_ofNat, hm, Nat.and_two_pow_sub_one_eq_mod]
  simp [bits]

/-- Settles O9: a word is judged when its commit starts, which at a free port is at once. -/
theorem conditionedWordsAreJudged : Obligations.ConditionedWordsAreJudged := by
  refine ⟨fun s who v t held hr port ro => ?_, fun s who v t held hr port ro => ?_,
    fun s who c v t off r held hoff hrow hr port ro => ?_, fun s who src v t held port ro => ?_⟩
  · have hf := hubWrite_of_pwRegister (s.advance t) who v pwRegister_cycLen hr
    have hj := State.judgePw_cycLen (s.advance t).portTaken who (v &&& BitVec.ofNat 32 (2 ^ 11 - 1)) 0
    rw [State.portTaken_any, State.anyDeblocked_advance, bits_and_mask v 11 (by decide)] at hj
    refine ⟨_, rfl, fun ⟨hd, hlo, hhi⟩ => ?_, fun hbad => ?_⟩
    · rw [if_neg (by simp [hd]; omega)] at hj
      obtain ⟨busy, regs⟩ := State.onHubAt_accepted (f := hubWrite who R.GEN_CYC_LEN v) held port ro hf hj
      exact ⟨busy, fun o _ => (regs o).trans (State.reg_advance s t o)⟩
    · rw [if_pos hbad] at hj
      obtain ⟨busy, latch, regs⟩ := State.onHubAt_ignored (f := hubWrite who R.GEN_CYC_LEN v) held port ro hf hj (by decide)
      exact ⟨busy, latch, regs _ (by simp [quietReg, R.GEN_CYC_LEN])⟩
  · have hf := hubWrite_of_pwRegister (s.advance t) who v pwRegister_cycCtrl hr
    have hj := State.judgePw_plain (s.advance t).portTaken who (v &&& 0xF) 0 (off := R.GEN_CYC_CTRL) (by decide) (by decide)
      (by decide) (by decide)
    obtain ⟨busy, regs⟩ := State.onHubAt_accepted (f := hubWrite who R.GEN_CYC_CTRL v) held port ro hf hj
    exact ⟨_, rfl, busy, fun o => (regs o).trans (State.reg_advance s t o)⟩
  · obtain rfl : off = miOffset c := hoff
    have hp := pwRegister_miOffset c
    obtain ⟨r', hrow', -, -, -, hpw, -⟩ := hp.row
    obtain rfl : r' = r := Option.some.inj (hrow'.symm.trans hrow)
    obtain ⟨hm, ht, hc⟩ := miOffset_judged c
    have hf := hubWrite_of_pwRegister (s.advance t) who v hp hr
    rw [← hpw] at hf
    have hj := State.judgePw_mi (s.advance t).portTaken who (v &&& BitVec.ofNat 32 r'.pw) 0 hm ht hc
    rw [State.portTaken_any, State.anyDeblocked_advance] at hj
    refine ⟨_, rfl, fun ⟨hd, hin⟩ => ?_, fun hbad => ?_⟩
    · rw [if_neg (by simp [hd, hin])] at hj
      obtain ⟨busy, regs⟩ := State.onHubAt_accepted (f := hubWrite who (miOffset c) v) held port ro hf hj
      exact ⟨busy, fun o _ => (regs o).trans (State.reg_advance s t o)⟩
    · rw [if_pos hbad] at hj
      obtain ⟨busy, latch, regs⟩ := State.onHubAt_ignored (f := hubWrite who (miOffset c) v) held port ro hf hj (by decide)
      exact ⟨busy, latch, regs _ (quietReg_miOffset c)⟩
  · refine ⟨_, rfl, fun hsafe => ?_, fun hsafe => ?_⟩
    · have hf := State.sevWrite_of_hub (s.advance t) who src v hsafe
      have hj := State.judgePw_sev (s.advance t).portTaken who src (v &&& BitVec.ofNat 32 (2 ^ 3 - 1)) 0
      rw [bits_and_mask v 3 (by decide), State.portTaken_rd, State.rd_advance] at hj
      obtain ⟨busy, regs⟩ := State.onHubAt_accepted (f := fun s => s.sevWrite who src v 0) held port ro hf hj
      have hlow : bits v.toNat 0 3 = v.toNat % 8 := by simp [bits]
      rw [hlow] at busy regs
      refine ⟨busy, fun hlt => ?_⟩
      rw [if_pos hlt] at regs
      exact (State.rdB_congr (regs _)).trans (State.rdB_wrB_same _ _ true (by decide) (by decide))
    · rw [State.onHubAt_awake s t _ held, State.onChip]
      dsimp only
      rw [State.sevWrite_of_safety _ who src v hsafe]
      exact ⟨State.latched_raise _ _ _ _ (by simp) (by decide), (RaiseKeeps.raise0 _ _).prb.trans (State.advance_prb s t)⟩

end Sys2Proof.Machine
end

section
/-!
PROOFS. What a raise leaves of the stack's state (R326, R389): of all that the hub holds of the Titajor ring a raise changes
the two transmit queues alone.
-/

namespace Sys2Proof.Machine

/-! What leaves the stack's state alone. -/

theorem State.stk_foldl {α : Type} (f : State → α → State) (l : List α) (h : ∀ s x, (f s x).stk = s.stk) (s : State) :
    (l.foldl f s).stk = s.stk := by
  induction l generalizing s with
  | nil => rfl
  | cons x l ih => exact (ih _).trans (h s x)

/-- A fold that carries something beside the state. -/
theorem State.stk_foldl_fst {α β : Type} (f : State × β → α → State × β) (l : List α)
    (h : ∀ r x, (f r x).1.stk = r.1.stk) (r : State × β) : (l.foldl f r).1.stk = r.1.stk := by
  induction l generalizing r with
  | nil => rfl
  | cons x l ih => exact (ih _).trans (h r x)

theorem State.stk_withRecd (s : State) (x : RecSt) : ({ s with recd := x } : State).stk = s.stk := rfl

@[simp] theorem State.makeReady_stk (s : State) (t : Nat) : (s.makeReady t).stk = s.stk := by
  rw [State.makeReady, State.setThrState_stk, State.setThr_stk]

@[simp] theorem State.condWins_stk (s : State) (t : Nat) : (s.condWins t).stk = s.stk := by
  rw [State.condWins, State.wr_stk, State.wrB_stk, State.setThr_stk]

@[simp] theorem State.wakeQueue_stk (s : State) (q : Nat) : (s.wakeQueue q).stk = s.stk :=
  (State.stk_foldl (fun s (p : Nat × Thr) => s.makeReady p.1) _ (fun s p => s.makeReady_stk p.1) _).trans
    (State.stk_foldl (fun s (p : Nat × Thr) => s.condWins p.1) _ (fun s p => s.condWins_stk p.1) s)

@[simp] theorem State.iqPush_stk (s : State) (q item : Nat) : (s.iqPush q item).1.stk = s.stk := by
  simp only [State.iqPush]
  split <;> simp

@[simp] theorem State.msix_stk (s : State) (v : Nat) : (s.msix v).stk = s.stk := by
  simp only [State.msix]
  split <;> simp

@[simp] theorem State.hqErr_stk (s : State) (f : Fld) : (s.hqErr f).stk = s.stk := by
  simp only [State.hqErr, State.errVec]
  split <;> simp

@[simp] theorem State.ringSignal_stk (s : State) (n : Nat) : (s.ringSignal n).stk = s.stk := by
  simp only [State.ringSignal]
  split
  · split <;> simp
  · rfl

@[simp] theorem State.consume_stk (s : State) (n : Nat) : (s.consume n).stk = s.stk := by
  simp only [State.consume]
  split <;> simp

@[simp] theorem State.ringWrite_stk (s : State) (n e : Nat) : (s.ringWrite n e).stk = s.stk := by
  rw [State.ringWrite, State.ringSignal_stk, State.consume_stk, State.ringStore]

@[simp] theorem State.loseEvent_stk (s : State) (n : Nat) (h : HostRing) (sq : Nat) : (s.loseEvent n h sq).stk = s.stk := by
  rw [State.loseEvent, State.hqErr_stk, State.incSat_stk, State.setHring_stk]

@[simp] theorem State.pushEvent_stk (s : State) (n : Nat) (hall : Time) (body : Nat) :
    (s.pushEvent n hall body).1.stk = s.stk := by
  simp only [State.pushEvent, State.placeEvent]
  split
  · simp
  · split
    · split <;> simp
    · simp

@[simp] theorem State.noteRaise_stk (s : State) (src sev : Nat) (cell : Option Nat) :
    (s.noteRaise src sev cell).stk = s.stk := by
  simp only [State.noteRaise]
  split <;> simp

@[simp] theorem State.noteCell_stk (s : State) (src scope : Nat) (cell : Option Nat) :
    (s.noteCell src scope cell).stk = s.stk := by
  unfold State.noteCell
  split
  · split <;> simp
  · rfl

@[simp] theorem State.toQueues_stk (s : State) (src item : Nat) : (s.toQueues src item).1.stk = s.stk := by
  refine State.stk_foldl_fst _ (List.range 4) (fun r n => ?_) (s, [])
  dsimp only
  split <;> simp

@[simp] theorem State.toEvents_stk (s : State) (src sev item : Nat) : (s.toEvents src sev item).1.stk = s.stk := by
  unfold State.toEvents
  split <;> simp

@[simp] theorem State.setSeg_stk (s : State) (j : Nat) (g : Segment) : (s.setSeg j g).stk = s.stk := rfl

@[simp] theorem State.trigLost_stk (s : State) (cyc : Nat) (err : Bool) : (s.trigLost cyc err).1.stk = s.stk := by
  rw [State.trigLost]
  split
  · rw [State.wrB_stk, State.stk_withRecd, State.count_stk, State.incSat_stk]
  · rw [State.stk_withRecd, State.count_stk, State.incSat_stk]

@[simp] theorem State.segTrigger_stk (s : State) (src cyc : Nat) (hall : Time) :
    (s.segTrigger src cyc hall).1.stk = s.stk := by
  simp only [State.segTrigger]
  repeat' split
  all_goals simp

@[simp] theorem State.fireOne_stk (s : State) (src : Nat) (hall : Time) : (s.fireOne src hall).1.stk = s.stk := by
  simp only [State.fireOne]
  split
  · rfl
  · split <;> simp

@[simp] theorem State.driveLine_stk (s : State) (l : Nat) : (s.driveLine l).stk = s.stk := by
  have h : (s.pulseLine l).stk = s.stk := State.stk_withRecd s _
  simp only [State.driveLine]
  split
  · exact h
  · exact (State.stk_withRecd _ _).trans h

@[simp] theorem State.fire_stk (s : State) (src : Nat) (hall : Time) : (s.fire src hall).1.stk = s.stk := by
  unfold State.fire
  extract_lets part dup r
  split
  · simp [r]
  · refine (State.stk_foldl_fst _ _ (fun r l => ?_) _).trans (State.fireOne_stk s src hall)
    dsimp only
    split <;> simp

@[simp] theorem State.toRecorder_stk (s : State) (src sev : Nat) : (s.toRecorder src sev).1.stk = s.stk := by
  unfold State.toRecorder
  split <;> simp

/-! What sends. -/

/-- From `s` to `u` nothing of the stack's state has changed but the two transmit queues. -/
def State.OnlySends (s u : State) : Prop := ∃ a b, u.stk = { s.stk with txA := a, txB := b }

namespace State.OnlySends

theorem of_stk {s u : State} (h : u.stk = s.stk) : s.OnlySends u := ⟨s.stk.txA, s.stk.txB, h⟩

theorem refl (s : State) : s.OnlySends s := of_stk rfl

theorem trans {s t u : State} (h : s.OnlySends t) (k : t.OnlySends u) : s.OnlySends u := by
  obtain ⟨_, _, ht⟩ := h
  obtain ⟨a, b, hu⟩ := k
  exact ⟨a, b, by rw [hu, ht]⟩

theorem foldl {α : Type} (f : State → α → State) (l : List α) (h : ∀ (s : State) x, s.OnlySends (f s x)) (s : State) :
    s.OnlySends (l.foldl f s) := by
  induction l generalizing s with
  | nil => exact refl s
  | cons x l ih => exact (h s x).trans (ih _)

section Fields

variable {s u : State} (h : s.OnlySends u)
include h

theorem hubs : u.stk.hubs = s.stk.hubs := by obtain ⟨_, _, e⟩ := h; rw [e]
theorem change : u.stk.change = s.stk.change := by obtain ⟨_, _, e⟩ := h; rw [e]
theorem dupAt : u.stk.dupAt = s.stk.dupAt := by obtain ⟨_, _, e⟩ := h; rw [e]
theorem lenBad : u.stk.lenBad = s.stk.lenBad := by obtain ⟨_, _, e⟩ := h; rw [e]
theorem hub (d : Nat) : u.hub d = s.hub d := by rw [State.hub, State.hub, h.hubs]

end Fields

/-! Messages. -/

theorem defer (s : State) (i n : Nat) : s.OnlySends (s.defer i n) := by
  unfold State.defer
  split
  · exact refl s
  · exact of_stk (by simp)

theorem titSend (s : State) (m : TitMsg) : s.OnlySends (s.titSend m) := by
  unfold State.titSend
  extract_lets r x s1
  have h : s.OnlySends s1 := by
    show ∃ a b, (if m.ringB then { s.stk with txB := r.1 } else { s.stk with txA := r.1 }) = { s.stk with txA := a, txB := b }
    split
    · exact ⟨s.stk.txA, r.1, rfl⟩
    · exact ⟨r.1, s.stk.txB, rfl⟩
  split
  · exact h.trans (defer _ _ _)
  · exact h

theorem stkSend (s : State) (dst : Nat) (b : TitBody) : s.OnlySends (s.stkSend dst b) := by
  unfold State.stkSend
  split
  · exact (titSend _ _).trans (titSend _ _)
  · exact titSend _ _

/-! The reaction, and the raise. -/

theorem reactHall (s : State) (sev : Nat) : s.OnlySends (s.reactHall sev) := by
  unfold State.reactHall
  extract_lets s1
  have h : s.OnlySends s1 := by
    show s.OnlySends (if _ then _ else if _ then _ else _)
    split
    · exact stkSend _ _ _
    · split
      · exact stkSend _ _ _
      · exact refl s
  split
  · exact h.trans (of_stk (State.wrB_stk _ _ _))
  · exact h

theorem react (s : State) (src sev : Nat) (cell : Option Nat) : s.OnlySends (s.react src sev cell) := by
  have hold : (s.reactHold src sev cell).stk = s.stk := by
    simp only [State.reactHold]
    split <;> rfl
  have hcell (t : State) (c : Nat) : (t.reactCell src sev c).stk = t.stk := by
    simp only [State.reactCell]
    split <;> simp
  have show_ (t : State) (arms : Nat) : (t.reactShow sev arms).stk = t.stk := by
    simp only [State.reactShow]
    split <;> simp
  unfold State.react
  refine OnlySends.trans ?_ ((reactHall _ _).trans (of_stk (show_ _ _)))
  split
  · split
    · exact of_stk ((hcell _ _).trans hold)
    · exact of_stk hold
  · exact of_stk hold

theorem raise1 (s : State) (src : Nat) (cell : Option Nat) (code : Nat) : s.OnlySends (s.raise1 src cell code).1 := by
  unfold State.raise1
  split
  · exact refl s
  · next i _ =>
    extract_lets sev item q e r
    have he : s.OnlySends (e.1.count (0x010 + sev)) := of_stk (by simp [e, q])
    exact (he.trans (react _ _ _ _)).trans (of_stk (State.toRecorder_stk _ _ _))

theorem raiseAll (fuel : Nat) (s : State) (l : List Nat) : s.OnlySends (State.raiseAll fuel s l) := by
  induction fuel generalizing s l with
  | zero => exact refl s
  | succ f ih => exact foldl _ _ (fun s src => (raise1 s src none 0).trans (ih _ _)) s

/-- A raise changes the transmit queues at most. -/
theorem raise (s : State) (src : Nat) (cell : Option Nat := none) (code : Nat := 0) :
    s.OnlySends (s.raise src cell code) := (raise1 s src cell code).trans (raiseAll _ _ _)

theorem live (s : State) (src : Nat) (on : Bool) (cell : Option Nat := none) : s.OnlySends (s.live src on cell) := by
  unfold State.live
  extract_lets f was s1
  have h : s.OnlySends s1 := of_stk (State.wrB_stk _ _ _)
  split
  · exact h.trans (raise _ _ _)
  · exact h

end State.OnlySends

end Sys2Proof.Machine
end

section
/-!
PROOFS. Sending on the Titajor ring (R389): the message stands in the transmit queue of its ring, and of the registers only
the count of deferred messages may rise.
-/

namespace Sys2Proof.Machine

@[simp] theorem State.defer_flt (s : State) (i n : Nat) : (s.defer i n).flt = s.flt := by
  unfold State.defer
  split <;> simp

@[simp] theorem State.defer_saf (s : State) (i n : Nat) : (s.defer i n).saf = s.saf := by
  unfold State.defer
  split <;> simp

@[simp] theorem State.defer_stk (s : State) (i n : Nat) : (s.defer i n).stk = s.stk := by
  unfold State.defer
  split <;> simp

theorem State.reg_defer (s : State) (i n : Nat) {o : Nat} (h : o ≠ R.GEN_CONT i) : (s.defer i n).reg o = s.reg o := by
  unfold State.defer
  split
  · rfl
  · rw [State.reg_count]
    exact State.reg_wr_other _ _ _ _ h

/-! One message. -/

@[simp] theorem State.titSend_flt (s : State) (m : TitMsg) : (s.titSend m).flt = s.flt := by
  unfold State.titSend
  extract_lets r x s1
  split
  · exact State.defer_flt s1 5 1
  · rfl

@[simp] theorem State.titSend_saf (s : State) (m : TitMsg) : (s.titSend m).saf = s.saf := by
  unfold State.titSend
  extract_lets r x s1
  split
  · exact State.defer_saf s1 5 1
  · rfl

theorem State.reg_titSend (s : State) (m : TitMsg) {o : Nat} (h : o ≠ R.GEN_CONT 5) : (s.titSend m).reg o = s.reg o := by
  unfold State.titSend
  extract_lets r x s1
  split
  · exact State.reg_defer s1 5 1 h
  · rfl

/-- What a message's queue is after it has been sent. -/
theorem State.titMsgs_titSend (s : State) (m : TitMsg) (b : Bool) :
    (s.titSend m).titMsgs b = if b = m.ringB
      then (titQueue s.hubId s.clk.now (if m.ringB then s.stk.txB else s.stk.txA) m).1.map Prod.snd else s.titMsgs b := by
  have h : (s.titSend m).stk = if m.ringB
      then { s.stk with txB := (titQueue s.hubId s.clk.now (if m.ringB then s.stk.txB else s.stk.txA) m).1 }
      else { s.stk with txA := (titQueue s.hubId s.clk.now (if m.ringB then s.stk.txB else s.stk.txA) m).1 } := by
    unfold State.titSend
    extract_lets r x s1
    split
    · exact State.defer_stk s1 5 1
    · rfl
  unfold State.titMsgs
  rw [h]
  cases b <;> cases m.ringB <;> rfl

/-- A message that is sent stands in the queue, with the residence that it takes up. -/
theorem titQueue_mem (hub : Nat) (now : Time) (l : List (Time × TitMsg)) (m : TitMsg) :
    ∃ d, titAfter m (m.src == hub) d ∈ (titQueue hub now l m).1.map Prod.snd := by
  unfold titQueue
  extract_lets sent wait start ahead order put
  have hm : (now, m) ∈ order := by simp [order]
  obtain ⟨i, hi, he⟩ := List.mem_iff_getElem.1 hm
  refine ⟨start + titSlot * i - now, List.mem_map.2 ⟨put i (now, m), ?_, rfl⟩⟩
  refine List.mem_append_right _ (List.mem_iff_getElem.2 ⟨i, by simpa using hi, ?_⟩)
  rw [List.getElem_mapIdx, he]

theorem State.titSend_mem (s : State) (m : TitMsg) :
    ∃ d, titAfter m (m.src == s.hubId) d ∈ (s.titSend m).titMsgs m.ringB := by
  rw [State.titMsgs_titSend, if_pos rfl]
  exact titQueue_mem _ _ _ _

/-- A message of no residence stands in the queue as it is. -/
theorem State.titSend_mem_self (s : State) {m : TitMsg} (h : ∀ own d, titAfter m own d = m) :
    m ∈ (s.titSend m).titMsgs m.ringB := by
  obtain ⟨d, hd⟩ := s.titSend_mem m
  rwa [h] at hd

/-! A message on both rings. -/

theorem State.titSend_both_mem (s : State) (m : Bool → TitMsg) (hr : ∀ b, (m b).ringB = b)
    (ht : ∀ b own d, titAfter (m b) own d = m b) (b : Bool) : m b ∈ ((s.titSend (m false)).titSend (m true)).titMsgs b := by
  cases b with
  | false =>
    have h := s.titSend_mem_self (ht false)
    rw [hr] at h
    rwa [State.titMsgs_titSend, hr, if_neg (by decide)]
  | true =>
    have h := (s.titSend (m false)).titSend_mem_self (ht true)
    rwa [hr] at h

@[simp] theorem State.resend_flt (s : State) (d cyc : Nat) (b : TitBody) : (s.resend d cyc b).flt = s.flt := by
  rw [State.resend, State.titSend_flt, State.titSend_flt]

@[simp] theorem State.resend_saf (s : State) (d cyc : Nat) (b : TitBody) : (s.resend d cyc b).saf = s.saf := by
  rw [State.resend, State.titSend_saf, State.titSend_saf]

theorem State.reg_resend (s : State) (d cyc : Nat) (b : TitBody) {o : Nat} (h : o ≠ R.GEN_CONT 5) :
    (s.resend d cyc b).reg o = s.reg o := by
  rw [State.resend, State.reg_titSend _ _ h, State.reg_titSend _ _ h]

theorem State.reg_stkSend (s : State) (dst : Nat) (b : TitBody) {o : Nat} (h : o ≠ R.GEN_CONT 5) :
    (s.stkSend dst b).reg o = s.reg o := by
  unfold State.stkSend
  extract_lets m
  split
  · rw [State.reg_titSend _ _ h, State.reg_titSend _ _ h]
  · rw [State.reg_titSend _ _ h]

/-- A message of the hub's own to all hubs stands in both queues. -/
theorem State.stkSend_all_mem (s : State) (body : TitBody)
    (ht : ∀ b own d, titAfter ⟨s.hubId, 0x1F, 15, b, s.cyc, body⟩ own d = ⟨s.hubId, 0x1F, 15, b, s.cyc, body⟩) (b : Bool) :
    (⟨s.hubId, 0x1F, 15, b, s.cyc, body⟩ : TitMsg) ∈ (s.stkSend 0x1F body).titMsgs b :=
  s.titSend_both_mem (fun b => ⟨s.hubId, 0x1F, 15, b, s.cyc, body⟩) (fun _ => rfl) ht b

/-- HEARTBEAT_SEND: the own heartbeat leaves on both rings (R392). -/
theorem heartbeatSend_sends (s : State) : ∃ h : Heartbeat,
    (∀ b : Bool, (⟨s.hubId, 0x1F, 15, b, s.cyc, .heartbeat h⟩ : TitMsg) ∈ (heartbeatSend s).titMsgs b) ∧
    h.role = s.redSt ∧ h.active = s.rdB F.GEN_TOPO_ACTIVE ∧ h.healthy = s.healthy ∧ h.epoch = s.rd F.STK_EPOCH_EPOCH ∧
    (heartbeatSend s).recd.tbus = [] ∧ ∀ o, o ≠ R.GEN_CONT 5 → (heartbeatSend s).reg o = s.reg o := by
  obtain ⟨c, hc⟩ := State.advanceHall_eq s (s.clk.tkHall + ns 100)
  let s1 : State := { s with clk := c }
  let h := s1.ownHeartbeat (fun t => (s1.clk.now - t) / 65536)
  have hsend : heartbeatSend s =
      { s1.stkSend 0x1F (.heartbeat h) with recd := { (s1.stkSend 0x1F (.heartbeat h)).recd with tbus := [] } } := by
    simp only [heartbeatSend, hc, s1, h]
  rw [hsend]
  exact ⟨h, s1.stkSend_all_mem _ (fun _ _ _ => rfl), rfl, rfl, rfl, rfl, rfl, fun o ho => s1.reg_stkSend _ _ ho⟩

end Sys2Proof.Machine
end

section
/-!
PROOFS. Presence of the hubs (R368, R392, R393): a hub's record as its heartbeat leaves it, through what the heartbeat brings
about, and its bit in `STK_HUBS`.
-/

namespace Sys2Proof.Machine

/-! Lists of bits. -/

theorem add_two_pow_eq_setBits (v i : Nat) (h : bitOf v i = false) : v + 2 ^ i = setBits v i 1 1 := by
  have h0 : v / 2 ^ i % 2 = 0 := by
    have h1 : v / 2 ^ i % 2 ≠ 1 := of_decide_eq_false h
    omega
  have hv := Nat.div_add_mod' v (2 ^ (i + 1))
  rw [Nat.mod_pow_succ, h0] at hv
  simp only [setBits]
  omega

/-- The bits of a number made of a list are those that stand in the list. -/
theorem testBit_ofBits (l : List Nat) (j : Nat) : (ofBits l).testBit j = l.contains j := by
  have step (v i : Nat) : (if bitOf v i then v else v + 2 ^ i).testBit j = (v.testBit j || j == i) := by
    have hv : bitOf v i = v.testBit i := by simp [bitOf, Nat.testBit_eq_decide_div_mod_eq]
    split
    · next h => by_cases hj : j = i <;> simp_all
    · next h =>
      rw [add_two_pow_eq_setBits v i (Bool.eq_false_iff.2 h), testBit_setBits]
      by_cases hj : j = i
      · subst hj; simp
      · rw [if_neg (by omega)]; simp [hj]
  have fold (v : Nat) :
      (l.foldl (fun v i => if bitOf v i then v else v + 2 ^ i) v).testBit j = (v.testBit j || l.contains j) := by
    induction l generalizing v with
    | nil => simp
    | cons i l ih => rw [List.foldl_cons, ih, step, List.contains_cons, Bool.or_assoc]
  rw [ofBits, fold, Nat.zero_testBit, Bool.false_or]

/-! Records of the hubs. -/

theorem State.hub_congr {s u : State} (h : u.stk.hubs = s.stk.hubs) (d : Nat) : u.hub d = s.hub d := by
  rw [State.hub, State.hub, h]

@[simp] theorem State.hub_setHub (s : State) (d : Nat) (h : HubRec) : (s.setHub d h).hub d = h :=
  Store.get_put_same _ _ _ _

/-- From `s` to `u` the hubs' records have not changed. -/
def State.KeepsHubs (s u : State) : Prop := u.stk.hubs = s.stk.hubs

namespace State.KeepsHubs

theorem refl (s : State) : s.KeepsHubs s := rfl

theorem trans {s t u : State} (h : s.KeepsHubs t) (k : t.KeepsHubs u) : s.KeepsHubs u := Eq.trans k h

theorem of_stk {s u : State} (h : u.stk = s.stk) : s.KeepsHubs u := congrArg StkSt.hubs h

theorem wr (s : State) (f : Fld) (v : Nat) : s.KeepsHubs (s.wr f v) := of_stk (State.wr_stk s f v)

theorem wrB (s : State) (f : Fld) (b : Bool) : s.KeepsHubs (s.wrB f b) := of_stk (State.wrB_stk s f b)

theorem withFlt (s : State) (x : FltSt) : s.KeepsHubs { s with flt := x } := of_stk rfl

theorem withStk (s t : State) (x : StkSt) (h : x.hubs = s.stk.hubs) : s.KeepsHubs { t with stk := x } := h

theorem ite {s t u : State} {p : Prop} [Decidable p] (h : p → s.KeepsHubs t) (k : ¬ p → s.KeepsHubs u) :
    s.KeepsHubs (if p then t else u) := by
  split
  · next hp => exact h hp
  · next hp => exact k hp

theorem holdBlock (s : State) (d : Nat) (fresh : Bool) : s.KeepsHubs (s.holdBlock d fresh) :=
  (withFlt s _).trans (wrB _ _ _)

theorem live (s : State) (src : Nat) (on : Bool) : s.KeepsHubs (s.live src on) := (OnlySends.live s src on none).hubs

theorem setRed (s : State) (st : Nat) : s.KeepsHubs (s.setRed st) :=
  (((wr s _ _).trans (wrB _ _ _)).trans (withStk _ _ _ (by rfl))).trans (live _ _ _)

theorem partnerBeat (s : State) (d : Nat) (old hb : Heartbeat) : s.KeepsHubs (s.partnerBeat d old hb) := by
  unfold State.partnerBeat
  refine ite (fun _ => refl s) fun _ => ?_
  extract_lets x _ s1 _ s2
  have h1 : s.KeepsHubs s1 := ite (fun _ => withStk s s _ rfl) (fun _ => refl s)
  have h2 : s1.KeepsHubs s2 := ite (fun _ => withStk s1 s1 _ rfl) (fun _ => refl s1)
  exact (h1.trans h2).trans (ite (fun _ => setRed _ _) (fun _ => refl _))

theorem busLines (s : State) (d : Nat) (h : Heartbeat) : s.KeepsHubs (s.busLines d h) := by
  unfold State.busLines
  extract_lets at_ lines r
  have hr : r.1.stk = s.stk := by
    refine State.stk_foldl_fst _ _ (fun r j => ?_) (s, [])
    exact (State.fireOne_stk _ _ _).trans (State.stk_withRecd _ _)
  exact (of_stk hr).trans (OnlySends.raiseAll _ _ _).hubs

theorem takeOver (s : State) (kf : Nat) (revert : Bool) : s.KeepsHubs (s.takeOver kf revert) :=
  ite (fun _ => (setRed s 3).trans (withStk _ _ _ rfl)) (fun _ => withStk s _ _ rfl)

theorem takeCheck (s : State) (k : Nat) : s.KeepsHubs (s.takeCheck k) :=
  ite (fun _ => refl s) (fun _ => ite (fun _ => takeOver _ _ _) (fun _ => ite (fun _ => takeOver _ _ _) (fun _ => refl s)))

end State.KeepsHubs

/-! `STK_HUBS` (R392). -/

theorem State.rd_withStk (s : State) (x : StkSt) (f : Fld) : ({ s with stk := x } : State).rd f = s.rd f := rfl

/-- The presence that `STK_HUBS` shows: the hub itself, and every hub whose heartbeat has come. -/
theorem State.showHubs_spec (s : State) : s.KeepsHubs s.showHubs ∧
    ∀ d < 16, s.showHubs.getBit F.STK_HUBS_PRESENT d = (d == s.hubId || (s.hub d).present) := by
  unfold State.showHubs
  extract_lets me pres set others recent s1 s2 s3 s4 lost s5 _ _
  have hubs : s.KeepsHubs s5 := ((((((KeepsHubs.wr s _ _).trans (.wr _ _ _)).trans (.wr _ _ _)).trans (.wrB _ _ _)).trans
    (.wrB _ _ _)).trans (.live s4 _ _) : s.KeepsHubs s5)
  have shown : s4.rd F.STK_HUBS_PRESENT = ofBits set % 2 ^ 16 := by
    have h1 : s1.rd F.STK_HUBS_PRESENT = ofBits set % 2 ^ 16 :=
      (State.rd_wr_reg _ _ _ _ (by decide)).trans (State.rd_wr_same _ _ _ (by decide))
    have h2 : s2.rd F.STK_HUBS_PRESENT = s1.rd F.STK_HUBS_PRESENT := State.rd_wr_fld _ _ _ _ (by decide) (by decide)
    have h4 : s4.rd F.STK_HUBS_PRESENT = s2.rd F.STK_HUBS_PRESENT :=
      (State.rd_wr_reg _ _ _ _ (by decide)).trans (State.rd_wr_reg _ _ _ _ (by decide))
    rw [h4, h2, h1]
  have shown5 : s5.rd F.STK_HUBS_PRESENT = ofBits set % 2 ^ 16 :=
    (State.rd_live _ _ _ _ (by simp [quietReg, F.STK_HUBS_PRESENT]) (by decide) (by decide)).trans shown
  have bit (v : Nat) (hv : v = ofBits set % 2 ^ 16) (d : Nat) (hd : d < 16) :
      bitOf v d = (d == s.hubId || (s.hub d).present) := by
    have hb : bitOf v d = v.testBit d := by simp [bitOf, Nat.testBit_eq_decide_div_mod_eq]
    rw [hb, hv, Nat.testBit_mod_two_pow, testBit_ofBits]
    simp [set, pres, me, hd, List.contains_eq_mem, Bool.beq_eq_decide_eq]
  split
  · split
    · exact ⟨hubs, fun d hd => bit _ shown5 d hd⟩
    · refine ⟨hubs.trans (.withStk s5 (s5.live 0x000 false) _ rfl), fun d hd => bit _ ?_ d hd⟩
      rw [State.rd_withStk]
      exact (State.rd_live s5 0x000 false _ (by simp [quietReg, F.STK_HUBS_PRESENT]) (by decide) (by decide)).trans shown5
  · exact ⟨hubs, fun d hd => bit _ shown5 d hd⟩

theorem State.hub_showHubs (s : State) (d : Nat) : s.showHubs.hub d = s.hub d := State.hub_congr s.showHubs_spec.1 d

/-! Heartbeats (R392, R393). -/

/-- A heartbeat of the own number. -/
theorem heartbeat_own (s : State) (d : Hub) (ringB : Bool) (hops dly : Nat) (hb : Heartbeat) (cyc : Nat) (t : Time)
    (h : d.val = (s.advance t).hubId) :
    (heartbeat d ringB hops dly hb cyc t s).stk.dupAt = some (s.advance t).cyc ∧
      (heartbeat d ringB hops dly hb cyc t s).liveBit 0x000 = true ∧
      (heartbeat d ringB hops dly hb cyc t s).stk.hubs = s.stk.hubs := by
  simp only [heartbeat, if_pos h]
  generalize hx : ({ s.advance t with stk := { (s.advance t).stk with dupAt := some (s.advance t).cyc } } : State) = x
  have hd : x.stk.dupAt = some (s.advance t).cyc := by rw [← hx]
  have hh : x.stk.hubs = s.stk.hubs := by rw [← hx, ← State.advance_stk s t]
  have sends := State.OnlySends.live x 0x000 true none
  exact ⟨sends.dupAt.trans hd, State.liveBit_live x 0x000 true (by decide), sends.hubs.trans hh⟩

/-- A hub whose record says that it is present, once `STK_HUBS` shows it. -/
theorem State.getBit_showHubs_present (s : State) (d : Hub) (h : (s.hub d).present = true) :
    s.showHubs.getBit F.STK_HUBS_PRESENT d = true := by
  rw [s.showHubs_spec.2 d d.isLt, h, Bool.or_true]

/-- A heartbeat of another hub. -/
theorem heartbeat_other (s : State) (d : Hub) (ringB : Bool) (hops dly : Nat) (hb : Heartbeat) (cyc : Nat) (t : Time)
    (h : d.val ≠ (s.advance t).hubId) :
    ((heartbeat d ringB hops dly hb cyc t s).hub d).hb = hb ∧ ((heartbeat d ringB hops dly hb cyc t s).hub d).cyc = some cyc ∧
      ((heartbeat d ringB hops dly hb cyc t s).hub d).missRun = 0 ∧
      (heartbeat d ringB hops dly hb cyc t s).getBit F.STK_HUBS_PRESENT d = true := by
  unfold heartbeat
  extract_lets s0 _ s1 r fst now s2 s3 _ s4 _ s5 s6 s7 s8
  rw [if_neg h]
  have beat : s2.KeepsHubs s3 := .partnerBeat _ _ _ _
  have exDiv : s3.KeepsHubs s4 := .ite (fun _ => .withStk s3 _ _ rfl) (fun _ => .refl _)
  have change : s4.KeepsHubs s5 := .ite (fun _ => .withStk s4 _ _ rfl) (fun _ => .refl _)
  have blk : s5.KeepsHubs s6 := .ite (fun _ => .holdBlock _ _ _) (fun _ => .refl _)
  have hall : s6.KeepsHubs s7 := .ite (fun _ => .holdBlock _ _ _) (fun _ => .refl _)
  have lines : s7.KeepsHubs s8 := .ite (fun _ => .busLines _ _ _) (fun _ => .refl _)
  have kept : s8.hub d = s2.hub d := State.hub_congr (((((beat.trans exDiv).trans change).trans blk).trans hall).trans lines) d
  have heard : s2.hub d = _ := State.hub_setHub _ _ _
  have present : (s8.hub d).present = true := by rw [kept, heard]; rfl
  rw [State.hub_showHubs, kept, heard]
  exact ⟨rfl, rfl, rfl, State.getBit_showHubs_present s8 d present⟩

/-- The own number stays through a change of the redundancy state, which lies in the same register. -/
theorem State.hubId_setRed (s : State) (st : Nat) : (s.setRed st).hubId = s.hubId := by
  unfold State.setRed
  extract_lets s1 _ s2
  calc (s2.live 0x06A (st == 4)).hubId
      = s2.rd F.GEN_TOPO_HUB_ID :=
        State.rd_live s2 _ _ _ (by simp [quietReg, F.GEN_TOPO_HUB_ID]) (by decide) (by decide)
    _ = s1.rd F.GEN_TOPO_HUB_ID := State.rd_withStk s1 _ _
    _ = (s.wr F.STK_RED_STAT_STATE st).rd F.GEN_TOPO_HUB_ID := State.rd_wr_fld _ _ _ _ (by decide) (by decide)
    _ = s.hubId := State.rd_wr_reg _ _ _ _ (by decide)

theorem State.hubId_takeOver (s : State) (kf : Nat) (revert : Bool) : (s.takeOver kf revert).hubId = s.hubId := by
  unfold State.takeOver
  split
  · exact (State.rd_withStk _ _ _).trans (s.hubId_setRed 3)
  · exact (State.rd_withStk _ _ _).trans (State.rd_wr_reg _ _ _ _ (by decide))

theorem State.hubId_takeCheck (s : State) (k : Nat) : (s.takeCheck k).hubId = s.hubId := by
  unfold State.takeCheck
  split
  · rfl
  · extract_lets prev both
    split
    · exact s.hubId_takeOver _ _
    · split
      · exact s.hubId_takeOver _ _
      · rfl

section Missing

variable (s : State) (d : Hub) (k : Nat)

/-- The instant at which the heartbeat of cycle `k` is missed. -/
def State.missedAt : State :=
  if k = s.cyc then s.advanceHall (s.clk.tkHall + ns (300 + s.rd (F.STK_HB_LAT_LAT d))) else s

theorem State.missedAt_stk : (s.missedAt d k).stk = s.stk := by
  unfold State.missedAt
  split <;> simp

theorem State.missedAt_regs : (s.missedAt d k).regs = s.regs := by
  unfold State.missedAt
  split <;> simp

theorem State.missedAt_hubId : (s.missedAt d k).hubId = s.hubId := by
  unfold State.missedAt
  split <;> simp [State.hubId]

/-- The heartbeat of a hub that has not been heard, of the own number, or that has come. -/
theorem heartbeatMissing_idle (h : d.val = s.hubId ∨ (s.hub d).cyc = none ∨ (s.hub d).cyc = some k) :
    heartbeatMissing d k s = s.missedAt d k := by
  have hr : (s.missedAt d k).hub d = s.hub d := State.hub_congr (by rw [State.missedAt_stk]) d
  refine (if_pos ?_ : heartbeatMissing d k s = _)
  show (_ || ((s.missedAt d k).hub d).cyc.isNone || ((s.missedAt d k).hub d).cyc == some k) = true
  rw [hr]
  rcases h with h | h | h
  · have : decide (d.val = (s.missedAt d k).hubId) = true := by rw [State.missedAt_hubId, h]; simp
    rw [Bool.or_assoc]
    exact Bool.or_eq_true_iff.2 (.inl this)
  · simp [h]
  · simp [h]

/-- The heartbeat of a hub that has been heard has not come. -/
theorem heartbeatMissing_counts {c : Nat} (hd : d.val ≠ s.hubId) (hc : (s.hub d).cyc = some c) (hk : c ≠ k) :
    ((heartbeatMissing d k s).hub d).missRun = (s.hub d).missRun + 1 ∧
      (heartbeatMissing d k s).getBit F.STK_HUBS_PRESENT d = false := by
  have hr : (s.missedAt d k).hub d = s.hub d := State.hub_congr (by rw [State.missedAt_stk]) d
  have hid : ¬ d.val = (s.missedAt d k).hubId := by rwa [State.missedAt_hubId]
  unfold heartbeatMissing
  rw [← State.missedAt]
  extract_lets s1 r n s2 s3 _ s4 s5
  have cond : ¬ (decide (d.val = s1.hubId) || r.cyc.isNone || r.cyc == some k) = true := by
    simp [r, s1, hr, hc, hk, hid]
  rw [if_neg cond]
  have count3 : s3.stk.hubs = s2.stk.hubs := congrArg StkSt.hubs (State.count_stk s2 0x00E 1)
  have counted : s2.KeepsHubs s4 := .withStk s2 s3 _ count3
  have kept : s2.KeepsHubs s5 := .ite (fun _ => counted.trans (.takeCheck _ _)) (fun _ => .refl _)
  have hid5 : s5.hubId = s.hubId := by
    refine Eq.trans ?_ (s.missedAt_hubId d k)
    show (if _ then _ else _ : State).hubId = s1.hubId
    split
    · calc (s4.takeCheck k).hubId = s4.hubId := State.hubId_takeCheck _ _
        _ = s3.hubId := State.rd_withStk s3 _ _
        _ = s2.hubId := State.rd_count s2 _ _ _
        _ = s1.hubId := State.rd_withStk s1 _ _
    · rfl
  have missed : s5.hub d = { r with missRun := n, candAt := none } := (State.hub_congr kept d).trans (State.hub_setHub _ _ _)
  rw [State.hub_showHubs, s5.showHubs_spec.2 d d.isLt, missed, hid5]
  refine ⟨by simp [n, r, s1, hr], ?_⟩
  have hne : (d.val == s.hubId) = false := by simp [hd]
  rw [hne]
  simp [HubRec.present, n]

end Missing

end Sys2Proof.Machine
end

section
/-!
PROOFS. The messages of the Titajor ring, each against its rule: the pair's wait (R368), the newel (R394), TIME (R395), the
hall-wide blocks (R326, R327, R398), the exchange (R399) and forwarding (R389).
-/

namespace Sys2Proof.Machine

/-! The pair's wait. -/

theorem State.redSt_setRed (s : State) (st : Nat) : (s.setRed st).redSt = st % 8 := by
  unfold State.setRed
  extract_lets s1 _ s2
  calc (s2.live 0x06A (st == 4)).redSt
      = s2.redSt := State.rd_live s2 _ _ _ (by simp [quietReg, F.STK_RED_STAT_STATE]) (by decide) (by decide)
    _ = s1.redSt := State.rd_withStk s1 _ _
    _ = (s.wr F.STK_RED_STAT_STATE st).redSt := State.rd_wr_reg _ _ _ _ (by decide)
    _ = st % 8 := State.rd_wr_same _ _ _ (by decide)

theorem State.active_setRed (s : State) (st : Nat) : (s.setRed st).rdB F.GEN_TOPO_ACTIVE = (st == 1) := by
  unfold State.setRed
  extract_lets s1 _ s2
  calc (s2.live 0x06A (st == 4)).rdB F.GEN_TOPO_ACTIVE
      = s2.rdB F.GEN_TOPO_ACTIVE := State.rdB_live s2 _ _ _ (by simp [quietReg, F.GEN_TOPO_ACTIVE]) (by decide) (by decide)
    _ = s1.rdB F.GEN_TOPO_ACTIVE := congrArg (· != 0) (State.rd_withStk s1 _ _)
    _ = (st == 1) := State.rdB_wrB_same _ _ _ (by decide) (by decide)

theorem partnerWait_idle (s : State) (h : s.dupMode ≠ 2 ∨ s.redSt ≠ 0) : partnerWait s = s :=
  if_pos (by rcases h with h | h <;> simp [h])

theorem partnerWait_odd (s : State) (hd : s.dupMode = 2) (hr : s.redSt = 0) (ho : s.hubId % 2 = 1) :
    partnerWait s = s.setRed 2 := by
  simp [partnerWait, hd, hr, ho]

theorem partnerWait_even (s : State) (hd : s.dupMode = 2) (hr : s.redSt = 0) (he : s.hubId % 2 = 0) :
    partnerWait s = match s.stk.linksAt with
      | some a => if a + 64 * s.cycT ≤ s.clk.now then s.setRed 1 else s
      | none => s := by
  simp only [partnerWait, hd, hr, he] <;> rfl

/-! The newel. -/

theorem newelChange_none (s : State) (h : s.stk.change = none) : newelChange s = s := by
  rw [newelChange, h]

theorem newelChange_early (s : State) {n k : Nat} (h : s.stk.change = some (n, k)) (hk : 2 ^ 31 ≤ s.since k) :
    newelChange s = s := by
  rw [newelChange, h]
  exact if_pos hk

/-- The change that is due: the newel is shown, and 0x06D raised. -/
theorem newelChange_due (s : State) {n k : Nat} (h : s.stk.change = some (n, k)) (hn : n < 16) (hk : s.since k < 2 ^ 31) :
    (newelChange s).newel = n ∧ (newelChange s).isNewel = (n == s.hubId) ∧ (newelChange s).stk.change = none ∧
      (newelChange s).latchBit 0x06D = true := by
  let s0 : State := { s with stk := { s.stk with change := none } }
  have due : newelChange s = (s0.showNewel n).raise 0x06D := by
    rw [newelChange, h]
    exact if_neg (Nat.not_le.2 hk)
  have newel : (s0.showNewel n).newel = n := by
    unfold State.showNewel
    extract_lets me
    calc _ = ((s0.wr F.STK_STAT_NEWEL n).wrB F.STK_STAT_IS_NEWEL me).newel := State.rd_wr_reg _ _ _ _ (by decide)
      _ = (s0.wr F.STK_STAT_NEWEL n).newel := State.rd_wr_fld _ _ _ _ (by decide) (by decide)
      _ = n % 16 := State.rd_wr_same _ _ _ (by decide)
      _ = n := Nat.mod_eq_of_lt hn
  have isNewel : (s0.showNewel n).isNewel = (n == s.hubId) := by
    unfold State.showNewel
    extract_lets me
    calc _ = ((s0.wr F.STK_STAT_NEWEL n).wrB F.STK_STAT_IS_NEWEL me).isNewel :=
          congrArg (· != 0) (State.rd_wr_reg _ _ _ _ (by decide))
      _ = me := State.rdB_wrB_same _ _ _ (by decide) (by decide)
  have change : (s0.showNewel n).stk = s0.stk := by
    rw [State.showNewel, State.wrB_stk, State.wrB_stk, State.wr_stk]
  rw [due]
  refine ⟨?_, ?_, ?_, State.latched_raise _ _ _ _ (by simp) (by decide)⟩
  · exact (State.rd_raise _ _ F.STK_STAT_NEWEL (by simp [quietReg, F.STK_STAT_NEWEL])).trans newel
  · exact (State.rdB_raise _ _ F.STK_STAT_IS_NEWEL (by simp [quietReg, F.STK_STAT_IS_NEWEL])).trans isNewel
  · rw [(State.OnlySends.raise _ _ _ _).change, change]

/-! TIME. -/

section Offset

/-- What the hall clock's corrections leave of the stack's state. -/
theorem State.showServo_stk (s : State) : s.showServo.stk = s.stk := by
  rw [State.showServo, State.wrB_stk, State.wr_stk, State.wrI, State.wr_stk]

theorem State.stk_withClk (s : State) (x : ClkSt) : ({ s with clk := x } : State).stk = s.stk := rfl

theorem State.rd_withClk (s : State) (x : ClkSt) (f : Fld) : ({ s with clk := x } : State).rd f = s.rd f := rfl

theorem State.holdover_stk (s : State) : s.holdover.stk = s.stk := by
  rw [State.holdover, State.wrB_stk, State.stk_withClk]

theorem State.alignChan_stk (s : State) (c : Nat) : (s.alignChan c).stk = s.stk := by
  unfold State.alignChan
  split
  · rw [State.setAligned, State.wrB_stk, State.setBit_stk, State.setChan_stk]
  · rfl

theorem State.realignAll_stk (s : State) : s.realignAll.stk = s.stk := by
  refine State.stk_foldl _ _ (fun s c => ?_) s
  split
  · exact s.alignChan_stk c
  · rfl

theorem State.moveRecord_stk (s : State) (move : Time → Time) : (s.moveRecord move).stk = s.stk := rfl

theorem State.moveChans_stk (s : State) (move : Time → Time) : (s.moveChans move).stk = s.stk := rfl

theorem State.OnlySends.stepHall (s : State) (theta : Int) : s.OnlySends (s.stepHall theta) := by
  unfold State.stepHall
  extract_lets move s1 _ s2 s3 s4 s5 s6
  have h2 : s2.stk = s.stk := (State.stk_withClk s1 _).trans (State.moveRecord_stk s move)
  have h3 : s3.stk = s2.stk := (State.wr_stk (s2.incWrap F.HT_STEP_CNT_COUNT) _ _).trans (State.incWrap_stk s2 _ _)
  clear_value s3
  have h4 : s4.stk = s3.stk := (State.count_stk (s3.wr F.HT_STEP_CYC_CYC s3.cyc) _ _).trans (State.wr_stk s3 _ _)
  have h5 : s5.stk = s4.stk := (State.wrB_stk (s4.wrB F.HT_STAT_STEP_PEND false) _ _).trans (State.wrB_stk s4 _ _)
  have h6 : s.OnlySends s6 := .of_stk ((State.wrB_stk s5 _ _).trans (h5.trans (h4.trans (h3.trans h2))))
  refine (h6.trans (.raise s6 0x00C none 0)).trans (.of_stk ?_)
  rw [State.realignAll_stk, State.moveChans_stk]

theorem State.OnlySends.offset (s : State) (theta : Int) (src : Nat) (alone : Bool) :
    s.OnlySends (s.offset theta src alone) := by
  unfold State.offset
  extract_lets now dt _ s1 s2 large s3 s4
  have h2 : s.OnlySends s2 := .of_stk (by rw [State.wr_stk, State.stk_withClk])
  have h3 : s.OnlySends s3 := h2.trans (.of_stk (State.wrB_stk _ _ _))
  have h4 : s.OnlySends s4 := by
    refine h3.trans (.of_stk ?_)
    show (if _ then _ else _ : State).stk = _
    split
    · rfl
    · exact State.wrB_stk _ _ _
  split
  · split
    · exact (h2.trans (.stepHall _ _)).trans (.of_stk (State.showServo_stk _))
    · exact h2.trans (.of_stk (by rw [State.showServo_stk, State.holdover_stk, State.wrB_stk]))
  · clear_value dt s4
    cases dt with
    | none => exact h4.trans (.of_stk ((State.showServo_stk _).trans (State.stk_withClk _ _)))
    | some d => exact h4.trans (.of_stk ((State.showServo_stk _).trans (State.stk_withClk _ _)))

theorem State.showServo_keeps (s : State) : s.showServo.clk = s.clk ∧
    s.showServo.rd F.HT_STAT_SRC_USED = s.rd F.HT_STAT_SRC_USED ∧ ∀ o, 0x21000 ≤ o → s.showServo.reg o = s.reg o := by
  unfold State.showServo
  extract_lets s1
  have hclk : s1.clk = s.clk := by rw [State.wr_clk, State.wrI, State.wr_clk]
  have hsrc : s1.rd F.HT_STAT_SRC_USED = s.rd F.HT_STAT_SRC_USED :=
    (State.rd_wr_reg _ _ _ _ (by decide)).trans (State.rd_wr_reg _ _ _ _ (by decide))
  refine ⟨(State.wrB_clk _ _ _).trans hclk, (State.rd_wr_fld _ _ _ _ (by decide) (by decide)).trans hsrc, fun o ho => ?_⟩
  calc _ = s1.reg o := State.reg_wr_other _ _ _ _ (by simp only [F.HT_STAT_LOCK]; omega)
    _ = (s.wrI F.HT_FADJ_RHO_I s.clk.rhoI).reg o := State.reg_wr_other _ _ _ _ (by simp only [F.HT_LAST_THETA]; omega)
    _ = s.reg o := State.reg_wr_other _ _ _ _ (by simp only [F.HT_FADJ_RHO_I]; omega)

/-- A small offset is taken as it is, and no source rises. -/
theorem State.offset_small (s : State) (theta : Int) (src : Nat) (alone : Bool) (h : theta.natAbs < s.stepTh) :
    (s.offset theta src alone).clk.theta = theta ∧ (s.offset theta src alone).clk.stepAt = s.clk.stepAt ∧
      (s.offset theta src alone).rd F.HT_STAT_SRC_USED = src % 4 ∧
      ∀ o, 0x21000 ≤ o → (s.offset theta src alone).reg o = s.reg o := by
  unfold State.offset
  extract_lets now dt _ s1 s2 large s3 s4
  have hl : large = false := by
    have hth : s2.stepTh = s.stepTh := by
      rw [State.stepTh, State.stepTh, State.rd_wr_reg _ _ _ _ (by decide), State.rd_withClk]
    exact decide_eq_false (by rw [hth]; omega)
  have hs4 : s4 = (s2.wrB F.HT_STAT_HOLD false).wrB F.HT_STAT_STEP_PEND false := by
    show (if large then _ else _) = _
    rw [hl]; rfl
  have clk : s4.clk = s1.clk := by rw [hs4, State.wrB_clk, State.wrB_clk, State.wr_clk]
  have used : s4.rd F.HT_STAT_SRC_USED = src % 4 := by
    rw [hs4]
    calc _ = (s2.wrB F.HT_STAT_HOLD false).rd F.HT_STAT_SRC_USED := State.rd_wr_fld _ _ _ _ (by decide) (by decide)
      _ = s2.rd F.HT_STAT_SRC_USED := State.rd_wr_fld _ _ _ _ (by decide) (by decide)
      _ = src % 4 := State.rd_wr_same _ _ _ (by decide)
  have regs (o : Nat) (ho : 0x21000 ≤ o) : s4.reg o = s.reg o := by
    have hne : o ≠ 0x20008 := by omega
    rw [hs4]
    calc _ = (s2.wrB F.HT_STAT_HOLD false).reg o := State.reg_wr_other _ _ _ _ hne
      _ = s2.reg o := State.reg_wr_other _ _ _ _ hne
      _ = s.reg o := State.reg_wr_other _ _ _ _ hne
  rw [hl, Bool.false_and, if_neg Bool.false_ne_true]
  have keeps : s4.clk.theta = theta ∧ s4.clk.stepAt = s.clk.stepAt := by
    rw [clk]; exact ⟨rfl, rfl⟩
  clear_value s4 dt
  have shown (x : ClkSt) (hx : x.theta = theta ∧ x.stepAt = s.clk.stepAt) :
      (State.showServo { s4 with clk := x }).clk.theta = theta ∧
      (State.showServo { s4 with clk := x }).clk.stepAt = s.clk.stepAt ∧
      (State.showServo { s4 with clk := x }).rd F.HT_STAT_SRC_USED = src % 4 ∧
      ∀ o, 0x21000 ≤ o → (State.showServo { s4 with clk := x }).reg o = s.reg o := by
    obtain ⟨kclk, kused, kregs⟩ := State.showServo_keeps { s4 with clk := x }
    rw [kclk, kused]
    exact ⟨hx.1, hx.2, used, fun o ho => (kregs o ho).trans (regs o ho)⟩
  cases dt with
  | none => exact shown _ keeps
  | some d => exact shown _ keeps

end Offset

/-- TIME on the other ring, or at the newel. -/
theorem timeMsg_idle (ringB : Bool) (dep : Time) (len : Nat) (corr : Time) (step : Option (Nat × Int)) (cyc : Nat)
    (delay t : Time) (s : State) (h : (s.advance t).isNewel = true ∨ (s.advance t).nearRing (s.advance t).newel ≠ ringB) :
    timeMsg ringB dep len corr step cyc delay t s = s.advance t :=
  if_pos (by rcases h with h | h <;> simp [h])

section Time

variable (s : State) (ringB : Bool) (dep : Time) (len : Nat) (corr : Time) (step : Option (Nat × Int)) (cyc : Nat)
  (delay t : Time)

/-- TIME on the near ring (R395): the cycle length is compared at once; a small offset is taken. -/
theorem timeMsg_near (hn : (s.advance t).isNewel = false) (hr : (s.advance t).nearRing (s.advance t).newel = ringB)
    {newelNow : Time} (hnow : newelNow = (((dep + corr + delay : Nat) : Int) - (s.advance t).linkAsym ringB).toNat)
    {th : Int} (hth : th = ((s.advance t).clk.hall : Int) - newelNow) {differs : Bool}
    (hdiff : differs = ((s.advance t).cycAt newelNow != cyc)) :
    let u := timeMsg ringB dep len corr step cyc delay t s
    u.stk.lenBad = (len != s.rd F.GEN_CYC_LEN_LEN) ∧
      (th.natAbs < s.stepTh → u.clk.theta = th ∧ u.rd F.HT_STAT_SRC_USED = 3 ∧ u.clk.stepAt = step ∧
        u.liveBit 0x004 = (len != s.rd F.GEN_CYC_LEN_LEN || (differs && s.anyDeblocked))) := by
  subst hnow hth hdiff
  intro u
  let newelNow : Time := (((dep + corr + delay : Nat) : Int) - (s.advance t).linkAsym ringB).toNat
  let differs := (s.advance t).cycAt newelNow != cyc
  let x : State := { s.advance t with
    clk := { (s.advance t).clk with stepAt := step },
    stk := { (s.advance t).stk with
      lenBad := len != (s.advance t).rd F.GEN_CYC_LEN_LEN,
      setCyc := if differs then some ((cyc + (s.advance t).since ((s.advance t).cycAt newelNow)) % 2 ^ 32) else none } }
  let y := x.live 0x004 (x.stk.lenBad || (differs && x.anyDeblocked))
  have hu : u = y.offset ((y.clk.hall : Int) - newelNow) 3 true := if_neg (by simp [hn, hr])
  have hclk : y.clk = x.clk := (State.live_keeps x _ _).clk.trans (State.wrB_clk _ _ _)
  have hlen : x.stk.lenBad = (len != s.rd F.GEN_CYC_LEN_LEN) := by rw [← State.rd_advance s t]
  have hany : x.anyDeblocked = s.anyDeblocked := s.anyDeblocked_advance t
  have hstep : y.stepTh = s.stepTh := by
    have hy : y.rd F.HT_CTRL_STEP_TH = x.rd F.HT_CTRL_STEP_TH :=
      State.rd_live _ _ _ _ (by simp [quietReg, F.HT_CTRL_STEP_TH]) (by decide) (by decide)
    have hx : x.rd F.HT_CTRL_STEP_TH = s.rd F.HT_CTRL_STEP_TH := State.rd_advance s t _
    rw [State.stepTh, State.stepTh, hy, hx]
  have hbad : u.stk.lenBad = x.stk.lenBad := by
    rw [hu, (State.OnlySends.offset y _ _ _).lenBad, (State.OnlySends.live x _ _ none).lenBad]
  refine ⟨hbad.trans hlen, fun hsmall => ?_⟩
  have hhall : y.clk.hall = x.clk.hall := congrArg ClkSt.hall hclk
  obtain ⟨theta, stepAt, used, regs⟩ := State.offset_small y ((y.clk.hall : Int) - newelNow) 3 true (by
    rw [hstep, hhall]
    exact hsmall)
  rw [← hu] at theta stepAt used regs
  refine ⟨by rw [theta, hhall], used, by rw [stepAt, hclk], ?_⟩
  calc u.liveBit 0x004 = y.liveBit 0x004 := State.rdB_congr (regs _ (by decide))
    _ = (x.stk.lenBad || (differs && x.anyDeblocked)) := State.liveBit_live x 0x004 _ (by decide)
    _ = _ := by rw [hlen, hany]

end Time

/-! BLOCK and TRIP. -/

/-- The block of hub `d` is held, and shown. -/
theorem State.holdBlock_keeps (s : State) (d : Nat) (fresh : Bool) :
    (s.holdBlock d fresh).flt.stackBlk.any (fun b => b.hub == d) = true ∧
      (s.holdBlock d fresh).rdB F.FLT_STAT_HALL_BLK = true ∧ RaiseKeeps s (s.holdBlock d fresh) := by
  unfold State.holdBlock
  extract_lets old at_ age _ s1
  refine ⟨?_, State.rdB_wrB_same s1 _ _ (by decide) (by decide), (RaiseKeeps.flt s _).trans (.wrB s1 _ _ (by
    simp [loudReg, quietReg, F.FLT_STAT_HALL_BLK]))⟩
  rw [State.wrB_flt]
  simp [s1]

theorem stackMsg_own (s : State) (d : Nat) (trip : Bool) (cyc : Nat) (h : d = s.hubId) : s.stackMsg d trip cyc = s := if_pos h

/-- BLOCK or TRIP of another hub: one event, a block that is held and shown, and the newel's resending (R326, R398). -/
theorem stackMsg_other (s : State) (d : Hub) (trip : Bool) (cyc : Nat) (h : d.val ≠ s.hubId) :
    (s.stackMsg d trip cyc).rdB F.FLT_STAT_HALL_BLK = true ∧
    (s.flt.stackSeen.contains (d.val, trip, cyc) = false → (s.stackMsg d trip cyc).latchBit 0x06F = true) ∧
    (s.stackMsg d trip cyc).flt.stackBlk.any (fun b => b.hub == d.val) = true ∧
    (trip = true → (s.stackMsg d trip cyc).saf.tripReq = true) ∧
    (s.isNewel = true → ∀ b : Bool,
      (⟨d, 0x1F, 15, b, cyc, if trip then .trip else .block⟩ : TitMsg) ∈ (s.stackMsg d trip cyc).titMsgs b) := by
  unfold State.stackMsg
  rw [if_neg h]
  extract_lets seen _ s1 s2 s3 _
  let body : TitBody := if trip then .trip else .block
  have hold : s2.flt.stackBlk.any (fun b => b.hub == d.val) = true ∧ s2.rdB F.FLT_STAT_HALL_BLK = true ∧ RaiseKeeps s1 s2 :=
    s1.holdBlock_keeps d true
  obtain ⟨held, shown, keeps⟩ := hold
  have seen1 : s.flt.stackSeen.contains (d.val, trip, cyc) = false → s1.latched (0x06F / 32) (0x06F % 32) = true := fun hs => by
    have hseen : seen = false := hs
    show (if seen then s else _).latched _ _ = true
    rw [hseen]
    exact State.latched_raise _ _ _ _ (by simp) (by decide)
  have keeps1 : RaiseKeeps s s1 := by
    show RaiseKeeps s (if seen then s else _)
    split
    · exact .refl s
    · exact (RaiseKeeps.flt s _).trans (.raise _ _ none _ (by simp))
  have newel2 : s2.isNewel = s.isNewel :=
    State.rdB_congr ((keeps1.trans keeps).reg _ (by simp [quietReg, F.STK_STAT_IS_NEWEL]))
  have latched2 (hs : s.flt.stackSeen.contains (d.val, trip, cyc) = false) : s2.latchBit 0x06F = true :=
    keeps.latch _ _ (seen1 hs) (by decide)
  clear_value s2
  have blk3 : s3.flt = s2.flt := by
    show (if _ then _ else _ : State).flt = _
    split
    · exact s2.resend_flt d cyc body
    · rfl
  have reg3 (o : Nat) (ho : o ≠ R.GEN_CONT 5) : s3.reg o = s2.reg o := by
    show (if _ then _ else _ : State).reg o = _
    split
    · exact s2.reg_resend d cyc body ho
    · rfl
  have sent3 (hnewel : s.isNewel = true) (b : Bool) : (⟨d, 0x1F, 15, b, cyc, body⟩ : TitMsg) ∈ s3.titMsgs b := by
    show _ ∈ (if s2.isNewel then _ else _ : State).titMsgs b
    rw [newel2, hnewel, if_pos rfl]
    refine s2.titSend_both_mem (fun b => ⟨d, 0x1F, 15, b, cyc, body⟩) (fun _ => rfl) (fun b own d => ?_) b
    cases trip <;> rfl
  have shown3 : s3.rdB F.FLT_STAT_HALL_BLK = true := (State.rdB_congr (reg3 _ (by decide))).trans shown
  have latched3 (hs : s.flt.stackSeen.contains (d.val, trip, cyc) = false) : s3.latchBit 0x06F = true :=
    (State.rdB_congr (reg3 _ (by decide))).trans (latched2 hs)
  have held3 : s3.flt.stackBlk.any (fun b => b.hub == d.val) = true := by rw [blk3]; exact held
  clear_value s3
  cases trip with
  | true => exact ⟨shown3, latched3, held3, fun _ => rfl, sent3⟩
  | false => exact ⟨shown3, latched3, held3, fun ht => absurd ht (by decide), sent3⟩

/-! EXCH and forwarding. -/

theorem exchMsg_idle (d : Hub) (k : Nat) (w0 w1 w2 w3 : Word) (t : Time) (s : State)
    (h : d.val = (s.advance t).hubId ∨ 4 ≤ (s.advance t).since k) : exchMsg d k w0 w1 w2 w3 t s = s.advance t := if_pos h

theorem exchMsg_kept (d : Hub) (k : Nat) (w0 w1 w2 w3 : Word) (t : Time) (s : State)
    (h : ¬ (d.val = (s.advance t).hubId ∨ 4 ≤ (s.advance t).since k)) :
    exchMsg d k w0 w1 w2 w3 t s = (s.advance t).putExch k d [w0, w1, w2, w3] := if_neg h

/-- Only TIME takes up a residence. -/
theorem titAfter_passed {src dst ttl cyc n : Nat} {b : Bool} {p : BitVec 160} {r : Time} (h : n ≠ 9) (own : Bool) (d : Time) :
    titAfter ⟨src, dst, ttl, b, cyc, .passed n p r⟩ own d = ⟨src, dst, ttl, b, cyc, .passed n p r⟩ := by
  simp [titAfter, h]

/-- What leaves again of a message that is forwarded: TTL - 1, and the residence that it takes up. -/
theorem titajorMessageForward_sends (m : BitVec 256) (residence : Time) (s : State) (hok : titOk m = true)
    (h : ¬ (mbits m 8 4 = s.hubId ∨ mbits m 12 5 = s.hubId ∨ mbits m 17 4 ≤ 1)) :
    (∀ o, o ≠ R.GEN_CONT 5 → (titajorMessageForward m residence s).reg o = s.reg o) ∧
    ∃ x, (⟨mbits m 8 4, mbits m 12 5, mbits m 17 4 - 1, mbits m 21 1 == 1, mbits m 32 32,
        .passed (mbits m 22 8) (BitVec.ofNat 160 (mbits m 64 160)) x⟩ : TitMsg) ∈
        (titajorMessageForward m residence s).titMsgs (mbits m 21 1 == 1) ∧
      (mbits m 22 8 ≠ 9 → x = 0) ∧ (mbits m 22 8 = 9 → residence ≤ x) := by
  generalize hr : (if mbits m 22 8 = 9 then residence else 0) = r
  let w : TitMsg := ⟨mbits m 8 4, mbits m 12 5, mbits m 17 4 - 1, mbits m 21 1 == 1, mbits m 32 32,
    .passed (mbits m 22 8) (BitVec.ofNat 160 (mbits m 64 160)) r⟩
  have hf : titajorMessageForward m residence s = s.titSend w := by
    simp only [titajorMessageForward, hok, Bool.not_true, Bool.false_eq_true, if_false, if_neg h, hr, w]
  rw [hf]
  refine ⟨fun o ho => s.reg_titSend w ho, ?_⟩
  obtain ⟨d, hd⟩ := s.titSend_mem w
  by_cases h9 : mbits m 22 8 = 9
  · refine ⟨r + d, ?_, fun h => absurd h9 h, fun _ => ?_⟩
    · simpa only [w, h9, titAfter] using hd
    · rw [← hr, if_pos h9]
      exact Nat.le_add_right _ _
  · have kept : titAfter w (w.src == s.hubId) d = w := titAfter_passed h9 _ _
    rw [kept] at hd
    exact ⟨r, hd, fun _ => by rw [← hr, if_neg h9], fun h => absurd h h9⟩

end Sys2Proof.Machine
end

section
/-!
PROOFS. Titajor messages (R389 to R399): the commands' outcomes, from the rules of their messages.
-/

namespace Sys2Proof.Machine

/-- A command at whose instant nothing happens. -/
theorem State.onHubAt_idle {s : State} {t : Time} {f : State → State} (held : s.pwr.held = false)
    (h : f (s.advance t) = s.advance t) : s.onHubAt t f = s.advance t :=
  State.onHubAt_of_keeps held h (State.advance_treads s t) (State.advance_coreMem s t) (State.advance_pending s t)

section OnChip

variable (s : State) (f : State → State)

@[simp] theorem State.onChip_titMsgs (b : Bool) : (s.onChip f).titMsgs b = (f s).titMsgs b := (rfl)
@[simp] theorem State.onChip_getBit (g : Fld) (i : Nat) : (s.onChip f).getBit g i = (f s).getBit g i := (rfl)
@[simp] theorem State.onChip_liveBit (src : Nat) : (s.onChip f).liveBit src = (f s).liveBit src := (rfl)
@[simp] theorem State.onChip_latchBit (src : Nat) : (s.onChip f).latchBit src = (f s).latchBit src := (rfl)
@[simp] theorem State.onChip_redSt : (s.onChip f).redSt = (f s).redSt := (rfl)
@[simp] theorem State.onChip_newel : (s.onChip f).newel = (f s).newel := (rfl)
@[simp] theorem State.onChip_isNewel : (s.onChip f).isNewel = (f s).isNewel := (rfl)

end OnChip

section Advance

variable (s : State) (t : Time)

@[simp] theorem State.hubId_advance : (s.advance t).hubId = s.hubId := State.rd_advance s t _
@[simp] theorem State.redSt_advance : (s.advance t).redSt = s.redSt := State.rd_advance s t _
@[simp] theorem State.newel_advance : (s.advance t).newel = s.newel := State.rd_advance s t _
@[simp] theorem State.isNewel_advance : (s.advance t).isNewel = s.isNewel := State.rdB_advance s t _
@[simp] theorem State.dupMode_advance : (s.advance t).dupMode = s.dupMode := by simp [State.dupMode, State.modeOk]
@[simp] theorem State.since_advance (k : Nat) : (s.advance t).since k = s.since k := by simp [State.since, State.cyc]
@[simp] theorem State.cycT_advance : (s.advance t).cycT = s.cycT := by simp [State.cycT, State.cycNs]
@[simp] theorem State.cyc_advance : (s.advance t).cyc = s.cyc := State.rd_advance s t _
@[simp] theorem State.stepTh_advance : (s.advance t).stepTh = s.stepTh := by simp [State.stepTh]
@[simp] theorem State.linkAsym_advance (b : Bool) : (s.advance t).linkAsym b = s.linkAsym b := by simp [State.linkAsym]
@[simp] theorem State.nearRing_advance (d : Nat) : (s.advance t).nearRing d = s.nearRing d := by
  simp [State.nearRing, State.pathHops]

end Advance

theorem State.le_now_advance (s : State) (t : Time) : t ≤ (s.advance t).clk.now := by
  unfold State.advance
  split
  · next h => exact h
  · exact Nat.le_refl t

/-- A second look at the same instant. -/
@[simp] theorem State.advance_advance (s : State) (t : Time) : (s.advance t).advance t = s.advance t :=
  if_pos (s.le_now_advance t)

/-- Settles O28: message by message. The model's own choices in it: the hub's own messages that return, and those with TTL 0, do
not count in BADMSG (log entry 44, DEDUCED); a type that the hub does not know is treated as a wrong CRC (log entry 72, DEDUCED);
the copies of a BLOCK or TRIP are one event (log entry 77, DESIGN CHOICE); the links of a hub have lock when every lane has (log
entry 80, DEDUCED). -/
theorem titajorMessagesActAsTheirRulesSay : Obligations.TitajorMessagesActAsTheirRulesSay := by
  refine ⟨fun s held => ?_, fun s d ringB hops dly hb cyc t held => ?_, fun s d k held => ?_, fun s t held => ⟨?_, ?_⟩,
    fun s ringB dep len corr step cyc delay t newelNow th differs held hnow hth hdiff => ?_,
    fun s d t held => ⟨fun c hd => ⟨?_, ?_⟩, fun c hd => ⟨?_, ?_⟩, fun k w0 w1 w2 w3 => ?_⟩,
    fun s m residence t src dst ttl mtype b held hsrc hdst httl hmtype hb => ?_⟩
  · obtain ⟨h, sent, own⟩ := heartbeatSend_sends s
    refine ⟨s.onHub heartbeatSend, h, rfl, ?_⟩
    rw [State.onHub_awake s _ held]
    simpa only [State.onChip_titMsgs, State.onChip_recd, State.onChip_reg] using ⟨sent, own⟩
  · refine ⟨_, rfl, ?_⟩
    rw [State.onHubAt_awake s t _ held]
    simp only [State.onChip_stk, State.onChip_liveBit, State.onChip_hub, State.onChip_getBit]
    refine ⟨fun h => ?_, fun h => ?_⟩
    · have own := heartbeat_own (s.advance t) d ringB hops dly hb cyc.toNat t (by simpa using h)
      rwa [State.advance_advance, State.cyc_advance, State.advance_stk] at own
    · exact heartbeat_other (s.advance t) d ringB hops dly hb cyc.toNat t (by simpa using h)
  · refine ⟨_, rfl, ?_⟩
    rw [State.onHub_awake s _ held]
    simp only [State.onChip_stk, State.onChip_regs, State.onChip_hub, State.onChip_getBit]
    refine ⟨fun h => ?_, fun c hd hc hk => heartbeatMissing_counts s d k.toNat hd hc hk⟩
    rw [heartbeatMissing_idle s d k.toNat h]
    exact ⟨State.missedAt_stk .., State.missedAt_regs ..⟩
  · refine ⟨_, rfl, fun h => ?_, fun hm hr ho => ?_, fun hm hr he => ?_⟩
    · exact State.onHubAt_idle held (partnerWait_idle _ (by simpa using h))
    · rw [State.onHubAt_awake s t _ held, State.onChip_redSt, State.onChip_rdB,
        partnerWait_odd (s.advance t) (by simpa using hm) (by simpa using hr) (by simpa using ho)]
      exact ⟨State.redSt_setRed _ 2, State.active_setRed _ 2⟩
    · have wait := partnerWait_even (s.advance t) (by simpa using hm) (by simpa using hr) (by simpa using he)
      rw [State.advance_stk, State.cycT_advance] at wait
      refine ⟨fun h => State.onHubAt_idle held (by rw [wait, h]), fun a h => ⟨fun hlt => ?_, fun hle => ?_⟩⟩
      · refine State.onHubAt_idle held ?_
        rw [wait, h]
        exact if_neg (Nat.not_le.2 hlt)
      · rw [h] at wait
        rw [State.onHubAt_awake s t _ held, State.onChip_redSt, State.onChip_rdB, wait]
        dsimp only
        rw [if_pos hle]
        exact ⟨State.redSt_setRed _ 1, State.active_setRed _ 1⟩
  · refine ⟨_, rfl, fun h => ?_, fun n k h hn hk => ?_, fun n k h hk => ?_⟩
    · exact State.onHubAt_idle held (newelChange_none _ (by simpa using h))
    · have due := newelChange_due (s.advance t) (by simpa using h) hn (by simpa using hk)
      rw [State.hubId_advance] at due
      rw [State.onHubAt_awake s t _ held]
      simpa only [State.onChip_newel, State.onChip_isNewel, State.onChip_stk, State.onChip_latchBit] using due
    · exact State.onHubAt_idle held (newelChange_early _ (by simpa using h) (by simpa using hk))
  · refine ⟨_, rfl, fun h => ?_, fun hn hr => ?_⟩
    · refine State.onHubAt_idle held ((timeMsg_idle ringB dep len corr step cyc.toNat delay t (s.advance t) ?_).trans
        (State.advance_advance s t))
      simpa using h
    · have near := timeMsg_near (s.advance t) ringB dep len corr step cyc.toNat delay t (by simpa using hn) (by simpa using hr)
        (newelNow := newelNow) (by simpa using hnow) (th := th) (by simpa using hth) (differs := differs) (by simpa using hdiff)
      rw [State.onHubAt_awake s t _ held]
      simp only [State.onChip_stk, State.onChip_clk, State.onChip_rd, State.onChip_liveBit]
      simpa only [State.rd_advance, State.anyDeblocked_advance, State.stepTh_advance] using near
  · have other := stackMsg_other (s.advance t) d false c.toNat (by simpa using hd)
    refine ⟨_, rfl, ?_⟩
    rw [State.onHubAt_awake s t _ held]
    simp only [State.onChip_rdB, State.onChip_latchBit, State.onChip_flt, State.onChip_titMsgs]
    rw [State.advance_flt, State.isNewel_advance] at other
    obtain ⟨shown, latched, blocked, -, sent⟩ := other
    exact ⟨shown, latched, blocked, sent⟩
  · have other := stackMsg_other (s.advance t) d true c.toNat (by simpa using hd)
    refine ⟨_, rfl, ?_⟩
    rw [State.onHubAt_awake s t _ held]
    simp only [State.onChip_rdB, State.onChip_latchBit, State.onChip_flt, State.onChip_titMsgs, State.onChip_saf]
    rw [State.advance_flt, State.isNewel_advance] at other
    obtain ⟨shown, latched, blocked, trip, sent⟩ := other
    exact ⟨shown, latched, blocked, trip rfl, sent⟩
  · exact congrArg _ (State.onHubAt_idle held (stackMsg_own _ _ _ _ (by simpa using hd)))
  · exact congrArg _ (State.onHubAt_idle held (stackMsg_own _ _ _ _ (by simpa using hd)))
  · by_cases h : d.val = s.hubId ∨ 4 ≤ s.since k.toNat
    · have idle : s.onHubAt t (fun s => exchMsg d k.toNat w0 w1 w2 w3 t s) = s.advance t :=
        State.onHubAt_idle held ((exchMsg_idle d k.toNat w0 w1 w2 w3 t (s.advance t) (by simpa using h)).trans
          (State.advance_advance s t))
      refine ⟨s.onHubAt t (fun s => exchMsg d k.toNat w0 w1 w2 w3 t s), rfl, ?_⟩
      rw [idle]
      exact ⟨State.advance_regs s t, fun _ => rfl, fun hd hk => by omega⟩
    · have kept := exchMsg_kept d k.toNat w0 w1 w2 w3 t (s.advance t) (by simpa using h)
      rw [State.advance_advance] at kept
      refine ⟨_, rfl, ?_, fun h' => absurd h' h, fun _ _ => ?_⟩
      · rw [State.onHubAt_awake s t _ held, State.onChip_regs, kept]
        exact State.advance_regs s t
      · rw [State.onHubAt_awake s t _ held, State.onChip_stk, kept]
        exact Store.get_put_same (s.advance t).stk.exch [] (16 * (k.toNat % 16) + d) [w0, w1, w2, w3]
  · subst hsrc hdst httl hmtype hb
    refine ⟨_, rfl, fun hbad => ?_, fun hok hidle => ?_, fun hok hs hd ht => ?_⟩
    · rw [State.onHubAt_awake s t _ held, State.onChip_stk, State.onChip_rd]
      have bad : titajorMessageForward m residence (s.advance t) = ((s.advance t).incSat F.STK_CNT_LINK_BADMSG).count 0x00D :=
        if_pos (by rw [hbad]; rfl)
      rw [bad, State.count_stk, State.incSat_stk, State.advance_stk, State.rd_count]
      refine ⟨rfl, ?_⟩
      refine (State.rd_wr_same _ _ _ (by decide)).trans ?_
      rw [State.rd_advance]
      exact Nat.mod_eq_of_lt (Nat.lt_of_le_of_lt (Nat.min_le_right _ _) (by decide))
    · refine State.onHubAt_idle held ?_
      simp only [titajorMessageForward, hok, State.hubId_advance, if_pos hidle]
      rfl
    · have sends := titajorMessageForward_sends m residence (s.advance t) hok (by rw [State.hubId_advance]; omega)
      rw [State.onHubAt_awake s t _ held]
      simpa only [State.onChip_reg, State.onChip_titMsgs, State.reg_advance] using sends

end Sys2Proof.Machine
end

section
/-!
PROOFS. What a cycle start and a train leave alone (R48, R49, R62): the copies in effect, the hall clock but for a step that
has been named, the cycle number, and which frames have been judged late.
-/

namespace Sys2Proof.Machine

/-- From `s` to `u` nothing has moved the cycle: the copies in effect and the cycle number stay, of the clocks only a step of
the hall clock may have been named, and no port has judged a frame late. -/
structure State.Calm (s u : State) : Prop where
  eff : u.eff = s.eff
  clk : ∃ x, u.clk = { s.clk with stepAt := x }
  num : u.reg R.GEN_CYC_NUM = s.reg R.GEN_CYC_NUM
  late : ∀ q < 32, (u.port q).lateOf = (s.port q).lateOf

namespace State.Calm

/-! Rules. -/

theorem of_parts {s u : State} (he : u.eff = s.eff) (hc : u.clk = s.clk) (hr : u.regs = s.regs) (hp : u.ports = s.ports) :
    s.Calm u where
  eff := he
  clk := ⟨s.clk.stepAt, hc⟩
  num := by rw [State.reg, State.reg, hr]
  late q _ := by rw [State.port, State.port, hp]

theorem refl (s : State) : s.Calm s := of_parts rfl rfl rfl rfl

theorem trans {s t u : State} (h : s.Calm t) (k : t.Calm u) : s.Calm u where
  eff := k.eff.trans h.eff
  clk := by
    obtain ⟨_, hx⟩ := h.clk
    obtain ⟨y, hy⟩ := k.clk
    exact ⟨y, by rw [hy, hx]⟩
  num := k.num.trans h.num
  late q hq := (k.late q hq).trans (h.late q hq)

theorem of_raise {s u : State} (h : RaiseKeeps s u) : s.Calm u where
  eff := h.eff
  clk := ⟨s.clk.stepAt, h.clk⟩
  num := h.reg _ (by simp [quietReg, R.GEN_CYC_NUM])
  late q _ := by rw [State.port, State.port, h.ports]

theorem ite {s t u : State} {p : Prop} [Decidable p] (h : s.Calm t) (k : s.Calm u) : s.Calm (if p then t else u) := by
  split
  · exact h
  · exact k

theorem foldl {α : Type} (f : State → α → State) (l : List α) (h : ∀ (s : State), ∀ x ∈ l, s.Calm (f s x)) (s : State) :
    s.Calm (l.foldl f s) := by
  induction l generalizing s with
  | nil => exact refl s
  | cons x l ih =>
    exact (h s x (by simp)).trans (ih (fun s y hy => h s y (by simp [hy])) _)

/-- A fold that carries something beside the state. -/
theorem foldl_fst {α β : Type} (f : State × β → α → State × β) (l : List α)
    (h : ∀ r : State × β, ∀ x ∈ l, r.1.Calm (f r x).1) (r : State × β) : r.1.Calm (l.foldl f r).1 := by
  induction l generalizing r with
  | nil => exact refl _
  | cons x l ih =>
    exact (h r x (by simp)).trans (ih (fun r y hy => h r y (by simp [hy])) _)

/-! Registers. -/

theorem setReg (s : State) (o : Nat) (v : Word) (h : o ≠ R.GEN_CYC_NUM) : s.Calm (s.setReg o v) where
  eff := rfl
  clk := ⟨s.clk.stepAt, rfl⟩
  num := State.reg_setReg_other s o _ v h.symm
  late _ _ := rfl

theorem wr (s : State) (f : Fld) (v : Nat) (h : f.reg ≠ R.GEN_CYC_NUM) : s.Calm (s.wr f v) := setReg s _ _ h

theorem wrB (s : State) (f : Fld) (b : Bool) (h : f.reg ≠ R.GEN_CYC_NUM) : s.Calm (s.wrB f b) := wr s f _ h

theorem wrI (s : State) (f : Fld) (i : Int) (h : f.reg ≠ R.GEN_CYC_NUM) : s.Calm (s.wrI f i) := wr s f _ h

theorem setBit (s : State) (f : Fld) (i : Nat) (b : Bool) (h : f.reg ≠ R.GEN_CYC_NUM) : s.Calm (s.setBit f i b) :=
  wr s ⟨f.reg, f.lo + i, 1⟩ _ h

theorem incSat (s : State) (f : Fld) (n : Nat) (h : f.reg ≠ R.GEN_CYC_NUM) : s.Calm (s.incSat f n) := wr s f _ h

theorem incWrap (s : State) (f : Fld) (n : Nat) (h : f.reg ≠ R.GEN_CYC_NUM) : s.Calm (s.incWrap f n) := wr s f _ h

/-! Parts of the state beside the registers. -/

section Parts

variable (s : State)

theorem withStk (x : StkSt) : s.Calm { s with stk := x } := of_parts rfl rfl rfl rfl
theorem withFlt (x : FltSt) : s.Calm { s with flt := x } := of_parts rfl rfl rfl rfl
theorem withRecd (x : RecSt) : s.Calm { s with recd := x } := of_parts rfl rfl rfl rfl
theorem withAce (x : AceSt) : s.Calm { s with ace := x } := of_parts rfl rfl rfl rfl
theorem withGal (x : GalSt) : s.Calm { s with gal := x } := of_parts rfl rfl rfl rfl
theorem withHost (x : HostSt) : s.Calm { s with host := x } := of_parts rfl rfl rfl rfl
theorem withPrb (x : PrbSt) : s.Calm { s with prb := x } := of_parts rfl rfl rfl rfl
theorem setWaiting (r : Nat) (l : List WaitReq) : s.Calm (s.setWaiting r l) := of_parts rfl rfl rfl rfl
theorem setThr (t : Nat) (x : Thr) : s.Calm (s.setThr t x) := of_parts rfl rfl rfl rfl
theorem setIq (q : Nat) (x : IQueue) : s.Calm (s.setIq q x) := of_parts rfl rfl rfl rfl
theorem setHring (n : Nat) (h : HostRing) : s.Calm (s.setHring n h) := withHost s _
theorem updHring (n : Nat) (f : HostRing → HostRing) : s.Calm (s.updHring n f) := withHost s _
theorem setHub (d : Nat) (h : HubRec) : s.Calm (s.setHub d h) := withStk s _
theorem setGalCell (i : Nat) (c : GalCell) : s.Calm (s.setGalCell i c) := withGal s _
theorem setGalArm (a : Nat) (x : GalArm) : s.Calm (s.setGalArm a x) := withGal s _
theorem setChan (c : Nat) (m : MiChan) : s.Calm (s.setChan c m) := of_parts rfl rfl rfl rfl
theorem tick : s.Calm s.tick := of_parts rfl rfl rfl rfl
theorem count (src n : Nat) : s.Calm (s.count src n) := of_raise (.count s src n)

theorem setPort (q : Nat) (p : Port) (h : q < 32 → p.lateOf = (s.port q).lateOf) : s.Calm (s.setPort q p) where
  eff := rfl
  clk := ⟨s.clk.stepAt, rfl⟩
  num := rfl
  late r hr := by
    by_cases hq : r = q
    · subst hq
      rw [State.port_setPort_same]
      exact h hr
    · rw [State.port_setPort_other s q r p hq]

theorem updPort (q : Nat) (f : Port → Port) (h : ∀ p, (f p).lateOf = p.lateOf) : s.Calm (s.updPort q f) :=
  setPort s q _ (fun _ => h _)

end Parts

/-! Raises. -/

theorem raise (s : State) (src : Nat) : s.Calm (s.raise src) := of_raise (.raise0 s src)

theorem raiseCell (s : State) (src c code : Nat) (hc : c < 1024) : s.Calm (s.raise src (some c) code) :=
  of_raise (.raise s src (some c) code (by simpa using hc))

theorem wrLive (s : State) (src : Nat) (b : Bool) : s.Calm (s.wrB ⟨R.FLT_LIVE (src / 32), src % 32, 1⟩ b) :=
  wrB s _ b (by simp only [R.FLT_LIVE, R.GEN_CYC_NUM]; omega)

theorem live (s : State) (src : Nat) (on : Bool) : s.Calm (s.live src on) :=
  (wrLive s src on).trans (of_raise (State.live_keeps s src on))

theorem liveCell (s : State) (src c : Nat) (hc : c < 1024) : s.Calm (s.liveCell src c) :=
  (wrLive s src true).trans (raiseCell _ src c 0 hc)

/-! Waiting and sending. -/

theorem defer (s : State) (i n : Nat) (h : R.GEN_CONT i ≠ R.GEN_CYC_NUM) : s.Calm (s.defer i n) :=
  ite (refl s) ((incSat s _ _ h).trans (count _ _ _))

theorem stkSend (s : State) (dst : Nat) (b : TitBody) : s.Calm (s.stkSend dst b) := of_raise (.stkSend s dst b)

theorem makeReady (s : State) (t : Nat) : s.Calm (s.makeReady t) := of_raise (.makeReady s t)

/-! Host rings. -/

theorem consume (s : State) (n : Nat) : s.Calm (s.consume n) := by
  unfold State.consume
  extract_lets nx s1
  have h : s.Calm s1 := wr s _ _ (by simp only [F.HQ_RING_STAT_HUB_IDX, R.GEN_CYC_NUM]; omega)
  exact h.trans (ite (wr s1 _ _ (by simp only [F.HQ_RING_STAT_PHASE, R.GEN_CYC_NUM]; omega)) (refl s1))

theorem ringWrite (s : State) (n e : Nat) : s.Calm (s.ringWrite n e) :=
  ((of_raise (.hostMem s _)).trans (consume (s.ringStore n e) n)).trans (of_raise (.ringSignal _ n))

theorem putComplAt (s : State) (n head cid status result cyc : Nat) : s.Calm (s.putComplAt n head cid status result cyc) :=
  ite (ringWrite s _ _) (updHring s _ _)

theorem putCompl (s : State) (n cid status result cyc : Nat) : s.Calm (s.putCompl n cid status result cyc) :=
  putComplAt s n _ cid status result cyc

theorem wrActive (s : State) (n : Nat) (b : Bool) : s.Calm (s.wrB (F.HQ_RING_STAT_ACTIVE n) b) :=
  wrB s _ b (by simp only [F.HQ_RING_STAT_ACTIVE, R.GEN_CYC_NUM]; omega)

theorem wrStall (s : State) (n : Nat) (b : Bool) : s.Calm (s.wrB (F.HQ_RING_STAT_STALL n) b) :=
  wrB s _ b (by simp only [F.HQ_RING_STAT_STALL, R.GEN_CYC_NUM]; omega)

theorem ringIdle (s : State) (n : Nat) : s.Calm (s.ringIdle n) := by
  unfold State.ringIdle
  extract_lets s1
  have h : s.Calm s1 := ((updHring s n _).trans (wrActive _ n _)).trans (wrStall _ n _)
  exact h.trans (ite ((updHring s1 n _).trans (wrB _ _ _ (by simp only [F.HQ_RING_CFG_EN, R.GEN_CYC_NUM]; omega))) (refl s1))

theorem finish (s : State) (n cid status result cyc : Nat) : s.Calm (s.finish n cid status result cyc) :=
  (putCompl s n cid status result cyc).trans (ringIdle _ n)

end State.Calm

end Sys2Proof.Machine
end

section
/-!
PROOFS. The ring ports at a cycle start (R52, R182, R210, R219): what a port's state, its delivery and a split of its ring
leave of the cycle.
-/

namespace Sys2Proof.Machine.State.Calm

/-! Port states. -/

theorem setPst (s : State) (q st : Nat) : s.Calm (s.setPst q st) :=
  wr s _ _ (by simp only [F.RP_STAT_STATE, R.GEN_CYC_NUM]; omega)

theorem showIdle (s : State) (q : Nat) : s.Calm (s.showIdle q) := by
  unfold State.showIdle
  exact updPort s q _ (by intro _; rfl)

theorem adaptEq (s : State) (q : Nat) : s.Calm (s.adaptEq q) :=
  ite (refl s) ((tick s).trans (setReg _ _ _ (by simp only [R.RP_EQ, R.GEN_CYC_NUM]; omega)))

theorem wrPfar (s : State) (q v : Nat) : s.Calm (s.wr (F.RP_STAT_PFAR q) v) :=
  wr s _ _ (by simp only [F.RP_STAT_PFAR, R.GEN_CYC_NUM]; omega)

theorem wrRole (s : State) (q v : Nat) : s.Calm (s.wr (F.RP_STAT_ROLE q) v) :=
  wr s _ _ (by simp only [F.RP_STAT_ROLE, R.GEN_CYC_NUM]; omega)

theorem startEnum (s : State) (q : Nat) : s.Calm (s.startEnum q) :=
  ((updPort s q _ (by intro _; rfl)).trans (setPst _ _ _)).trans (wrPfar _ _ _)

theorem splitTrigger (s : State) (r : Nat) : s.Calm (s.splitTrigger r) := ite (refl s) (updPort s r _ (by intro _; rfl))

theorem leaveLink (s : State) (q : Nat) : s.Calm (s.leaveLink q) :=
  (wrRole s q (s.roleOf q)).trans (ite (setPst _ _ _)
    (ite (((setPst _ _ _).trans (wrPfar _ _ _)).trans (live _ _ _)) (startEnum _ _)))

theorem wrLowrate (s : State) (q : Nat) (b : Bool) : s.Calm (s.wrB (F.RP_STAT_LOWRATE q) b) :=
  wrB s _ _ (by simp only [F.RP_STAT_LOWRATE, R.GEN_CYC_NUM]; omega)

theorem portOn (s : State) (q : Nat) : s.Calm (s.portOn q) :=
  ite (setPst s _ _) (((updPort s q _ (by intro _; rfl)).trans (wrLowrate _ _ _)).trans (setPst _ _ _))

theorem portMove (s : State) (q : Nat) : s.Calm (s.portMove q) := by
  unfold State.portMove
  extract_lets st s1 st1
  have on : s.Calm s1 := ite (portOn s q) (refl s)
  have down : s1.Calm (((s1.setPst q 1).live (0x100 + 8 * q) true).splitTrigger (s1.ringOfPort q)) :=
    ((setPst _ _ _).trans (live _ _ _)).trans (splitTrigger _ _)
  refine ite (ite (refl s) ((setPst _ _ _).trans (live _ _ _))) (on.trans ?_)
  exact ite (ite (refl s1) (leaveLink s1 q)) (ite (ite down (ite (setPst s1 q 1) (refl s1))) (refl s1))

theorem portStep (s : State) (q : Nat) : s.Calm (s.portStep q) := (portMove s q).trans (showIdle _ q)

theorem roleChange (s : State) (q : Nat) : s.Calm (s.roleChange q) :=
  ite (wrRole s q _) (((wrRole s q _).trans (setPst _ _ _)).trans (portStep _ _))

theorem portLol (s : State) (q : Nat) : s.Calm (s.portLol q) := by
  unfold State.portLol
  extract_lets s1 s2
  have h1 : s.Calm s1 := ((adaptEq s q).trans (wrB _ _ _ (by simp only [F.RP_STAT_LOCK, R.GEN_CYC_NUM]; omega))).trans
    (wrB _ _ _ (by simp only [F.RP_EQ_ADAPT, R.GEN_CYC_NUM]; omega))
  have h2 : s1.Calm s2 := ((wrB s1 _ _ (by simp only [F.RP_ERR_LOL, R.GEN_CYC_NUM]; omega)).trans
    (incSat _ _ _ (by simp only [F.RP_CNT_LINK_LOL, R.GEN_CYC_NUM]; omega))).trans (count _ _ _)
  exact ite (refl s) (((h1.trans h2).trans (updPort s2 q _ (by intro _; rfl))).trans (portStep _ _))

theorem rateSwitch (s : State) (q : Nat) : s.Calm (s.rateSwitch q) := by
  unfold State.rateSwitch
  split
  · extract_lets s1 s2 s3
    have h2 : s.Calm s2 := (updPort s q _ (by intro _; rfl)).trans (wrLowrate _ _ _)
    have h3 : s2.Calm s3 := ite (refl s2) (setPst _ _ _)
    exact ite (refl s) ((h2.trans h3).trans (portLol _ _))
  · exact refl s

/-! Delivery and lead. -/

theorem updLead (s : State) (a : Nat) : s.Calm (s.updLead a) := by
  have both (v w : Nat) : s.Calm ((s.wr (F.GEN_ARM_LEAD_LEAD a) v).wr (F.GEN_ARM_LEAD_SLOW_RING a) w) :=
    (wr s _ _ (by simp only [F.GEN_ARM_LEAD_LEAD, R.GEN_CYC_NUM]; omega)).trans
      (wr _ _ _ (by simp only [F.GEN_ARM_LEAD_SLOW_RING, R.GEN_CYC_NUM]; omega))
  unfold State.updLead
  split
  · exact both _ _
  · exact both _ _

theorem updLeads (s : State) : s.Calm s.updLeads := foldl _ _ (fun s a _ => updLead s a) s

theorem freshDelivery (s : State) (q : Nat) : s.Calm (s.freshDelivery q) := updPort s q _ (by intro _; rfl)

theorem wrBaseJ (s : State) (q v : Nat) : s.Calm (s.wr (F.GEN_RING_DLV_BASE_J q) v) :=
  wr s _ _ (by simp only [F.GEN_RING_DLV_BASE_J, R.GEN_CYC_NUM]; omega)

/-! Splits. -/

theorem wrSplit (s : State) (q : Nat) (b : Bool) : s.Calm (s.wrB (F.RP_STAT_SPLIT q) b) :=
  wrB s _ _ (by simp only [F.RP_STAT_SPLIT, R.GEN_CYC_NUM]; omega)

theorem splitRing (s : State) (r : Nat) : s.Calm (s.splitRing r) := by
  unfold State.splitRing
  extract_lets s1 s2 q s3 s4 s5 s6
  have h1 : s.Calm s1 := updPort s r _ (by intro _; rfl)
  have h2 : s1.Calm s2 := (wrSplit s1 r true).trans (wrB _ _ _ (by simp only [F.RP_ERR_SPLIT, R.GEN_CYC_NUM]; omega))
  have h4 : s2.Calm s4 := ((wrSplit s2 q true).trans (wrPfar _ q 0)).trans (wrBaseJ _ q 6)
  have h5 : s2.Calm s5 := ite ((h4.trans (updPort s4 q _ (by intro _; rfl))).trans (showIdle _ q))
    (setPort s2 (32 + r) {} (fun h => absurd h (by omega)))
  have h6 : s5.Calm s6 := updPort s5 r _ (by intro _; rfl)
  exact h1.trans (ite (refl s1) (((h2.trans (h5.trans h6)).trans (live _ _ _)).trans (updLeads _)))

theorem splitDue (s : State) : s.Calm s.splitDue := by
  refine foldl _ _ (fun s r _ => ?_) s
  split
  · exact ite (splitRing s r) (refl s)
  · exact refl s

end Sys2Proof.Machine.State.Calm
end

section
/-!
PROOFS. The words of the persistent bank, the mailboxes, the scales and the bank at a cycle start (R49, R103, R131, R540).
-/

namespace Sys2Proof.Machine.State.Calm

/-! The persistent bank. -/

theorem discardPw (s : State) : s.Calm s.discardPw := (incSat s _ _ (by decide)).trans (count _ _ _)

theorem releasePw (s : State) (w : PwWord) : s.Calm (s.releasePw w) := by
  unfold State.releasePw
  split
  · exact refl s
  · split
    · exact finish s _ _ _ _ _
    · exact refl s

theorem aceTopology (s : State) : s.Calm s.aceTopology := (wrB s _ _ (by decide)).trans (withAce _ _)

theorem judgePw (s : State) (w : PwWord) : s.Calm (s.judgePw w).1 := by
  unfold State.judgePw
  split
  · split
    · exact raise s _
    · exact ite (refl s) (aceTopology s)
  · split
    · extract_lets v
      split
      · exact raise s _
      · exact refl s
    · split
      · split
        · exact raise s _
        · exact refl s
      · split
        · extract_lets v floor
          split
          · exact wrB s _ _ (by decide)
          · exact refl s
        · exact refl s

theorem prbStart (fuel : Nat) (s : State) : s.Calm (State.prbStart fuel s) := by
  induction fuel generalizing s with
  | zero => exact refl s
  | succ f ih =>
    rw [State.prbStart]
    refine ite (refl s) ?_
    split
    · exact refl s
    · next w r _ =>
      extract_lets _ s1 j
      have h1 : s.Calm s1 := withPrb s _
      have hj : s.Calm j.1 := h1.trans (judgePw s1 w)
      refine ite ((h1.trans ((discardPw s1).trans (releasePw _ w))).trans (ih _)) ?_
      split
      · exact (hj.trans (releasePw _ w)).trans (ih _)
      · exact hj.trans (withPrb _ _)

theorem prbSlot (s : State) (news : List PwWord) : s.Calm (s.prbSlot news) := by
  unfold State.prbSlot
  refine ite (foldl _ _ (fun s w _ => (discardPw s).trans (releasePw _ w)) s) ?_
  extract_lets next kept held x fresh _ s1 l room granted s2 _ s3 late
  have h : s.Calm s3 := ((withPrb s _).trans (setWaiting s1 _ _)).trans (withPrb s2 _)
  exact (h.trans (defer s3 0 late.length (by decide))).trans (prbStart _ _)

theorem presentPw (s : State) (who : Requester) (off : Nat) (val : Word) : s.Calm (s.presentPw who off val) := prbSlot s _

/-! Mailboxes and host commits. -/

theorem setStgStat (s : State) (q v : Nat) : s.Calm (s.setStgStat q v) := withAce s _

theorem commitMbx (s : State) (q m : Nat) (words : List Word) : s.Calm (s.commitMbx q m words) :=
  ite (setStgStat s _ _) ((withAce s _).trans (setStgStat _ _ _))

theorem commitWords (s : State) : s.Calm s.commitWords := by
  refine foldl _ _ (fun s c _ => foldl _ _ (fun s w _ => setReg s _ _ ?_) s) s
  simp only [R.ACE_MBX, R.GEN_CYC_NUM]; omega

theorem commitMailboxes (s : State) : s.Calm s.commitMailboxes :=
  ((commitWords s).trans (withAce _ _)).trans (defer _ 2 _ (by decide))

theorem waitOn (s : State) (n : Nat) (w : RingWait) : s.Calm (s.waitOn n w) := (updHring s n _).trans (wrStall _ n true)

theorem mbxPresent (s : State) (n cid m : Nat) (words : List Word) : s.Calm (s.mbxPresent n cid m words) :=
  ((withAce s _).trans (commitMbx _ 4 m words)).trans (waitOn _ n _)

theorem hostGrants (s : State) : s.Calm s.hostGrants := by
  unfold State.hostGrants
  extract_lets s1
  have h : s.Calm s1 := by
    refine foldl _ _ (fun s n _ => ?_) s
    split
    · exact finish s _ _ _ _ _
    · exact refl s
  refine ite (refl s) (h.trans ?_)
  split
  · exact refl s1
  · split
    · exact mbxPresent s1 _ _ _ _
    · exact refl s1

theorem hostCycle (s : State) : s.Calm s.hostCycle := by
  refine foldl _ _ (fun s n _ => ?_) s
  split
  · exact ite (refl s) (finish s _ _ _ _ _)
  · exact refl s

theorem wakeCycle (s : State) : s.Calm s.wakeCycle := foldl _ _ (fun s p _ => makeReady s p.1) s

/-! Scales and bank. -/

theorem applyScales (s : State) : s.Calm s.applyScales := by
  refine ite ((?_ : s.Calm { s with miApply := false }).trans (foldl _ _ (fun s c _ => ?_) _)) (refl s)
  · exact of_parts rfl rfl rfl rfl
  · exact (setChan s c _).trans (ite (raise _ _) (refl _))

theorem capAbort (s : State) : s.Calm s.capAbort := (wr s _ _ (by decide)).trans (wrB _ _ _ (by decide))

theorem genAbort (s : State) : s.Calm s.genAbort :=
  (((withAce s _).trans (wr _ _ _ (by decide))).trans (wrB _ _ _ (by decide))).trans (ite (capAbort _) (refl _))

theorem bankSwitch (s : State) : s.Calm s.bankSwitch := by
  unfold State.bankSwitch
  extract_lets old oldArm s1 new kept _ s2 s3 b s4
  have h2 : s.Calm s2 := ((wrB s _ _ (by decide)).trans (wrB _ _ _ (by decide))).trans (withAce s1 _)
  have h4 : s3.Calm s4 := ite (genAbort s3) (refl s3)
  exact ite (((h2.trans (count s2 _ _)).trans h4).trans (ite (capAbort s4) (refl s4))) (refl s)

end Sys2Proof.Machine.State.Calm
end

section
/-!
PROOFS. The stack at a cycle start (R368, R378 to R386, R392 to R399): redundancy, presence, the newel, the exchange, TIME and the
arms.
-/

namespace Sys2Proof.Machine.State.Calm

/-! Redundancy states. -/

theorem setRed (s : State) (st : Nat) : s.Calm (s.setRed st) :=
  (((wr s _ _ (by decide)).trans (wrB _ _ _ (by decide))).trans (withStk _ _)).trans (live _ _ _)

theorem takeOver (s : State) (kf : Nat) (revert : Bool) : s.Calm (s.takeOver kf revert) :=
  ite ((setRed s 3).trans (withStk _ _)) ((wrB s _ _ (by decide)).trans (withStk (s.wrB F.STK_ERR_NO_TAKE true) _))

theorem deblockArm (s : State) (a : Nat) : s.Calm (s.deblockArm a) :=
  (wrB s _ _ (by simp only [F.HQ_ARM_STAT_DEBLOCKED, R.GEN_CYC_NUM]; omega)).trans
    (wrB _ _ _ (by simp only [F.HQ_ARM_STAT_CMD_BLK, R.GEN_CYC_NUM]; omega))

theorem blockArm (s : State) (a : Nat) : s.Calm (s.blockArm a) := by
  unfold State.blockArm
  extract_lets was s1
  have h : s.Calm s1 := (wrB s _ _ (by simp only [F.HQ_ARM_STAT_DEBLOCKED, R.GEN_CYC_NUM]; omega)).trans
    (wrB _ _ _ (by simp only [F.HQ_ARM_STAT_CMD_BLK, R.GEN_CYC_NUM]; omega))
  exact h.trans (ite (foldl _ _ (fun s q _ => freshDelivery s q) s1) (refl s1))

theorem firstFrame (s : State) (x : Take) : s.Calm (s.firstFrame x) := by
  unfold State.firstFrame
  extract_lets carry k s1 s2 s3 _ s4 s5
  have h1 : s.Calm s1 := setRed s 1
  have h2 : s1.Calm s2 := (setReg s1 _ _ (by decide)).trans (wr _ _ _ (by decide))
  have h3 : s2.Calm s3 := (ite (incSat s2 _ _ (by decide)) (incSat s2 _ _ (by decide))).trans (count _ _ _)
  have h4 : s3.Calm s4 := withStk s3 _
  have h5 : s4.Calm s5 := foldl _ _ (fun s a _ => ite (deblockArm s a) (refl s)) s4
  exact ((((h1.trans h2).trans h3).trans h4).trans h5).trans (raise s5 _)

theorem takePhase (s : State) : s.Calm s.takePhase := by
  unfold State.takePhase
  split
  · exact ite (withStk s _) (ite (withStk s _) (refl s))
  · exact refl s

theorem epochWrite (s : State) : s.Calm s.epochWrite := by
  unfold State.epochWrite
  split
  · exact (withStk s _).trans (presentPw _ _ _ _)
  · exact refl s

theorem resumeOver (s : State) : s.Calm s.resumeOver := by
  unfold State.resumeOver
  split
  · exact ite (withStk s _) (refl s)
  · exact refl s

theorem resignDue (s : State) : s.Calm s.resignDue := ite ((withStk s _).trans (setRed _ 2)) (refl s)

theorem takeGoesOn (s : State) : s.Calm s.takeGoesOn := by
  unfold State.takeGoesOn
  split
  · exact ite (firstFrame s _) (takePhase s)
  · exact refl s

theorem unitStart (s : State) : s.Calm s.unitStart := by
  unfold State.unitStart
  extract_lets s1 s2 s3 s4 s5
  have h1 : s.Calm s1 := ite (setRed s 2) (refl s)
  have h2 : s1.Calm s2 := ite (wrB s1 _ _ (by decide)) (refl s1)
  have h3 : s2.Calm s3 := resignDue s2
  have h4 : s3.Calm s4 := ite (setRed s3 4) (refl s3)
  have h5 : s4.Calm s5 := ite (takeOver s4 _ _) (refl s4)
  exact ((((h1.trans h2).trans h3).trans h4).trans h5).trans (takeGoesOn s5)

theorem redundancy (s : State) : s.Calm s.redundancy := by
  unfold State.redundancy
  extract_lets s1
  have h : s.Calm s1 := (epochWrite s).trans (resumeOver _)
  exact h.trans (ite (unitStart s1) ((ite (refl s1) (setRed s1 0)).trans (wrB _ _ _ (by decide))))

/-! Topology and fit. -/

theorem showTopology (s : State) : s.Calm s.showTopology := by
  unfold State.showTopology
  extract_lets s1 s2 s3 s4
  have h1 : s.Calm s1 := (wrB s _ _ (by decide)).trans (wrB _ _ _ (by decide))
  have h2 : s1.Calm s2 := foldl _ _ (fun s a _ => wr s _ _ (by decide : R.GEN_ARM_RINGS ≠ R.GEN_CYC_NUM)) s1
  have h3 : s2.Calm s3 := live s2 _ _
  have h4 : s3.Calm s4 := ite (foldl _ _ (fun s r _ => wrBaseJ s r 6) s3) (refl s3)
  exact (((h1.trans h2).trans h3).trans h4).trans (updLeads s4)

theorem fitUpdate (s : State) : s.Calm s.fitUpdate := by
  unfold State.fitUpdate
  extract_lets qs ret worst m was now s1 s2
  have h : s.Calm s2 := ((wrB s _ _ (by decide)).trans (wr _ _ _ (by decide))).trans (wr s1 _ _ (by decide))
  exact h.trans (ite (live s2 _ _) (ite (live s2 _ _) (refl s2)))

/-! Blocks, the newel, the exchange and TIME. -/

theorem refreshStat (s : State) : s.Calm s.refreshStat :=
  ((wr s _ _ (by decide)).trans (wrB _ _ _ (by decide))).trans (wrB _ _ _ (by decide))

theorem ageBlocks (s : State) : s.Calm s.ageBlocks := (withFlt s _).trans (refreshStat _)

theorem showNewel (s : State) (n : Nat) : s.Calm (s.showNewel n) :=
  ((wr s _ _ (by decide)).trans (wrB _ _ _ (by decide))).trans (wrB _ _ _ (by decide))

theorem determineNewel (s : State) : s.Calm s.determineNewel := by
  unfold State.determineNewel
  extract_lets now _ s1 s2
  have h : s.Calm s2 := (withStk s _).trans (showNewel s1 _)
  refine h.trans ?_
  split
  · exact refl s2
  · exact ite (withStk s2 _) (refl s2)

theorem exchange (s : State) : s.Calm s.exchange := by
  unfold State.exchange
  extract_lets div w s1 k hubs r _ _ s2
  have h1 : s.Calm s1 := ite ((withStk s _).trans (stkSend _ _ _)) (refl s)
  have hr : s1.Calm r.1 := by
    refine foldl_fst _ _ (fun r d _ => ?_) (s1, [])
    dsimp only
    split
    · exact refl _
    · exact foldl _ _ (fun s j _ => setReg s _ _ (by simp only [R.STK_EX_RX, R.GEN_CYC_NUM]; omega)) _
  exact h1.trans (ite (refl s1) ((hr.trans (withStk r.1 _)).trans (wr s2 _ _ (by decide))))

theorem withStepAt (s : State) (x : Option (Nat × Int)) : s.Calm { s with clk := { s.clk with stepAt := x } } where
  eff := rfl
  clk := ⟨x, rfl⟩
  num := rfl
  late _ _ := rfl

theorem nameStep (s : State) : s.Calm s.nameStep := by
  unfold State.nameStep
  split
  · exact ite (withStepAt s _) (withStepAt s _)
  · exact ite (withStepAt s _) (refl s)

theorem sendTime (s : State) : s.Calm s.sendTime := ite ((nameStep s).trans (stkSend _ _ _)) (refl s)

/-! Presence. -/

theorem showHubs (s : State) : s.Calm s.showHubs := by
  unfold State.showHubs
  extract_lets me pres set others recent s1 s2 s3 s4 lost s5 _ _
  have h4 : s.Calm s4 := ((((wr s _ _ (by decide)).trans (wr _ _ _ (by decide))).trans (wr s1 _ _ (by decide))).trans
    (wrB s2 _ _ (by decide))).trans (wrB s3 _ _ (by decide))
  have h5 : s4.Calm s5 := live s4 _ _
  refine (h4.trans h5).trans ?_
  split
  · exact ite (refl s5) ((live s5 _ _).trans (withStk (s5.live 0x000 false) _))
  · exact refl s5

theorem showLats (s : State) : s.Calm s.showLats :=
  foldl _ _ (fun s d _ => ite (refl s) ((setHub s d _).trans
    (wr _ _ _ (by simp only [F.STK_HB_LAT_LAT, R.GEN_CYC_NUM]; omega)))) s

theorem checkJournal (s : State) : s.Calm s.checkJournal := by
  unfold State.checkJournal
  split
  · exact ite (wrB s _ _ (by decide)) (refl s)
  · exact refl s

theorem checkSnap (s : State) : s.Calm s.checkSnap := ite ((withStk s _).trans (raise _ _)) (refl s)

theorem showReady (s : State) : s.Calm s.showReady := by
  unfold State.showReady
  extract_lets rdy par s1 s2 now
  have h1 : s.Calm s1 := ((wrB s _ _ (by decide)).trans (wrB _ _ _ (by decide))).trans (wrB _ _ _ (by decide))
  have h2 : s1.Calm s2 := ite (wrB s1 _ _ (by decide)) (wrB s1 _ _ (by decide))
  exact (h1.trans h2).trans (withStk s2 _)

/-! Arms and commits. -/

theorem armsAtStart (s : State) : s.Calm s.armsAtStart :=
  (withHost s _).trans (foldl _ _ (fun s a _ => ite (blockArm s a) (ite (deblockArm s a) (refl s))) _)

theorem commitsAtStart (s : State) : s.Calm s.commitsAtStart := withHost s _

theorem commitsDone (s : State) : s.Calm s.commitsDone := withHost s _

theorem endOwed (s : State) : s.Calm s.endOwed := withFlt s _

end Sys2Proof.Machine.State.Calm
end

section
/-!
PROOFS. The frames of a cycle (R52, R145, R190 to R198, R208, R222, R383): their emission, and the gallery's record of them,
leave the cycle alone; so does the journal record before it.
-/

namespace Sys2Proof.Machine.State.Calm

/-! Emission. -/

theorem placeCarts (s : State) (r : Nat) (near far : Bool) : s.Calm (s.placeCarts r near far).1 := by
  unfold State.placeCarts
  extract_lets p sides reqs x rtt x1 s1 go s2
  have h1 : s.Calm s1 := setPort s r _ (fun _ => rfl)
  have h2 : s1.Calm s2 := by
    clear_value go
    cases go with
    | none => exact refl s1
    | some c =>
      exact ite ((updPort s1 r _ (by intro _; rfl)).trans (updPort _ (r + 1) _ (by intro _; rfl)))
        (updPort s1 r _ (by intro _; rfl))
  exact (h1.trans h2).trans (defer s2 3 _ (by decide))

theorem emit (s : State) (q r : Nat) (e : Time) (enum : Bool) (dir pfar hop : Nat) (carts : List CartReq) :
    s.Calm (s.emit q r e enum dir pfar hop carts) := by
  unfold State.emit
  extract_lets d p block ftype h slots f sent s1 s2
  have h1 : s.Calm s1 := setPort s q _ (fun _ => rfl)
  have h2 : s1.Calm s2 := wrPfar s1 q pfar
  refine ite (refl s) ((h1.trans h2).trans (ite (refl s2) (foldl _ _ (fun s x _ => ?_) s2)))
  split
  · exact of_parts rfl rfl rfl rfl
  · exact refl s

theorem relay (s : State) (r : Nat) (carts : List CartReq) : s.Calm (s.relay r carts) := by
  unfold State.relay
  extract_lets dir q p pfar hop slots sent s1 hub
  have h1 : s.Calm s1 := setPort s q _ (fun _ => rfl)
  exact h1.trans (stkSend s1 _ _)

theorem emitRing (off : Nat → Time) (s : State) (r : Nat) : s.Calm (State.emitRing off s r) := by
  unfold State.emitRing
  extract_lets st near fq far x s1 dir enum pfar hop s2
  have h1 : s.Calm s1 := placeCarts s r near far
  have h2 : s1.Calm s2 := ite (refl s1) (emit s1 _ _ _ _ _ _ _ _)
  refine ite (refl s) ((h1.trans h2).trans ?_)
  clear_value fq
  cases fq with
  | some q => exact ite (refl s2) (ite (emit s2 _ _ _ _ _ _ _ _) (relay s2 _ _))
  | none => exact refl s2

/-! The gallery's record. -/

theorem wrLevel (s : State) (i v : Nat) : s.Calm (s.wr (F.GAL_CELL_STAT_LEVEL i) v) :=
  wr s _ _ (by simp only [F.GAL_CELL_STAT_LEVEL, R.GEN_CYC_NUM]; omega)

theorem recordCell (s : State) (a i : Nat) (t : Time) : s.Calm (s.recordCell a i t) := by
  unfold State.recordCell
  extract_lets x c keep t0 c1 s1 s2
  have h : s.Calm s2 := (setGalCell s i _).trans (wr s1 _ _ (by simp only [F.GAL_CELL_SW_CSW, R.GEN_CYC_NUM]; omega))
  exact (h.trans (incWrap s2 _ _ (by simp only [F.GAL_CELL_EDGES_EDGES, R.GEN_CYC_NUM]; omega))).trans (wrLevel _ i _)

theorem recordBlocked (s : State) (block : Bool) (i : Nat) (t : Time) : s.Calm (s.recordBlocked block i t) :=
  (setGalCell s i _).trans (wrLevel _ i 0)

theorem bandCycle (s : State) (a e : Nat) : s.Calm (s.bandCycle a e) := setGalArm s a _

theorem recordArm (s : State) (a : Nat) (block : Bool) : s.Calm (s.recordArm a block) := by
  unfold State.recordArm
  extract_lets t _ s1 g cells s2 _ e s3
  have h1 : s.Calm s1 := setGalArm s a _
  have h2 : s1.Calm s2 := foldl _ _ (fun s i _ => recordBlocked s block i t) s1
  have h3 : s1.Calm s3 := foldl _ _ (fun s i _ => recordCell s a i t) s1
  exact h1.trans (ite (h2.trans (ite (setGalArm s2 a _) (refl s2))) ((h3.trans (bandCycle s3 a e)).trans (count _ _ _)))

theorem recordResume (s : State) (a : Nat) : s.Calm (s.recordResume a) :=
  foldl _ _ (fun s i _ => (setGalCell s i _).trans (wrLevel _ i _)) s

theorem resumeCount (s : State) (a : Nat) : s.Calm (s.resumeCount a) := withAce s _

theorem noteFrame (s : State) (blocked : Nat → Bool) : s.Calm (s.noteFrame blocked) := withRecd s _

theorem emitFrames (s : State) (off : List Nat) : s.Calm (s.emitFrames off) := by
  unfold State.emitFrames
  extract_lets s1 s2
  have h1 : s.Calm s1 := noteFrame s _
  have h2 : s1.Calm s2 := foldl _ _ (fun s r _ => emitRing _ s r) s1
  refine ite (noteFrame s _) ((h1.trans h2).trans (foldl _ _ (fun s a _ => ?_) s2))
  exact ite ((recordResume s a).trans (ite (refl _) (resumeCount _ a))) (recordArm s a _)

end Sys2Proof.Machine.State.Calm
end

section
/-!
PROOFS. CYCLE_START (R48 to R51): the journal record of the cycle that ends, the next cycle's instant, number and copies, and all
that happens at the start, which leaves them.
-/

namespace Sys2Proof.Machine

/-! The journal record (R378). -/

theorem RaiseKeeps.stk (s : State) (x : StkSt) : RaiseKeeps s { s with stk := x } :=
  .of_regs rfl rfl rfl rfl rfl rfl rfl rfl rfl rfl rfl rfl rfl rfl rfl rfl rfl rfl rfl rfl rfl rfl

/-- What the journal record of a cycle leaves: of the registers it may raise the count of deferred messages alone. -/
theorem State.sendJournal_keeps (s : State) (k : Nat) : RaiseKeeps s (s.sendJournal k) ∧
    (s.sendJournal k).stk.setCyc = s.stk.setCyc ∧ ∀ o, o ≠ R.GEN_CONT 5 → (s.sendJournal k).reg o = s.reg o := by
  unfold State.sendJournal
  split
  · exact ⟨.refl s, rfl, fun _ _ => rfl⟩
  · extract_lets j s1
    have sent (t : State) (dst : Nat) (b : TitBody) : (t.stkSend dst b).stk.setCyc = t.stk.setCyc := by
      obtain ⟨_, _, h⟩ := State.OnlySends.stkSend t dst b
      rw [h]
    have noted : ∃ x : StkSt, s.noteSent j = { s with stk := x } ∧ x.setCyc = s.stk.setCyc := by
      unfold State.noteSent
      exact ⟨_, rfl, rfl⟩
    obtain ⟨x, hx, hcyc⟩ := noted
    have hs1 : s1 = ({ s with stk := x } : State).stkSend s.partner (.journal j) := by rw [← hx]
    have keeps : RaiseKeeps s s1 := by
      rw [hs1]
      exact (RaiseKeeps.stk s x).trans (.stkSend _ _ _)
    have cyc1 : s1.stk.setCyc = s.stk.setCyc := by rw [hs1, sent, hcyc]
    have regs1 (o : Nat) (ho : o ≠ R.GEN_CONT 5) : s1.reg o = s.reg o := by
      rw [hs1]
      exact State.reg_stkSend _ _ _ ho
    split
    · exact ⟨keeps.trans (.stkSend _ _ _), (sent s1 _ _).trans cyc1,
        fun o ho => (s1.reg_stkSend _ _ ho).trans (regs1 o ho)⟩
    · exact ⟨keeps, cyc1, regs1⟩

/-! The start. -/

theorem State.anyDeblocked_congr {s u : State}
    (h : ∀ a < 6, u.reg (F.HQ_ARM_STAT_DEBLOCKED a).reg = s.reg (F.HQ_ARM_STAT_DEBLOCKED a).reg) :
    u.anyDeblocked = s.anyDeblocked := by
  rw [State.anyDeblocked, State.anyDeblocked, Bool.eq_iff_iff, List.any_eq_true, List.any_eq_true]
  refine exists_congr fun a => and_congr_right fun ha => ?_
  rw [State.deblocked, State.deblocked, State.rdB_congr (h a (List.mem_range.1 ha))]

theorem State.Calm.alignChan (s : State) (c : Nat) : s.Calm (s.alignChan c) :=
  ite ((setChan s c _).trans ((setBit _ _ _ _ (by decide)).trans
    (wrB _ _ _ (by simp only [F.MI_CHSTAT_ALIGNED, R.GEN_CYC_NUM]; omega)))) (refl s)

theorem State.Calm.firstAlign (s : State) : s.Calm s.firstAlign :=
  foldl _ _ (fun s c _ => ite (alignChan s c) (refl s)) s

/-- The number of the next cycle (R49, R397). -/
def State.nextNumber (s : State) : Nat :=
  (if s.clk.started then
    (match s.stk.setCyc with | some n => (if s.anyDeblocked then s.cyc else n) + 1 | none => s.cyc + 1)
  else 0) % 2 ^ 32

theorem State.numbered_spec (s : State) (k : Nat) (b : Bool) :
    (((s.wr F.GEN_CYC_NUM_NUM k).wrB F.HT_STAT_ALIGNING b).count 0x001).eff = s.eff ∧
    (((s.wr F.GEN_CYC_NUM_NUM k).wrB F.HT_STAT_ALIGNING b).count 0x001).clk = s.clk ∧
    (((s.wr F.GEN_CYC_NUM_NUM k).wrB F.HT_STAT_ALIGNING b).count 0x001).cyc = k % 2 ^ 32 := by
  refine ⟨?_, ?_, ?_⟩
  · rw [State.count_eff, State.wrB_eff, State.wr_eff]
  · rw [State.count_clk, State.wrB_clk, State.wr_clk]
  · rw [State.cyc, State.rd_count]
    exact (State.rd_wr_reg _ _ _ _ (by decide)).trans (State.rd_wr_same _ _ _ (by decide))

theorem State.Calm.cyc {s u : State} (h : s.Calm u) : u.cyc = s.cyc := State.rd_congr h.num

/-- The next cycle: its instant, its number, and the copies that take effect. -/
theorem State.beginCycle_spec (s : State) : s.beginCycle.eff = s.regs ∧ s.beginCycle.clk.started = true ∧
    s.beginCycle.clk.tkHall = s.nextStart ∧ s.beginCycle.cyc = s.nextNumber := by
  unfold State.beginCycle
  extract_lets h s1 k tk k1 old first s2 moved since _ _ s3 s4
  have regs1 : s1.regs = s.regs := State.advanceHall_regs s h
  have number : k1 = s.nextNumber := by
    have started : s1.clk.started = s.clk.started := State.started_advanceHall s h
    have stk : s1.stk = s.stk := State.advanceHall_stk s h
    have cyc : s1.cyc = s.cyc := State.rd_advanceHall s h _
    have any : s1.anyDeblocked = s.anyDeblocked := State.anyDeblocked_congr (fun a _ => State.reg_advanceHall s h _)
    have hk : k = if s.clk.started then
        (match s.stk.setCyc with | some n => (if s.anyDeblocked then s.cyc else n) + 1 | none => s.cyc + 1) else 0 := by
      simp only [k, started, stk, cyc, any]
      cases s.clk.started with
      | false => rfl
      | true =>
        cases s.stk.setCyc with
        | none => rfl
        | some n => cases s.anyDeblocked <;> rfl
    exact congrArg (· % 2 ^ 32) hk
  have eff3 : s3.eff = s.regs := regs1
  have clk3 : s3.clk.started = true ∧ s3.clk.tkHall = s.nextStart := ⟨rfl, rfl⟩
  have mod1 : k1 % 2 ^ 32 = k1 := Nat.mod_mod _ _
  clear_value s3 k1
  obtain ⟨eff4, clk4, cyc4⟩ : s4.eff = s3.eff ∧ s4.clk = s3.clk ∧ s4.cyc = k1 % 2 ^ 32 := s3.numbered_spec k1 _
  clear_value s4
  have last : s4.Calm (if first then s4.firstAlign else s4) := .ite (.firstAlign s4) (.refl s4)
  obtain ⟨x, hx⟩ := last.clk
  rw [clk4] at hx
  refine ⟨last.eff.trans (eff4.trans eff3), ?_, ?_, ?_⟩
  · rw [hx]
    exact clk3.1
  · rw [hx]
    exact clk3.2
  · rw [last.cyc, cyc4, mod1, number]

/-- Everything at a cycle start that comes after the cycle has begun. -/
def State.startRest (off : List Nat) (s : State) : State :=
  let s := s.showTopology.redundancy
  let s := (List.range 32).foldl State.roleChange s
  let s := (List.range 32).foldl (fun (s : State) q => if s.pst q = 0 then s.portStep q else s) s
  let s := (List.range 32).foldl (fun (s : State) q =>
    match (s.port q).rateAt with | some (k, _) => if k = s.cyc then s.rateSwitch q else s | none => s) s
  let s := (s.splitDue).commitMailboxes.hostGrants
  let s := (s.applyScales.bankSwitch).ageBlocks
  let s := s.determineNewel.exchange.sendTime
  let s := s.showHubs.showLats.checkJournal.checkSnap.showReady
  let s := s.fitUpdate.armsAtStart.commitsAtStart
  let s := s.emitFrames off
  (s.endOwed.commitsDone.hostCycle).wakeCycle

theorem cycleStart_eq (off : List Nat) (s : State) : cycleStart off s =
    State.startRest off (if s.clk.started then s.sendJournal s.cyc else s).beginCycle := rfl

theorem State.Calm.startRest (off : List Nat) (s : State) : s.Calm (State.startRest off s) := by
  unfold State.startRest
  extract_lets s1 s2 s3 s4 s5 s6 s7 s8 s9 s10
  have h1 : s.Calm s1 := (showTopology s).trans (redundancy _)
  have h2 : s1.Calm s2 := foldl _ _ (fun s q _ => roleChange s q) s1
  have h3 : s2.Calm s3 := foldl _ _ (fun s q _ => ite (portStep s q) (refl s)) s2
  have h4 : s3.Calm s4 := by
    refine foldl _ _ (fun s q _ => ?_) s3
    split
    · exact ite (rateSwitch s q) (refl s)
    · exact refl s
  have h5 : s4.Calm s5 := ((splitDue s4).trans (commitMailboxes _)).trans (hostGrants _)
  have h6 : s5.Calm s6 := ((applyScales s5).trans (bankSwitch _)).trans (ageBlocks _)
  have h7 : s6.Calm s7 := ((determineNewel s6).trans (exchange _)).trans (sendTime _)
  have h8 : s7.Calm s8 := ((((showHubs s7).trans (showLats _)).trans (checkJournal _)).trans (checkSnap _)).trans (showReady _)
  have h9 : s8.Calm s9 := ((fitUpdate s8).trans (armsAtStart _)).trans (commitsAtStart _)
  have h10 : s9.Calm s10 := emitFrames s9 off
  have h11 : s10.Calm _ := (((endOwed s10).trans (commitsDone _)).trans (hostCycle _)).trans (wakeCycle _)
  exact h1.trans (h2.trans (h3.trans (h4.trans (h5.trans (h6.trans (h7.trans (h8.trans (h9.trans (h10.trans h11)))))))))

theorem RaiseKeeps.nextStart {s u : State} (h : RaiseKeeps s u) : u.nextStart = s.nextStart := by
  have cycT : u.cycT = s.cycT := by rw [State.cycT, State.cycT, State.cycNs, State.cycNs, State.erd, State.erd, State.ereg,
    State.ereg, h.eff]
  have aligning : u.rdB F.HT_STAT_ALIGNING = s.rdB F.HT_STAT_ALIGNING :=
    State.rdB_congr (h.reg _ (by simp [quietReg, F.HT_STAT_ALIGNING]))
  rw [State.nextStart, State.nextStart, cycT, aligning, h.clk]

/-- CYCLE_START. -/
theorem cycleStart_spec (off : List Nat) (s : State) : (cycleStart off s).clk.started = true ∧
    (cycleStart off s).clk.tkHall = s.nextStart ∧ (∀ o, o ≠ R.GEN_CONT 5 → (cycleStart off s).ereg o = s.reg o) ∧
    (cycleStart off s).cyc = s.nextNumber := by
  have before : ∃ x : State, (if s.clk.started then s.sendJournal s.cyc else s) = x ∧ RaiseKeeps s x ∧
      x.stk.setCyc = s.stk.setCyc ∧ ∀ o, o ≠ R.GEN_CONT 5 → x.reg o = s.reg o := by
    split
    · exact ⟨_, rfl, s.sendJournal_keeps s.cyc⟩
    · exact ⟨s, rfl, .refl s, rfl, fun _ _ => rfl⟩
  obtain ⟨x, hx, keeps, setCyc, regs⟩ := before
  obtain ⟨eff, started, tkHall, cyc⟩ := x.beginCycle_spec
  have calm := State.Calm.startRest off x.beginCycle
  obtain ⟨y, hclk⟩ := calm.clk
  rw [cycleStart_eq, hx]
  refine ⟨by rw [hclk]; exact started, ?_, fun o ho => ?_, ?_⟩
  · rw [hclk]
    exact tkHall.trans (keeps.nextStart)
  · rw [State.ereg, calm.eff, eff]
    exact regs o ho
  · have num : x.cyc = s.cyc := State.rd_congr (regs _ (by decide))
    have any : x.anyDeblocked = s.anyDeblocked := State.anyDeblocked_congr (fun a ha => keeps.reg _ (by
      simp only [quietReg, F.HQ_ARM_STAT_DEBLOCKED]; omega))
    rw [calm.cyc, cyc, State.nextNumber, State.nextNumber, keeps.clk, setCyc, num, any]

end Sys2Proof.Machine
end

section
/-!
PROOFS. GALLERY_DEADLINE (R63 to R68): each frame is judged at its own port, and what the judgement of one port leaves is kept by
those of the others and by what the gallery takes.
-/

namespace Sys2Proof.Machine

/-- The number of the late source of port `q`. -/
def lateSrc (q : Nat) : Nat := 0x102 + 8 * q

/-- From `s` to `u` port `q` has kept all that the judgement of its frames reads and writes. -/
structure State.KeepsLate (s : State) (q : Nat) (u : State) : Prop where
  eff : u.eff = s.eff
  port : u.port q = s.port q
  count : u.reg (R.GEN_RING_LATE q) = s.reg (R.GEN_RING_LATE q)
  live : u.liveBit (lateSrc q) = s.liveBit (lateSrc q)
  split : u.split q = s.split q

namespace State.KeepsLate

theorem of_parts {s u : State} {q : Nat} (he : u.eff = s.eff) (hp : u.ports = s.ports) (hr : u.regs = s.regs) :
    s.KeepsLate q u where
  eff := he
  port := by rw [State.port, State.port, hp]
  count := by rw [State.reg, State.reg, hr]
  live := State.rdB_congr (by rw [State.reg, State.reg, hr])
  split := State.rdB_congr (by rw [State.reg, State.reg, hr])

theorem refl (s : State) (q : Nat) : s.KeepsLate q s := of_parts rfl rfl rfl

theorem trans {s t u : State} {q : Nat} (h : s.KeepsLate q t) (k : t.KeepsLate q u) : s.KeepsLate q u where
  eff := k.eff.trans h.eff
  port := k.port.trans h.port
  count := k.count.trans h.count
  live := k.live.trans h.live
  split := k.split.trans h.split

theorem of_raise {s u : State} {q : Nat} (hq : q < 32) (h : RaiseKeeps s u) : s.KeepsLate q u where
  eff := h.eff
  port := by rw [State.port, State.port, h.ports]
  count := h.reg _ (by simp only [quietReg, R.GEN_RING_LATE]; omega)
  live := State.rdB_congr (h.reg _ (by simp only [quietReg, R.FLT_LIVE, lateSrc]; omega))
  split := State.rdB_congr (h.reg _ (by simp only [quietReg, F.RP_STAT_SPLIT]; omega))

theorem foldl {α : Type} {q : Nat} (f : State → α → State) (l : List α) (h : ∀ (s : State), ∀ x ∈ l, s.KeepsLate q (f s x))
    (s : State) : s.KeepsLate q (l.foldl f s) := by
  induction l generalizing s with
  | nil => exact refl s q
  | cons x l ih => exact (h s x (by simp)).trans (ih (fun s y hy => h s y (by simp [hy])) _)

/-- A register that is none of the port's. -/
theorem wr {q : Nat} (s : State) (f : Fld) (v : Nat) (hc : f.reg ≠ R.GEN_RING_LATE q) (hl : f.reg ≠ R.FLT_LIVE (lateSrc q / 32))
    (hs : f.reg ≠ (F.RP_STAT_SPLIT q).reg) : s.KeepsLate q (s.wr f v) where
  eff := rfl
  port := rfl
  count := State.reg_wr_other s f v _ hc.symm
  live := State.rdB_congr (State.reg_wr_other s f v _ hl.symm)
  split := State.rdB_congr (State.reg_wr_other s f v _ hs.symm)

/-- The register of another port's judgement. -/
theorem wrOther {q n : Nat} (hn : n < 32) (h : n ≠ q) (s : State) (f : Fld) (v : Nat)
    (hf : f.reg = R.GEN_RING_LATE n) : s.KeepsLate q (s.wr f v) := by
  refine wr s f v ?_ ?_ ?_ <;> rw [hf] <;> simp only [R.GEN_RING_LATE, R.FLT_LIVE, F.RP_STAT_SPLIT] <;> omega

/-- The late condition of another port. -/
theorem liveOther {q n : Nat} (hq : q < 32) (h : n ≠ q) (s : State) (on : Bool) :
    s.KeepsLate q (s.live (lateSrc n) on) := by
  refine trans (t := s.wrB (liveFld (lateSrc n)) on) ?_ (of_raise hq (State.live_keeps s _ on))
  refine ⟨rfl, rfl, ?_, ?_, ?_⟩
  · exact State.reg_wr_other _ _ _ _ (by simp only [liveFld, R.FLT_LIVE, R.GEN_RING_LATE]; omega)
  · have hne : lateSrc q ≠ lateSrc n := by simp only [lateSrc]; omega
    refine congrArg (· != 0) ?_
    by_cases hr : lateSrc q / 32 = lateSrc n / 32
    · exact State.rd_wr_fld s (liveFld (lateSrc n)) (liveFld (lateSrc q)) _ (by simp only [liveFld]; omega)
        (by simp only [liveFld]; omega)
    · exact State.rd_wr_reg s (liveFld (lateSrc n)) (liveFld (lateSrc q)) _ (by simp only [liveFld, R.FLT_LIVE]; omega)
  · exact State.rdB_congr (State.reg_wr_other _ _ _ _ (by simp only [liveFld, R.FLT_LIVE, F.RP_STAT_SPLIT]; omega))

theorem updPortOther {q p : Nat} (h : p ≠ q) (s : State) (f : Port → Port) : s.KeepsLate q (s.updPort p f) where
  eff := rfl
  port := State.port_updPort_other s p q f h.symm
  count := rfl
  live := rfl
  split := rfl

/-- A frame of another port is judged. -/
theorem judgeLate {q : Nat} (hq : q < 32) (s : State) (k p r : Nat) (hp : p ≠ q) (hn : (if p < 32 then p else r) ≠ q)
    (hr : r < 32) : s.KeepsLate q (s.judgeLate k p r) := by
  unfold State.judgeLate
  extract_lets n
  have hn32 : n < 32 := by
    show (if p < 32 then p else r) < 32
    split <;> omega
  split
  · exact refl s q
  · split
    · exact (wrOther hn32 hn s _ _ rfl).trans (liveOther hq hn _ false)
    · unfold State.lateTrain
      extract_lets s1 s2 s3 lim
      have h1 : s.KeepsLate q s1 := ((wrOther hn32 hn s _ _ rfl).trans (wrOther hn32 hn _ _ _ rfl)).trans
        (of_raise hq (.count _ _ _))
      have h2 : s1.KeepsLate q s2 := updPortOther hp s1 _
      have h3 : s2.KeepsLate q s3 := of_raise hq (.recd s2 _)
      split
      · exact ((h1.trans h2).trans h3).trans (liveOther hq hn s3 true)
      · exact (h1.trans h2).trans h3

/-- What the cells of a ring take, or keep. -/
theorem feedGallery {q : Nat} (hq : q < 32) (s : State) (k r : Nat) (hr : r < 32) : s.KeepsLate q (s.feedGallery k r) := by
  refine foldl _ _ (fun s p hp => ?_) s
  have hp32 : p < 32 := List.mem_range.1 (List.mem_filter.1 hp).1
  have cell (s : State) (i : Nat) (c : GalCell) : s.KeepsLate q (s.setGalCell i c) := of_parts rfl rfl rfl
  split
  · refine (cell s _ _).trans (wr _ _ _ ?_ ?_ ?_)
    · simp only [F.GAL_CELL_MEAS_TEMP, R.GEN_RING_LATE]; omega
    · simp only [F.GAL_CELL_MEAS_TEMP, R.FLT_LIVE]; omega
    · simp only [F.GAL_CELL_MEAS_TEMP, F.RP_STAT_SPLIT]; omega
  · exact cell s _ _

end State.KeepsLate

/-! The judgement of a port. -/

theorem State.rd_of_keepsLate {s u : State} {q : Nat} (h : s.KeepsLate q u) :
    u.rd (F.GEN_RING_LATE_COUNT q) = s.rd (F.GEN_RING_LATE_COUNT q) ∧
      u.rd (F.GEN_RING_LATE_RUN q) = s.rd (F.GEN_RING_LATE_RUN q) :=
  ⟨State.rd_congr h.count, State.rd_congr h.count⟩

/-- The fields of a ring's late counters fit their word and do not meet. -/
theorem State.rd_lateCount_wr_run (s : State) (q v : Nat) :
    (s.wr (F.GEN_RING_LATE_RUN q) v).rd (F.GEN_RING_LATE_COUNT q) = s.rd (F.GEN_RING_LATE_COUNT q) :=
  State.rd_wr_fld _ _ _ _ (by simp only [F.GEN_RING_LATE_COUNT]; omega)
    (by simp only [F.GEN_RING_LATE_COUNT, F.GEN_RING_LATE_RUN]; omega)

theorem State.rd_lateRun_wr_count (s : State) (q v : Nat) :
    (s.wr (F.GEN_RING_LATE_COUNT q) v).rd (F.GEN_RING_LATE_RUN q) = s.rd (F.GEN_RING_LATE_RUN q) :=
  State.rd_wr_fld _ _ _ _ (by simp only [F.GEN_RING_LATE_RUN]; omega)
    (by simp only [F.GEN_RING_LATE_COUNT, F.GEN_RING_LATE_RUN]; omega)

theorem State.rd_lateRun_wr_same (s : State) (q v : Nat) :
    (s.wr (F.GEN_RING_LATE_RUN q) v).rd (F.GEN_RING_LATE_RUN q) = v % 2 ^ 4 :=
  State.rd_wr_same _ _ _ (by simp only [F.GEN_RING_LATE_RUN]; omega)

theorem State.rd_lateCount_wr_same (s : State) (q v : Nat) :
    (s.wr (F.GEN_RING_LATE_COUNT q) v).rd (F.GEN_RING_LATE_COUNT q) = v % 2 ^ 16 :=
  State.rd_wr_same _ _ _ (by simp only [F.GEN_RING_LATE_COUNT]; omega)

/-- A register that neither a live condition nor what it raises writes. -/
def stillReg (o : Nat) : Prop := quietReg o ∧ (o < 0x3C00C0 ∨ 0x3C1000 ≤ o)

theorem stillReg_late {q : Nat} (hq : q < 32) : stillReg (R.GEN_RING_LATE q) := by
  simp only [stillReg, quietReg, R.GEN_RING_LATE]
  omega

theorem stillReg_split {q : Nat} (hq : q < 32) : stillReg (F.RP_STAT_SPLIT q).reg := by
  simp only [stillReg, quietReg, F.RP_STAT_SPLIT]
  omega

theorem State.reg_live_still (s : State) {src : Nat} (on : Bool) {o : Nat} (h : stillReg o) (hs : src < 544) :
    (s.live src on).reg o = s.reg o := by
  obtain ⟨quiet, outside⟩ := h
  rw [(State.live_keeps s src on).reg _ quiet]
  exact State.reg_wr_other _ _ _ _ (by simp only [liveFld, R.FLT_LIVE]; omega)

/-- A frame that came on time (R65). -/
theorem State.judgeLate_onTime (s : State) (k r : Nat) {q : Nat} (hq : q < 32)
    (sent : (s.port q).sent.any (fun x => x.cyc == k && x.ftype == ftControl) = true)
    (h : (s.port q).trains.any (fun x => x.cyc == k && !x.late) = true) :
    (s.judgeLate k q r).rd (F.GEN_RING_LATE_RUN q) = 0 ∧
      (s.judgeLate k q r).rd (F.GEN_RING_LATE_COUNT q) = s.rd (F.GEN_RING_LATE_COUNT q) := by
  have judged : s.judgeLate k q r = (s.wr (F.GEN_RING_LATE_RUN q) 0).live (0x102 + 8 * q) false := by
    unfold State.judgeLate
    simp only [hq, sent, h, if_true, Bool.not_true, Bool.false_eq_true, if_false]
  have kept := State.reg_live_still (s.wr (F.GEN_RING_LATE_RUN q) 0) (src := 0x102 + 8 * q) false (stillReg_late hq) (by omega)
  rw [judged, State.rd_congr (f := F.GEN_RING_LATE_RUN q) kept, State.rd_congr (f := F.GEN_RING_LATE_COUNT q) kept,
    State.rd_lateRun_wr_same, State.rd_lateCount_wr_run]
  exact ⟨rfl, rfl⟩

/-- What the counting of a late train leaves in the ring's registers (R64). -/
theorem State.lateTrain_counts (s : State) (q : Nat) (u : State)
    (hu : u = (s.incSat (F.GEN_RING_LATE_COUNT q)).incSat (F.GEN_RING_LATE_RUN q)) :
    u.rd (F.GEN_RING_LATE_COUNT q) = min (s.rd (F.GEN_RING_LATE_COUNT q) + 1) (2 ^ 16 - 1) ∧
      u.rd (F.GEN_RING_LATE_RUN q) = min (s.rd (F.GEN_RING_LATE_RUN q) + 1) 15 := by
  rw [hu]
  unfold State.incSat
  rw [State.rd_lateCount_wr_run, State.rd_lateRun_wr_same, State.rd_lateCount_wr_same, State.rd_lateRun_wr_count]
  simp only [F.GEN_RING_LATE_COUNT, F.GEN_RING_LATE_RUN]
  constructor <;> exact Nat.mod_eq_of_lt (by omega)

/-- From the limit on, the count in a row is a live condition (R68). -/
theorem State.lateLimit_spec (s : State) (lim : Nat) {q : Nat} (hq : q < 32) (u : State)
    (hu : u = if lim ≤ s.rd (F.GEN_RING_LATE_RUN q) then s.live (0x102 + 8 * q) true else s) :
    (∀ o, stillReg o → u.reg o = s.reg o) ∧
      (lim ≤ s.rd (F.GEN_RING_LATE_RUN q) → u.rdB (liveFld (0x102 + 8 * q)) = true) := by
  rw [hu]
  split
  next =>
    exact ⟨fun o ho => State.reg_live_still s true ho (by omega), fun _ => State.liveBit_live s _ true (by omega)⟩
  next low => exact ⟨fun _ _ => rfl, fun high => absurd high low⟩

/-- The count of the late source, the cycle noted at the port and in the recorder leave the ring's registers and the
configuration in effect. -/
theorem State.lateNoted_keeps (s : State) (k q : Nat) (f : Port → Port) (n : Nat) :
    (∀ o, stillReg o → (((s.count n).updPort q f).markLate k q).reg o = s.reg o) ∧
      (((s.count n).updPort q f).markLate k q).eff = s.eff := by
  have counted := RaiseKeeps.count s n 1
  generalize s.count n = t at *
  have noted : RaiseKeeps (t.updPort q f) ((t.updPort q f).markLate k q) := .recd _ _
  exact ⟨fun o ho => (noted.reg o ho.1).trans (counted.reg o ho.1), noted.eff.trans counted.eff⟩

/-- LATE_TRAIN: a late train counts, in all and in a row, and is a live condition from the limit on (R64, R68). -/
theorem State.lateTrain_spec (s : State) (k : Nat) {q : Nat} (hq : q < 32) :
    (s.lateTrain k q q).rd (F.GEN_RING_LATE_COUNT q) = min (s.rd (F.GEN_RING_LATE_COUNT q) + 1) (2 ^ 16 - 1) ∧
      (s.lateTrain k q q).rd (F.GEN_RING_LATE_RUN q) = min (s.rd (F.GEN_RING_LATE_RUN q) + 1) 15 ∧
      (max 1 (s.erd F.GEN_CYC_CTRL_LATE_LIM) ≤ min (s.rd (F.GEN_RING_LATE_RUN q) + 1) 15 →
        (s.lateTrain k q q).rdB (liveFld (0x102 + 8 * q)) = true) ∧
      (∀ o, stillReg o → o ≠ R.GEN_RING_LATE q → (s.lateTrain k q q).reg o = s.reg o) := by
  unfold State.lateTrain
  obtain ⟨count0, run0⟩ := s.lateTrain_counts q _ rfl
  have eff0 : ((s.incSat (F.GEN_RING_LATE_COUNT q)).incSat (F.GEN_RING_LATE_RUN q)).eff = s.eff := by
    rw [State.incSat_eff, State.incSat_eff]
  have reg0 (o : Nat) (ho : o ≠ R.GEN_RING_LATE q) :
      ((s.incSat (F.GEN_RING_LATE_COUNT q)).incSat (F.GEN_RING_LATE_RUN q)).reg o = s.reg o :=
    (State.reg_wr_other _ _ _ _ ho).trans (State.reg_wr_other _ _ _ _ ho)
  generalize (s.incSat (F.GEN_RING_LATE_COUNT q)).incSat (F.GEN_RING_LATE_RUN q) = s0 at *
  obtain ⟨reg3, eff3⟩ := s0.lateNoted_keeps k q (fun p => { p with lateOf := (k :: p.lateOf).take 8 }) (0x020 + q)
  dsimp only
  generalize ((s0.count (0x020 + q)).updPort q (fun p => { p with lateOf := (k :: p.lateOf).take 8 })).markLate k q = s3 at *
  have hlim : s3.erd F.GEN_CYC_CTRL_LATE_LIM = s.erd F.GEN_CYC_CTRL_LATE_LIM := by
    rw [State.erd, State.ereg, eff3, eff0, State.erd, State.ereg]
  obtain ⟨reg4, live4⟩ := s3.lateLimit_spec (max 1 (s3.erd F.GEN_CYC_CTRL_LATE_LIM)) hq _ rfl
  have late3 := reg3 _ (stillReg_late hq)
  have late4 := reg4 _ (stillReg_late hq)
  have run3 := (State.rd_congr (f := F.GEN_RING_LATE_RUN q) late3).trans run0
  rw [hlim] at live4 reg4 late4 ⊢
  refine ⟨(State.rd_congr (f := F.GEN_RING_LATE_COUNT q) (late4.trans late3)).trans count0,
    (State.rd_congr (f := F.GEN_RING_LATE_RUN q) late4).trans run3, fun low => live4 ?_,
    fun o ho hne => ((reg4 o ho).trans (reg3 o ho)).trans (reg0 o hne)⟩
  rw [run3]
  exact low

theorem State.judgeLate_late (s : State) (k r : Nat) {q : Nat} (hq : q < 32)
    (sent : (s.port q).sent.any (fun x => x.cyc == k && x.ftype == ftControl) = true)
    (h : (s.port q).trains.any (fun x => x.cyc == k && !x.late) = false) : s.judgeLate k q r = s.lateTrain k q q := by
  unfold State.judgeLate
  simp only [hq, sent, h, if_true, Bool.not_true, Bool.false_eq_true, if_false]

theorem State.advanceHall_prevCyc (s : State) (h : Time) : (s.advanceHall h).prevCyc = s.prevCyc := by
  unfold State.advanceHall
  split <;> rfl

theorem State.KeepsLate.advanceHall (s : State) (h : Time) (q : Nat) : s.KeepsLate q (s.advanceHall h) := by
  unfold State.advanceHall
  split
  · exact .refl s q
  · exact .of_parts rfl rfl rfl

/-- The judgements of the other ports come before and after the one of port `q`. -/
theorem State.judgePorts_split (s : State) (k : Nat) {q : Nat} (hq : q < 32) :
    ∃ x, s.KeepsLate q x ∧ (x.judgeLate k q (x.ringOfPort q)).KeepsLate q
      ((List.range 32).foldl (fun s q => s.judgeLate k q (s.ringOfPort q)) s) := by
  obtain ⟨before, after, hl⟩ := List.append_of_mem (List.mem_range.2 hq)
  have distinct : (before ++ q :: after).Nodup := hl ▸ List.nodup_range
  have small : ∀ p ∈ before ++ q :: after, p < 32 := fun p hp => List.mem_range.1 (hl ▸ hp)
  have other (s : State) (p : Nat) (hp : p < 32) (hne : p ≠ q) : s.KeepsLate q (s.judgeLate k p (s.ringOfPort p)) := by
    refine .judgeLate hq s k p _ hne (by rw [if_pos hp]; exact hne) ?_
    unfold State.ringOfPort
    split <;> omega
  rw [hl, List.foldl_append, List.foldl_cons]
  refine ⟨_, .foldl _ before (fun s p hp => other s p (small p (by simp [hp])) ?_) s,
    .foldl _ after (fun s p hp => other s p (small p (by simp [hp])) ?_) _⟩
  · rintro rfl
    exact (List.nodup_append.1 distinct).2.2 p hp p (by simp) rfl
  · rintro rfl
    exact (List.nodup_cons.1 (List.nodup_append.1 distinct).2.1).1 hp

/-- A ring that is not split has no far segment. -/
theorem State.farSeg_none {s : State} {q : Nat} (h : s.split q = false) : s.farSeg q = none := by
  simp [State.farSeg, h]

/-- The judgements of the far segments leave the port of a ring that is not split. -/
theorem State.KeepsLate.judgeFar (k : Nat) {q : Nat} (hq : q < 32) (l : List Nat) (hl : ∀ r ∈ l, r < 32) (s : State)
    (h : s.split q = false) : s.KeepsLate q
      (l.foldl (fun s r => if (s.farSeg r) == some (32 + r) then s.judgeLate k (32 + r) r else s) s) := by
  induction l generalizing s with
  | nil => exact .refl s q
  | cons r l ih =>
    have step : s.KeepsLate q (if (s.farSeg r) == some (32 + r) then s.judgeLate k (32 + r) r else s) := by
      split
      next far =>
        have hne : r ≠ q := by
          rintro rfl
          simp [State.farSeg_none h] at far
        exact .judgeLate hq s k _ r (by omega) (by rw [if_neg (by omega)]; exact hne) (hl r (by simp))
      next => exact .refl s q
    exact step.trans (ih (fun x hx => hl x (by simp [hx])) _ (step.split.trans h))

/-- A judgement leaves the splits. -/
theorem State.judgeLate_split (s : State) (k r : Nat) {q : Nat} (hq : q < 32) : (s.judgeLate k q r).split q = s.split q := by
  have hne : (F.RP_STAT_SPLIT q).reg ≠ R.GEN_RING_LATE q := by
    simp only [R.GEN_RING_LATE, F.RP_STAT_SPLIT]
    omega
  refine State.rdB_congr ?_
  unfold State.judgeLate
  rw [if_pos hq]
  split
  · rfl
  · split
    · exact (State.reg_live_still _ false (stillReg_split hq) (by omega)).trans (State.reg_wr_other _ _ _ _ hne)
    · exact (s.lateTrain_spec k hq).2.2.2 _ (stillReg_split hq) hne

/-- GALLERY_DEADLINE at a port whose ring is not split: between what comes before and after, its frame is judged. -/
theorem galleryDeadline_judges (s : State) {q : Nat} (hq : q < 32) (h : s.split q = false) :
    ∃ x, s.KeepsLate q x ∧ (x.judgeLate s.prevCyc q (x.ringOfPort q)).KeepsLate q (galleryDeadline s) := by
  unfold galleryDeadline
  extract_lets s1 k s2 s3
  have k1 : s.KeepsLate q s1 := .advanceHall s _ q
  have hk : k = s.prevCyc := State.advanceHall_prevCyc s _
  rw [← hk]
  clear_value s1 k
  obtain ⟨x, hx, hx2⟩ := s1.judgePorts_split k hq
  have whole : s2.split q = false := by
    rw [hx2.split, State.judgeLate_split _ _ _ hq, hx.split, k1.split, h]
  have k3 : s2.KeepsLate q s3 := .judgeFar k hq _ (fun r hr => List.mem_range.1 hr) s2 whole
  clear_value s3
  exact ⟨x, k1.trans hx, (hx2.trans k3).trans (.foldl _ _ (fun s r hr => .feedGallery hq s k r (List.mem_range.1 hr)) s3)⟩

/-- What the judgement of a port's frames leaves stands after the deadline. -/
theorem galleryDeadline_spec (s : State) {q : Nat} (hq : q < 32) (whole : s.split q = false)
    (sent : (s.port q).sent.any (fun x => x.cyc == s.prevCyc && x.ftype == ftControl) = true) :
    ((s.port q).trains.any (fun x => x.cyc == s.prevCyc && !x.late) = true →
      (galleryDeadline s).rd (F.GEN_RING_LATE_RUN q) = 0 ∧
        (galleryDeadline s).rd (F.GEN_RING_LATE_COUNT q) = s.rd (F.GEN_RING_LATE_COUNT q)) ∧
    ((s.port q).trains.any (fun x => x.cyc == s.prevCyc && !x.late) = false →
      (galleryDeadline s).rd (F.GEN_RING_LATE_COUNT q) = min (s.rd (F.GEN_RING_LATE_COUNT q) + 1) (2 ^ 16 - 1) ∧
        (galleryDeadline s).rd (F.GEN_RING_LATE_RUN q) = min (s.rd (F.GEN_RING_LATE_RUN q) + 1) 15 ∧
        (max 1 (s.erd F.GEN_CYC_CTRL_LATE_LIM) ≤ min (s.rd (F.GEN_RING_LATE_RUN q) + 1) 15 →
          (galleryDeadline s).liveBit (lateSrc q) = true)) := by
  obtain ⟨x, before, after⟩ := galleryDeadline_judges s hq whole
  obtain ⟨countBefore, runBefore⟩ := State.rd_of_keepsLate before
  obtain ⟨countAfter, runAfter⟩ := State.rd_of_keepsLate after
  have limBefore : x.erd F.GEN_CYC_CTRL_LATE_LIM = s.erd F.GEN_CYC_CTRL_LATE_LIM := by
    rw [State.erd, State.ereg, before.eff, State.erd, State.ereg]
  rw [countAfter, runAfter, after.live]
  rw [← before.port] at sent ⊢
  refine ⟨fun onTime => ?_, fun late => ?_⟩
  · obtain ⟨run, count⟩ := x.judgeLate_onTime s.prevCyc (x.ringOfPort q) hq sent onTime
    exact ⟨run, count.trans countBefore⟩
  · obtain ⟨count, run, live, -⟩ := x.lateTrain_spec s.prevCyc hq
    rw [x.judgeLate_late s.prevCyc _ hq sent late, ← countBefore, ← runBefore, ← limBefore]
    exact ⟨count, run, live⟩

end Sys2Proof.Machine
end

section
/-!
PROOFS. What a returned train does before its return is measured is calm: its carts (R206 to R212), the positions it passed (R61,
R65, R215, R216) and their times (R237, R242) leave the copies in effect, the hall clock and which frames are late.
-/

namespace Sys2Proof.Machine.State.Calm

/-! Registers of a port and of a cell lie above the cycle's number. -/

theorem portReg {a b : Nat} (h : 0x408 < a) : a + b ≠ R.GEN_CYC_NUM := by
  simp only [R.GEN_CYC_NUM]
  omega

theorem cellReg {a b c : Nat} (h : 0x408 < a) : a + b + c ≠ R.GEN_CYC_NUM := by
  simp only [R.GEN_CYC_NUM]
  omega

theorem withHostMem (s : State) (m : List Host.Cell) : s.Calm { s with hostMem := m } := of_raise (.hostMem s m)

/-! Carts. -/

theorem drainCarts (fuel : Nat) (s : State) (n p : Nat) : s.Calm (State.drainCarts fuel s n p) := by
  induction fuel generalizing s with
  | zero => exact refl s
  | succ fuel ih =>
    unfold State.drainCarts
    extract_lets h
    split
    · extract_lets s1 s2 s3 s4
      have h1 : s.Calm s1 := setHring s n _
      have h2 : s1.Calm s2 := ite (refl s1) (withHostMem s1 _)
      have h3 : s2.Calm s3 := putComplAt s2 n _ _ _ _ _
      have h4 : s3.Calm s4 := ite (ringIdle s3 n) (refl s3)
      exact (((h1.trans h2).trans h3).trans h4).trans (ih s4)
    · exact refl s

theorem hostCart (s : State) (r : Nat) (c : CartReq) (st res : Nat) (rep : Slot) (k : Nat) :
    s.Calm (s.hostCart r c st res rep k) := by
  unfold State.hostCart
  split
  · exact ite (refl s) ((updHring s _ _).trans (drainCarts 64 _ _ r))
  · exact refl s

theorem showTable (s : State) (r : Nat) : s.Calm (s.showTable r) := by
  unfold State.showTable
  extract_lets st m s1 s2
  have h1 : s.Calm s1 := (wr s _ _ (portReg (by decide))).trans (wr _ _ _ (portReg (by decide)))
  have h2 : s1.Calm s2 := (wr s1 _ _ (portReg (by decide))).trans (wr _ _ _ (portReg (by decide)))
  exact (h1.trans h2).trans (wr s2 _ _ (portReg (by decide)))

theorem wrCellState (s : State) (r p v : Nat) : s.Calm (s.wr (F.RP_CELL_INFO_STATE r p) v) := wr s _ _ (cellReg (by decide))

theorem freeSeq (s : State) (r p : Nat) : s.Calm (s.freeSeq r p) := ite (refl s) (withFlt s _)

theorem showTerrLive (s : State) : s.Calm s.showTerrLive := ite (refl s) (wrLive s 0x00E false)

theorem forgetCell (s : State) (r p : Nat) : s.Calm (s.forgetCell r p) := by
  unfold State.forgetCell
  extract_lets i _ _ s1
  have h1 : s.Calm s1 := of_parts rfl rfl rfl rfl
  exact (h1.trans (updPort s1 r _ (by intro _; rfl))).trans (showTerrLive _)

theorem presentCarts (s : State) (r : Nat) (news : List CartReq) : s.Calm (s.presentCarts r news) :=
  updPort s r _ (by intro _; rfl)

theorem newcomer (s : State) (r p : Nat) : s.Calm (s.newcomer r p) :=
  ite (refl s) ((((forgetCell s r p).trans (wrCellState _ r p 2)).trans (showTable _ r)).trans (presentCarts _ r _))

theorem identQuarter (s : State) (r p quarter d : Nat) : s.Calm (s.identQuarter r p quarter d) := by
  unfold State.identQuarter
  split
  · exact (wr s _ _ (cellReg (by decide))).trans (wr _ _ _ (cellReg (by decide)))
  · split
    · extract_lets s1 s2 s3
      have h1 : s.Calm s1 := (wr s _ _ (cellReg (by decide))).trans (wr _ _ _ (cellReg (by decide)))
      have h2 : s1.Calm s2 := (wr s1 _ _ (cellReg (by decide))).trans (wr _ _ _ (cellReg (by decide)))
      have h3 : s2.Calm s3 := (wr s2 _ _ (cellReg (by decide))).trans (wr _ _ _ (cellReg (by decide)))
      exact ((h1.trans h2).trans h3).trans (wr s3 _ _ (cellReg (by decide)))
    · split
      · exact (wr s _ _ (cellReg (by decide))).trans (wr _ _ _ (cellReg (by decide)))
      · exact (wr s _ _ (cellReg (by decide))).trans (wr _ _ _ (cellReg (by decide)))

theorem rateRefused (s : State) (r : Nat) : s.Calm (s.wrB (F.RP_ERR_RATE_REF r) true) := wrB s _ _ (portReg (by decide))

theorem endAdmitting (s : State) (r p : Nat) :
    s.Calm (s.updPort r (fun x => { x with admitting := x.admitting.filter (fun y => y != p) })) :=
  updPort s r _ (by intro _; rfl)

theorem ownReply (s : State) (r : Nat) (c : CartReq) (rep : Slot) : s.Calm (s.ownReply r c rep) := by
  unfold State.ownReply
  split
  · extract_lets was s1
    have h1 : s.Calm s1 := endAdmitting s r c.pos
    exact h1.trans (ite (((freeSeq s1 r c.pos).trans (wrCellState _ r c.pos 1)).trans (showTable _ r))
      (ite (newcomer s1 r c.pos) (refl s1)))
  · exact ite (ite (identQuarter s r c.pos _ _) (refl s))
      (ite (ite (presentCarts s r _) (rateRefused s r)) (refl s))

theorem coreReply (s : State) {r : Nat} (hr : r < 32) : s.Calm (s.coreReply r) := by
  have pushed : s.Calm (s.tick.iqPush r s.free).1 := (tick s).trans (of_raise (.iqPush _ _ _ (by omega)))
  exact ite (pushed.trans (raise _ _)) pushed

theorem cartFailed (s : State) {r : Nat} (hr : r < 32) (c : CartReq) : s.Calm (s.cartFailed r c) := by
  unfold State.cartFailed
  extract_lets s1 s2 s3
  have h1 : s.Calm s1 := (wrB s _ _ (portReg (by decide))).trans (incSat _ _ _ (portReg (by decide)))
  have h2 : s1.Calm s2 := ite (rateRefused s1 r) (refl s1)
  have h3 : s2.Calm s3 := ite ((endAdmitting s2 r c.pos).trans (newcomer _ r c.pos)) (refl s2)
  refine ((h1.trans h2).trans h3).trans ?_
  split
  · exact ite (refl s3) (coreReply s3 hr)
  · exact hostCart s3 r c _ _ _ _

theorem cartEnd (s : State) {r : Nat} (hr : r < 32) (c : CartReq) (rep : Option Slot) (k : Nat) : s.Calm (s.cartEnd r c rep k) := by
  unfold State.cartEnd
  refine ite (refl s) ?_
  split
  · refine ite (ownReply s r c _) ?_
    split
    · exact ite (hostCart s r c _ _ _ _) (hostCart s r c _ _ _ _)
    · exact coreReply s hr
    · exact refl s
  · exact ite (((incSat s _ _ (portReg (by decide))).trans (count _ _ _)).trans (updPort _ r _ (by intro _; rfl)))
      (cartFailed s hr c)

theorem cartResult (s : State) {r : Nat} (hr : r < 32) (c : CartReq) (rep : Option Slot) (k : Nat) :
    s.Calm (s.cartResult r c rep k) := by
  unfold State.cartResult
  refine ite (cartEnd s hr c rep k) ?_
  split
  · exact (updPort s r _ (by intro _; rfl)).trans (cartEnd _ hr c _ k)
  · exact updPort s r _ (by intro _; rfl)

theorem judge (s : State) {r : Nat} (hr : r < 32) (x : SentFrame) (f : Option Frame) (k : Nat) : s.Calm (s.judge r x f k) := by
  refine foldl _ _ (fun s c _ => ?_) s
  split
  · exact refl s
  · exact cartResult s hr _ _ k

theorem judgeCarts (s : State) (q : Nat) {r : Nat} (hr : r < 32) (num : Nat) (f : Option Frame) (k : Nat) :
    s.Calm (s.judgeCarts q r num f k) := by
  unfold State.judgeCarts
  extract_lets p open_ isPrev old hit dead s1 s2
  have h1 : s.Calm s1 := setPort s q _ (fun _ => rfl)
  have h2 : s1.Calm s2 := foldl _ _ (fun s x _ => judge s hr x f k) s1
  exact (h1.trans h2).trans (foldl _ _ (fun s x _ => judge s hr x none s.cyc) s2)

/-! The frame and its return word. -/

theorem noteFrameIn (s : State) (q : Nat) (f : Frame) (hIn : Time) : s.Calm (s.noteFrameIn q f hIn) := by
  unfold State.noteFrameIn
  extract_lets s1
  have h1 : s.Calm s1 := ite (refl s) ((wrB s _ _ (portReg (by decide))).trans (incSat _ _ _ (portReg (by decide))))
  exact h1.trans (ite (updPort s1 q _ (by intro _; rfl)) (incSat s1 _ _ (portReg (by decide))))

theorem takeReturn (s : State) (q r w : Nat) : s.Calm (s.takeReturn q r w) := by
  unfold State.takeReturn
  extract_lets s1 s2 s3 s4
  have h1 : s.Calm s1 := ite (updPort s q _ (by intro _; rfl)) (refl s)
  have h2 : s1.Calm s2 := (wrB s1 _ _ (portReg (by decide))).trans (wr _ _ _ (portReg (by decide)))
  have h3 : s2.Calm s3 := wr s2 _ _ (portReg (by decide))
  have h4 : s3.Calm s4 := ite (wrPfar s3 q _) (refl s3)
  exact h1.trans (ite (refl s1) (((h2.trans h3).trans h4).trans (ite (splitTrigger s4 r) (refl s4))))

/-! Positions. -/

theorem speaks (s : State) (r p : Nat) : s.Calm (s.speaks r p) := by
  unfold State.speaks
  extract_lets s1 s2
  have h1 : s.Calm s1 := updPort s r _ (by intro _; rfl)
  have h2 : s1.Calm s2 := (wrCellState s1 r p 1).trans (showTable _ r)
  exact h1.trans (ite (h2.trans (ite (live s2 _ false) (refl s2))) (refl s1))

theorem misses (s : State) {r p : Nat} (hc : 32 * r + p < 1024) : s.Calm (s.misses r p) := by
  unfold State.misses
  extract_lets n s1
  have h1 : s.Calm s1 := updPort s r _ (by intro _; rfl)
  exact ite (refl s) (h1.trans (ite (refl s1) (((wrCellState s1 r p 3).trans (showTable _ r)).trans (liveCell _ _ _ hc))))

theorem noteUplink (s : State) (i k : Nat) (up : Slot) : s.Calm (s.noteUplink i k up) := of_parts rfl rfl rfl rfl

theorem forwarded (s : State) {i : Nat} (hi : i < 1024) (fcode : Nat) : s.Calm (s.forwarded i fcode) := by
  unfold State.forwarded
  extract_lets seq code last _ s1 s2
  have h1 : s.Calm s1 := withFlt s _
  have h2 : s1.Calm s2 := ite (raiseCell s1 _ i code hi) (refl s1)
  exact ite (refl s) (ite (refl s) ((h1.trans h2).trans (ite (raiseCell s2 _ i code hi) (raiseCell s2 _ i code hi))))

theorem seeEpoch (s : State) (e : Nat) : s.Calm (s.seeEpoch e) :=
  ite (refl s) (ite (ite (withStk s _) (refl s)) (withStk s _))

theorem takeUplink (s : State) {r p : Nat} (hc : 32 * r + p < 1024) (k : Nat) (up : Slot) : s.Calm (s.takeUplink r p k up) := by
  unfold State.takeUplink
  extract_lets i s1 s2 s3 s4 s5 _ s6 s7 s8
  have h1 : s.Calm s1 := ite (newcomer s r p) (refl s)
  have h3 : s1.Calm s3 := (noteUplink s1 i k up).trans (speaks s2 r p)
  have h4 : s3.Calm s4 := wrB s3 _ _ (cellReg (by decide))
  have h5 : s4.Calm s5 := ite (wrB s4 _ _ (portReg (by decide))) (refl s4)
  have h6 : s5.Calm s6 := ite (withFlt s5 _) (refl s5)
  have h7 : s6.Calm s7 := ite (raiseCell s6 _ i _ hc) (refl s6)
  have h8 : s7.Calm s8 := forwarded s7 hc _
  exact (((h1.trans h3).trans (h4.trans h5)).trans ((h6.trans h7).trans h8)).trans (seeEpoch s8 _)

theorem noteTerr (s : State) {r p : Nat} (hc : 32 * r + p < 1024) (th : Int) : s.Calm (s.noteTerr r p th) := by
  unfold State.noteTerr
  extract_lets isOver n m s1
  have h1 : s.Calm s1 := updPort s r _ (by intro _; rfl)
  exact h1.trans (ite (liveCell s1 _ _ hc) (ite (showTerrLive s1) (refl s1)))

theorem noteD (s : State) (q p : Nat) (x : SentFrame) (slot lag : Nat) (up : Slot) : s.Calm (s.noteD q p x slot lag up) := by
  unfold State.noteD
  exact updPort s q _ (by intro _; rfl)

theorem cellTheta (s : State) (q : Nat) {r p : Nat} (hc : 32 * r + p < 1024) (x : SentFrame) (slot lag : Nat) (up : Slot) :
    s.Calm (s.cellTheta q r p x slot lag up).1 := by
  unfold State.cellTheta
  extract_lets s1 th
  have h1 : s.Calm s1 := noteD s q p x slot lag up
  split
  · exact refl s
  · split
    · exact h1
    · exact h1.trans (noteTerr s1 hc th)

theorem position (s : State) (q : Nat) {r p : Nat} (hc : 32 * r + p < 1024) (x : SentFrame) (lag : Nat) (f : Frame) :
    s.Calm (s.position q r x lag f p).1 := by
  unfold State.position
  split
  · exact refl s
  next slot _ =>
    extract_lets st ok up s1 y s2
    split
    · have h1 : s.Calm s1 := takeUplink s hc x.cyc up
      refine h1.trans ?_
      show s1.Calm y.1
      by_cases hq : q < 32
      · rw [show y = s1.cellTheta q r p x slot lag up from if_pos hq]
        exact cellTheta s1 q hc x slot lag up
      · rw [show y = (s1, 0) from if_neg hq]
        exact refl s1
    · split
      · have h2 : s.Calm s2 := ite (incSat s _ _ (cellReg (by decide)))
          ((incSat s _ _ (cellReg (by decide))).trans (count _ _ _))
        exact h2.trans (ite (misses s2 hc) (refl s2))
      · exact refl s

theorem showTerr (s : State) (q : Nat) (l : List (Nat × Nat)) : s.Calm (s.showTerr q l) := by
  unfold State.showTerr
  extract_lets worst h s1 top
  have h1 : s.Calm s1 := updPort s q _ (by intro _; rfl)
  exact ite (refl s) ((h1.trans (wr s1 _ _ (portReg (by decide)))).trans (wr _ _ _ (portReg (by decide))))

end Sys2Proof.Machine.State.Calm
end

section
/-!
PROOFS. A returned CONTROL train of an emitted frame (R62 to R66): it is entered with its cycle, late or on time, and its return
is measured from the start of its cycle.
-/

namespace Sys2Proof.Machine

/-! The return and the delivery. -/

theorem State.Calm.hall {s u : State} (h : s.Calm u) : u.clk.hall = s.clk.hall := by
  obtain ⟨_, hx⟩ := h.clk
  rw [hx]

theorem State.Calm.deadline {s u : State} (h : s.Calm u) (tk : Time) : u.deadline tk = s.deadline tk := by
  simp only [State.deadline, State.cycT, State.cycNs, State.erd, State.ereg, h.eff]

/-- The return of a train, in ns (R62). -/
theorem State.returned_ret (s : State) (n : Nat) (tk : Time) :
    (s.returned n tk).rd (F.GEN_RING_RET_RET n) = min 8191 (ceilDiv (s.clk.hall - tk) 65536) := by
  unfold State.returned
  extract_lets u l s1
  rw [State.rd_wr_fld _ _ _ _ (by simp only [F.GEN_RING_RET_RET]; omega)
      (by simp only [F.GEN_RING_RET_RET, F.GEN_RING_RET_RET_MAX]; omega),
    State.rd_wr_same _ _ _ (by simp only [F.GEN_RING_RET_RET]; omega)]
  have fits : u ≤ 8191 := Nat.min_le_left _ _
  exact Nat.mod_eq_of_lt (by simp only [F.GEN_RING_RET_RET]; omega)

theorem stillReg_ret {n : Nat} (hn : n < 32) : stillReg (R.GEN_RING_RET n) := by
  simp only [stillReg, quietReg, R.GEN_RING_RET]
  omega

theorem State.reg_ret_updLead (s : State) {a : Nat} (ha : a < 6) (n : Nat) :
    (s.updLead a).reg (R.GEN_RING_RET n) = s.reg (R.GEN_RING_RET n) := by
  have both (v w : Nat) : ((s.wr (F.GEN_ARM_LEAD_LEAD a) v).wr (F.GEN_ARM_LEAD_SLOW_RING a) w).reg (R.GEN_RING_RET n) =
      s.reg (R.GEN_RING_RET n) :=
    (State.reg_wr_other _ _ _ _ (by simp only [F.GEN_ARM_LEAD_SLOW_RING, R.GEN_RING_RET]; omega)).trans
      (State.reg_wr_other _ _ _ _ (by simp only [F.GEN_ARM_LEAD_LEAD, R.GEN_RING_RET]; omega))
  unfold State.updLead
  split
  · exact both _ _
  · exact both _ _

theorem State.reg_ret_updLeads (s : State) (n : Nat) : s.updLeads.reg (R.GEN_RING_RET n) = s.reg (R.GEN_RING_RET n) := by
  suffices h : ∀ l : List Nat, (∀ a ∈ l, a < 6) → ∀ s : State,
      (l.foldl State.updLead s).reg (R.GEN_RING_RET n) = s.reg (R.GEN_RING_RET n) from
    h _ (fun a ha => List.mem_range.1 ha) s
  intro l
  induction l with
  | nil => exact fun _ _ => rfl
  | cons a l ih =>
    exact fun hl s => (ih (fun b hb => hl b (by simp [hb])) _).trans (State.reg_ret_updLead s (hl a (by simp)) n)

/-- The delivery of a train leaves its return. -/
theorem State.reg_ret_delivery (s : State) {n : Nat} (hn : n < 32) (d : Nat) :
    (s.delivery n d).reg (R.GEN_RING_RET n) = s.reg (R.GEN_RING_RET n) := by
  have dlv (s : State) (f : Fld) (v : Nat) (hf : f.reg = R.GEN_RING_DLV n) :
      (s.wr f v).reg (R.GEN_RING_RET n) = s.reg (R.GEN_RING_RET n) := by
    refine State.reg_wr_other _ _ _ _ ?_
    simp only [hf, R.GEN_RING_DLV, R.GEN_RING_RET]
    omega
  unfold State.delivery
  extract_lets p m blocked j0 j isOver s1 s2 s3
  have h2 : s2.reg (R.GEN_RING_RET n) = s.reg (R.GEN_RING_RET n) := (dlv _ _ _ rfl).trans (dlv s1 _ _ rfl)
  have h3 : s3.reg (R.GEN_RING_RET n) = s2.reg (R.GEN_RING_RET n) := (dlv _ _ _ rfl).trans (dlv s2 _ _ rfl)
  clear_value s3
  rw [State.reg_ret_updLeads, State.reg_live_still _ _ (stillReg_ret hn) (by omega), h3, h2]

/-! The train. -/

/-- The positions of a train, taken in turn with what is gathered of them. -/
theorem State.positions_calm {β : Type} (s : State) (q : Nat) {r : Nat} (hr : r < 32) (x : SentFrame) (lag : Nat) (f : Frame)
    (take : State × β → Nat → State × β) (h : ∀ a p, (take a p).1 = (a.1.position q r x lag f p).1) (b : β) :
    s.Calm ((List.range 32).foldl take (s, b)).1 := by
  refine State.Calm.foldl_fst take _ (fun a p hp => ?_) (s, b)
  have hp32 := List.mem_range.1 hp
  rw [h]
  exact State.Calm.position a.1 q (by omega) x lag f

/-- A CONTROL train of port `q`. -/
theorem State.controlTrain_spec (s : State) {q r : Nat} (hq : q < 32) (hr : r < 32) (x : SentFrame) (lag : Nat) (f : Frame)
    (late : Bool) (hl : late = (decide (s.deadline x.tk < s.clk.hall) || (s.port q).lateOf.contains x.cyc)) :
    ((s.controlTrain q r x lag f).port q).trains.head?.map (fun y => (y.cyc, y.late)) = some (x.cyc, late) ∧
      (s.controlTrain q r x lag f).rd (F.GEN_RING_RET_RET q) = min 8191 (ceilDiv (s.clk.hall - x.tk) 65536) := by
  unfold State.controlTrain
  extract_lets n marked a s1 ups s2 d s3
  have hn : n = q := if_pos hq
  have passed : s.Calm a.1 := s.positions_calm q hr x lag f _ (by intro _ _; rfl) _
  have h1 : s.Calm s1 := passed.trans (.showTerr _ q _)
  clear_value s1 ups
  have h2 : s2.rd (F.GEN_RING_RET_RET q) = min 8191 (ceilDiv (s.clk.hall - x.tk) 65536) := by
    show (s1.returned n x.tk).rd _ = _
    rw [hn, State.returned_ret, h1.hall]
  clear_value s2
  have h3 : s3.rd (F.GEN_RING_RET_RET q) = s2.rd (F.GEN_RING_RET_RET q) := by
    refine State.rd_congr ?_
    show (if ups.isEmpty then s2 else s2.delivery n _).reg _ = _
    split
    · rfl
    · rw [hn]
      exact State.reg_ret_delivery s2 hq _
  clear_value s3
  have hm : marked = late := hl.symm
  clear_value marked
  refine ⟨?_, h3.trans h2⟩
  rw [State.port_updPort_same, hm]
  rfl

/-- What is noted of a frame's arrival leaves the frames that are out. -/
theorem State.noteFrameIn_sent (s : State) (q : Nat) (f : Frame) (hIn : Time) :
    ((s.noteFrameIn q f hIn).port q).sent = (s.port q).sent := by
  unfold State.noteFrameIn
  extract_lets s1
  have h1 : s1.port q = s.port q := by
    show (if fcrcOk f then s else _).port q = _
    split
    · rfl
    · rw [State.port_incSat, State.port_wrB]
  clear_value s1
  split
  · unfold State.noteRtt
    rw [State.port_updPort_same, h1]
  · rw [State.port_incSat, h1]

/-- A whole CONTROL train of an emitted frame that has not come. -/
theorem State.takeTrain_control (s : State) {q r : Nat} (hq : q < 32) (hr : r < 32) (f : Frame) (hIn : Time) (x : SentFrame)
    (late : Bool) (whole : hcrcOk f = true)
    (emitted : (s.port q).sent.find? (fun x => x.cyc == (headerOf f).cycle && x.ftype == (headerOf f).ftype && !x.back) = some x)
    (control : x.ftype = ftControl)
    (hl : late = (decide (s.deadline x.tk < s.clk.hall) || (s.port q).lateOf.contains x.cyc)) :
    ((s.takeTrain q r f hIn).port q).trains.head?.map (fun y => (y.cyc, y.late)) = some (x.cyc, late) ∧
      (s.takeTrain q r f hIn).rd (F.GEN_RING_RET_RET q) = min 8191 (ceilDiv (s.clk.hall - x.tk) 65536) := by
  have noted := State.Calm.noteFrameIn s q f hIn
  unfold State.takeTrain
  rw [if_pos hq]
  extract_lets ok h s1 sent hit
  have found : hit = some x := by
    show (if hcrcOk f then (s1.port q).sent.find? _ else _) = _
    rw [if_pos whole, ← emitted, s.noteFrameIn_sent q f hIn]
  clear_value hit
  subst found
  dsimp -zeta only
  extract_lets s2 s3
  rw [if_pos control]
  have h2 : s1.Calm s2 := .updPort s1 q _ (by intro _; rfl)
  have h3 : s2.Calm s3 := (State.Calm.judgeCarts s2 q hr x.num (some f) x.cyc).trans (.takeReturn _ q r _)
  have calm : s.Calm s3 := (noted.trans h2).trans h3
  clear_value s3
  rw [← calm.hall]
  exact State.controlTrain_spec s3 hq hr x _ f late (by rw [calm.hall, calm.deadline, calm.late q hq, hl])

theorem State.ringOfPort_lt (s : State) {q : Nat} (hq : q < 32) : s.ringOfPort q < 32 := by
  unfold State.ringOfPort
  split <;> omega

theorem State.roleOf_advance (s : State) (t : Time) (q : Nat) : (s.advance t).roleOf q = s.roleOf q := by
  simp [State.roleOf, State.unitEmits]

theorem State.deadline_advance (s : State) (t : Time) (tk : Time) : (s.advance t).deadline tk = s.deadline tk := by
  simp [State.deadline]

/-- TRAIN_ARRIVAL and LATE_TRAIN_COMPLETE of a train at a unit that emits. -/
theorem trainArrival_spec (s : State) (r : Ring) (f : Frame) (tIn t : Time) (x : SentFrame) (late : Bool)
    (emits : s.roleOf r ≠ 2) (whole : hcrcOk f = true)
    (emitted : (s.port r).sent.find? (fun x => x.cyc == (headerOf f).cycle && x.ftype == (headerOf f).ftype && !x.back) = some x)
    (control : x.ftype = ftControl) (start : frameStart f = true)
    (hl : late = (decide (s.deadline x.tk < ((s.advance tIn).advance t).clk.hall) || (s.port r).lateOf.contains x.cyc)) :
    ((trainArrival r f tIn t s).port r).trains.head?.map (fun y => (y.cyc, y.late)) = some (x.cyc, late) ∧
      (trainArrival r f tIn t s).rd (F.GEN_RING_RET_RET r) =
        min 8191 (ceilDiv (((s.advance tIn).advance t).clk.hall - x.tk) 65536) := by
  have taken : trainArrival r f tIn t s = ((s.advance tIn).advance t).takeTrain r
      (((s.advance tIn).advance t).ringOfPort r) f (s.advance tIn).clk.hall := by
    have role : (((s.advance tIn).advance t).roleOf r == 2) = false := by
      rw [State.roleOf_advance, State.roleOf_advance]
      exact beq_false_of_ne emits
    simp only [trainArrival, start, role, Bool.not_true, Bool.false_eq_true, if_false]
  rw [taken]
  refine State.takeTrain_control _ r.isLt (State.ringOfPort_lt _ r.isLt) f _ x late whole ?_ control ?_
  · rw [State.port_advance, State.port_advance]
    exact emitted
  · rw [State.deadline_advance, State.deadline_advance, State.port_advance, State.port_advance]
    exact hl

end Sys2Proof.Machine
end

section
/-!
PROOFS. The cycle, the train and the deadline (R48 to R51, R62 to R68, R397): the commands' outcomes.
-/

namespace Sys2Proof.Machine

section OnChip

variable (s : State) (f : State → State)

@[simp] theorem State.onChip_cyc : (s.onChip f).cyc = (f s).cyc := (rfl)

end OnChip

/-- Settles O12: command by command. The model's own choices in it: the return of a train is rounded up to whole ns (log entry 70,
DESIGN CHOICE); the deadlines of trains hold at both rates (log entry 12, DEDUCED); the first cycle start is the first grid point
after release (log entry 18, DEDUCED). -/
theorem cycleStartTrainAndDeadline : Obligations.CycleStartTrainAndDeadline := by
  refine ⟨fun s off held => ?_, fun s r f tIn t x late c held hc emits whole emitted control start hl => ?_,
    fun s q held notSplit sent => ?_⟩
  · obtain ⟨started, tkHall, copies, number⟩ := cycleStart_spec off s
    have outcome : exec (.cycleStart off) s = .next (s.onHub (cycleStart off)) := rfl
    refine ⟨_, outcome, ?_⟩
    rw [State.onHub_awake s _ held, State.onChip_clk, State.onChip_cyc]
    exact ⟨started, tkHall, fun o ho => (State.onChip_ereg s (cycleStart off) o).trans (copies o ho), number⟩
  · have outcome : exec c s = .next (s.onHub (trainArrival r f tIn t)) := by
      rw [hc]
      cases late <;> rfl
    obtain ⟨entered, returned⟩ := trainArrival_spec s r f tIn t x late emits whole emitted control start hl
    refine ⟨_, outcome, ?_⟩
    rw [State.onHub_awake s _ held, State.onChip_port, State.onChip_rd]
    exact ⟨entered, returned⟩
  · obtain ⟨onTime, late⟩ := galleryDeadline_spec s q.isLt notSplit sent
    refine ⟨_, rfl, ?_⟩
    simp only [State.onHub_awake s _ held, State.onChip_rd, State.onChip_liveBit]
    exact ⟨onTime, late⟩

end Sys2Proof.Machine
end

section
/-!
PROOFS. Output words and registers of a measurement channel (R88, R89, Table 14): what the fields of an output word read, and
which registers of the channels a raise, a live condition and an update of another channel leave.
-/

namespace Sys2Proof.Machine

/-! Numbers. -/

theorem bitOf_eq_testBit (v i : Nat) : bitOf v i = v.testBit i := Nat.testBit_eq_decide_div_mod_eq.symm

/-- A code lies inside the ends of full scale (R88). -/
theorem codeOf_bound (num den : Nat) : (codeOf num den).natAbs ≤ 0x7FFFFF := by
  unfold codeOf
  extract_lets d n x q
  have pos : 0 < d := Nat.le_max_right _ _
  have most : n ≤ d := Nat.min_le_right _ _
  have span : x.natAbs ≤ d * 0x7FFFFF := by
    rw [Int.natAbs_mul]
    exact Nat.mul_le_mul_right _ (by omega)
  have rounded : q ≤ 0x7FFFFF := by
    refine Nat.le_of_lt_succ ((Nat.div_lt_iff_lt_mul (by omega)).2 ?_)
    omega
  clear_value q
  split <;> omega

/-- A code is read back from its field. -/
theorem sext_toField_codeOf (num den : Nat) : sext 24 (toField 24 (codeOf num den)) = codeOf num den := by
  have := codeOf_bound num den
  unfold sext toField
  split <;> omega

theorem toField_lt (w : Nat) (i : Int) : toField w i < 2 ^ w := by
  have := Int.emod_lt_of_pos i (b := (2 ^ w : Nat)) (by exact_mod_cast Nat.two_pow_pos w)
  have := Nat.two_pow_pos w
  unfold toField
  omega

/-! Output words. -/

/-- The word of Table 14 from its fields. -/
def outWord (code : Nat) (ovr settling : Bool) (seq : Nat) : Nat :=
  code + b2n ovr * 2 ^ 24 + b2n settling * 2 ^ 26 + seq * 2 ^ 27

section Fields

variable {code seq : Nat} (ovr settling : Bool)

theorem outWord_code : sext 24 (BitVec.ofNat 32 (outWord code ovr settling seq)).toNat = sext 24 code := by
  have low : (BitVec.ofNat 32 (outWord code ovr settling seq)).toNat % 2 ^ 24 = code % 2 ^ 24 := by
    rw [BitVec.toNat_ofNat, outWord]
    omega
  rw [sext, sext, low]

theorem outWord_bits (hcode : code < 2 ^ 24) :
    bits (BitVec.ofNat 32 (outWord code ovr settling seq)).toNat 24 1 = b2n ovr ∧
      bits (BitVec.ofNat 32 (outWord code ovr settling seq)).toNat 25 1 = 0 ∧
      bits (BitVec.ofNat 32 (outWord code ovr settling seq)).toNat 26 1 = b2n settling ∧
      bits (BitVec.ofNat 32 (outWord code ovr settling seq)).toNat 27 5 = seq % 32 := by
  have ho : b2n ovr < 2 := by cases ovr <;> decide
  have hs : b2n settling < 2 := by cases settling <;> decide
  rw [bits_toNat_ofNat _ 24 1 (by decide), bits_toNat_ofNat _ 25 1 (by decide), bits_toNat_ofNat _ 26 1 (by decide),
    bits_toNat_ofNat _ 27 5 (by decide)]
  simp only [outWord, bits]
  omega

end Fields

/-! Registers. -/

theorem State.getBit_eq_rdB (s : State) (f : Fld) {i : Nat} (hi : i < f.w) : s.getBit f i = s.rdB ⟨f.reg, f.lo + i, 1⟩ := by
  have single (v : Nat) : (bits v (f.lo + i) 1 != 0) = v.testBit (f.lo + i) := by
    rw [Nat.testBit_eq_decide_div_mod_eq, bits]
    rcases Nat.mod_two_eq_zero_or_one (v / 2 ^ (f.lo + i)) with h | h <;> simp [h]
  rw [State.getBit, bitOf_eq_testBit, State.rd, testBit_bits, State.rdB, State.rd, single, decide_eq_true hi, Bool.true_and]

theorem State.getBit_setBit_same (s : State) (f : Fld) {i : Nat} (b : Bool) (hi : i < f.w) (hf : f.lo + f.w ≤ 32) :
    (s.setBit f i b).getBit f i = b := by
  rw [State.getBit_eq_rdB _ _ hi]
  exact State.rdB_wrB_same s ⟨f.reg, f.lo + i, 1⟩ b (by show f.lo + i + 1 ≤ 32; omega) Nat.one_pos

/-- A register of the measurement inputs: no raise and no live condition writes it. -/
theorem stillReg_mi {o : Nat} (lo : 0x40000 ≤ o) (hi : o < 0x50000) : stillReg o := by
  simp only [stillReg, quietReg]
  omega

theorem presetReg_eq (c p : Nat) : presetReg c p = 0x40118 + 0x40 * c + 4 * p := rfl

theorem stillReg_preset {c p : Nat} (hc : c < 16) (hp : p < 4) : stillReg (presetReg c p) :=
  stillReg_mi (by rw [presetReg_eq]; omega) (by rw [presetReg_eq]; omega)

theorem stillReg_chstat {c : Nat} (hc : c < 16) : stillReg (R.MI_CHSTAT c) :=
  stillReg_mi (by rw [R.MI_CHSTAT]; omega) (by rw [R.MI_CHSTAT]; omega)

theorem presetReg_ne_chstat {c d p : Nat} (hp : p < 4) : presetReg c p ≠ R.MI_CHSTAT d := by
  rw [presetReg_eq, R.MI_CHSTAT]
  omega

end Sys2Proof.Machine
end

section
/-!
PROOFS. PRESET_OUTPUT (R87 to R93, R97 to R102): the output word with its flags, the log, and what the queues and the guard
comparator leave of them.
-/

namespace Sys2Proof.Machine

/-! The word. -/

theorem State.outputWord_eq (s : State) (c p n : Nat) : ∃ ovr, ((s.chan c).stuck = true → ovr = true) ∧
    s.outputWord c p n = BitVec.ofNat 32 (outWord
      (toField 24 (codeOf (density p (nth (s.chan c).sinc p {}).outs).1 (density p (nth (s.chan c).sinc p {}).outs).2)) ovr
      (decide (n * presetOsr p < (s.chan c).startIx + presetSpan p))
      (if (s.outputs c p).isEmpty then 1 else (bits (s.reg (presetReg c p)).toNat 27 5 + 1) % 32)) :=
  ⟨_, fun stuck => by rw [stuck, Bool.true_or], rfl⟩

/-- The fields of an output word (Table 14). -/
theorem State.outputWord_fields (s : State) (c p n : Nat) :
    sext 24 (s.outputWord c p n).toNat =
        codeOf (density p (nth (s.chan c).sinc p {}).outs).1 (density p (nth (s.chan c).sinc p {}).outs).2 ∧
      ((s.chan c).stuck = true → bits (s.outputWord c p n).toNat 24 1 = 1) ∧
      bits (s.outputWord c p n).toNat 25 1 = 0 ∧
      bits (s.outputWord c p n).toNat 26 1 = b2n (decide (n * presetOsr p < (s.chan c).startIx + presetSpan p)) ∧
      bits (s.outputWord c p n).toNat 27 5 =
        if (s.outputs c p).isEmpty then 1 else (bits (s.reg (presetReg c p)).toNat 27 5 + 1) % 32 := by
  obtain ⟨ovr, stuck, word⟩ := s.outputWord_eq c p n
  rw [word, outWord_code, sext_toField_codeOf]
  obtain ⟨h24, h25, h26, h27⟩ := outWord_bits (seq := if (s.outputs c p).isEmpty then 1 else
    (bits (s.reg (presetReg c p)).toNat 27 5 + 1) % 32) ovr (decide (n * presetOsr p < (s.chan c).startIx + presetSpan p))
    (toField_lt 24 (codeOf (density p (nth (s.chan c).sinc p {}).outs).1 (density p (nth (s.chan c).sinc p {}).outs).2))
  refine ⟨rfl, fun h => ?_, h25, h26, h27.trans ?_⟩
  · rw [h24, stuck h, b2n_true]
  · split <;> omega

/-! What leaves the outputs alone. -/

/-- From `s` to `u` channel `c` has kept its outputs: the logs, the numbers of the latest ones and their registers. -/
structure State.KeepsOutputs (s : State) (c : Nat) (u : State) : Prop where
  log : u.miLog = s.miLog
  no : (u.chan c).outNo = (s.chan c).outNo
  reg : ∀ p < 4, u.reg (presetReg c p) = s.reg (presetReg c p)

namespace State.KeepsOutputs

theorem refl (s : State) (c : Nat) : s.KeepsOutputs c s := ⟨rfl, rfl, fun _ _ => rfl⟩

theorem trans {s t u : State} {c : Nat} (h : s.KeepsOutputs c t) (k : t.KeepsOutputs c u) : s.KeepsOutputs c u :=
  ⟨k.log.trans h.log, k.no.trans h.no, fun p hp => (k.reg p hp).trans (h.reg p hp)⟩

theorem ite {s t u : State} {c : Nat} {q : Prop} [Decidable q] (h : s.KeepsOutputs c t) (k : s.KeepsOutputs c u) :
    s.KeepsOutputs c (if q then t else u) := by
  split
  · exact h
  · exact k

theorem setChan (s : State) (c : Nat) (m : MiChan) (h : m.outNo = (s.chan c).outNo) : s.KeepsOutputs c (s.setChan c m) :=
  ⟨rfl, by rw [State.chan_setChan_same, h], fun _ _ => rfl⟩

variable {c : Nat}

theorem of_raise (hc : c < 16) {s u : State} (h : RaiseKeeps s u) : s.KeepsOutputs c u where
  log := h.miLog
  no := by rw [State.chan, State.chan, h.mi]
  reg p hp := h.reg _ (stillReg_preset hc hp).1

/-- A guard condition in the channel's status and among the live conditions. -/
theorem showGuard (hc : c < 16) (s : State) (f : Fld) (hf : f.reg = R.MI_CHSTAT c) (b : Bool) {src : Nat} (hs : src < 544) :
    s.KeepsOutputs c ((s.wrB f b).live src b) where
  log := (State.live_keeps _ _ _).miLog
  no := by rw [State.chan, (State.live_keeps _ _ _).mi]; rfl
  reg p hp := by
    rw [State.reg_live_still _ _ (stillReg_preset hc hp) hs]
    exact State.reg_wr_other _ _ _ _ (hf ▸ presetReg_ne_chstat hp)

theorem guardCheck (hc : c < 16) (s : State) (code : Int) (settling : Bool) :
    s.KeepsOutputs c (s.guardCheck c code settling) := by
  unfold State.guardCheck
  extract_lets m n hi lo s1 ch cl s2 inBand s3
  have counted : s.KeepsOutputs c s1 := ite (of_raise hc (.count _ _ _)) (refl _ _)
  have noted : s1.KeepsOutputs c s2 := setChan s1 c _ counted.no.symm
  have high : s2.KeepsOutputs c s3 :=
    ite (showGuard hc _ _ rfl true (by omega)) (ite (showGuard hc _ _ rfl false (by omega)) (refl _ _))
  split
  · exact setChan s c _ rfl
  · exact ((counted.trans noted).trans high).trans
      (ite (showGuard hc _ _ rfl true (by omega)) (ite (showGuard hc _ _ rfl false (by omega)) (refl _ _)))

end State.KeepsOutputs

/-- One measurement queue at an output (Table 8 of spec/10). -/
def State.measQueue (c p : Nat) (w : Word) (s : State) (i : Nat) : State :=
  let q := 36 + i
  if s.rdB (F.FLT_IQ_CFG_MEN q) && s.rd (F.FLT_IQ_CFG_MCH q) == c && s.rd (F.FLT_IQ_CFG_MPRE q) == p then
    let r := s.iqPush q (w.toNat + s.cyc % 2 ^ 31 * 2 ^ 32)
    if r.2 then r.1.raise 0x0C7 else r.1
  else s

theorem State.measQueues_eq (s : State) (c p : Nat) (w : Word) :
    s.measQueues c p w = (List.range 8).foldl (State.measQueue c p w) s := rfl

/-- What the measurement queues take leaves what a raise leaves (R334, R335). -/
theorem RaiseKeeps.measQueues (s : State) (c p : Nat) (w : Word) : RaiseKeeps s (s.measQueues c p w) := by
  have each (l : List Nat) (hl : ∀ i ∈ l, i < 8) (s : State) : RaiseKeeps s (l.foldl (State.measQueue c p w) s) := by
    induction l generalizing s with
    | nil => exact .refl s
    | cons i l ih =>
      refine RaiseKeeps.trans ?_ (ih (fun j hj => hl j (by simp [hj])) _)
      have hi : i < 8 := hl i (by simp)
      unfold State.measQueue
      extract_lets q r
      split
      · split
        · exact (RaiseKeeps.iqPush _ _ _ (by omega)).trans (.raise0 _ _)
        · exact .iqPush _ _ _ (by omega)
      · exact .refl s
  rw [State.measQueues_eq]
  exact each (List.range 8) (fun i hi => List.mem_range.1 hi) s

/-! The output. -/

/-- An output enters the log at its instant, and nothing but the logs changes. -/
theorem State.logOutput_spec (s : State) (c p : Nat) (w : Word) :
    ((s.logOutput c p w).outputs c p).head? = some (s.clk.hall, w) ∧ (∀ d, (s.logOutput c p w).chan d = s.chan d) ∧
      ∀ o, (s.logOutput c p w).reg o = s.reg o := by
  unfold State.logOutput
  extract_lets s1
  have logged : (s1.outputs c p).head? = some (s.clk.hall, w) := by
    rw [State.outputs, Store.get_put_same]
    rfl
  split
  · exact ⟨logged, fun _ => rfl, fun _ => rfl⟩
  · exact ⟨logged, fun _ => rfl, fun _ => rfl⟩

theorem nth_set_same {α : Type} (l : List α) (i : Nat) (v d : α) : nth (l.set i v) i d = if i < l.length then v else d := by
  rw [nth, List.getD_eq_getElem?_getD, List.getElem?_set_self']
  split <;> simp [*]

/-- An output of a preset (R87 to R89). -/
theorem State.output_spec (x : State) {c p : Nat} (hc : c < 16) (hp : p < 4) (n : Nat) : x.OutputFrom (x.output c p n) c p n := by
  unfold State.output
  extract_lets m s1 w s2 s3 s4
  obtain ⟨code, stuck, clkf, settling, seq⟩ := s1.outputWord_fields c p n
  have chan1 : s1.chan c = { m with outNo := m.outNo.set p n } := State.chan_setChan_same _ _ _
  rw [chan1] at code stuck settling
  have taken : RaiseKeeps s2 (s3.measQueues c p w) := by
    refine RaiseKeeps.trans ?_ (.measQueues s3 c p w)
    show RaiseKeeps s2 (if _ then _ else _)
    split
    · exact .count _ _ _
    · exact .refl _
  obtain ⟨logged, chans, regs⟩ := (s3.measQueues c p w).logOutput_spec c p w
  have guarded : s4.KeepsOutputs c (if p = 0 then s4.guardCheck c (sext 24 w.toNat) (bitOf w.toNat 26) else s4) :=
    .ite (.guardCheck hc _ _ _) (.refl _ _)
  have shown : s4.reg (presetReg c p) = w := by
    calc s4.reg (presetReg c p) = (s3.measQueues c p w).reg (presetReg c p) := regs _
      _ = s2.reg (presetReg c p) := taken.reg _ (stillReg_preset hc hp).1
      _ = w := State.reg_setReg_same s1 _ _
  have number : (s4.chan c).outNo = m.outNo.set p n := by
    have same : (s3.measQueues c p w).chan c = s2.chan c := by rw [State.chan, State.chan, taken.mi]
    rw [chans, same, State.chan_setReg, chan1]
  constructor
  · rw [guarded.reg p hp, shown]; exact code
  · rw [guarded.reg p hp, shown]; exact clkf
  · rw [guarded.reg p hp, shown]; exact settling
  · rw [guarded.reg p hp, shown]; exact stuck
  · rw [guarded.reg p hp, shown]; exact seq
  · rw [guarded.reg p hp, shown, State.outputs, guarded.log]
    exact logged.trans (by rw [taken.clk, State.setReg_clk, State.setChan_clk])
  · rw [guarded.no, number, nth_set_same]

end Sys2Proof.Machine
end

section
/-!
PROOFS. The conditions and the alignment of a measurement channel (R84, R85, R94, R97): clock faults, stuck data and REALIGN.
-/

namespace Sys2Proof.Machine

/-! Folds over numbered things: what one step makes of its own number, the steps of the others leave. -/

section Folds

variable {β : Type} {f : State → Nat → State} (view : State → β)

theorem foldl_keeps {l : List Nat} (h : ∀ s, ∀ j ∈ l, view (f s j) = view s) (s : State) : view (l.foldl f s) = view s := by
  induction l generalizing s with
  | nil => rfl
  | cons j l ih => exact (ih (fun s i hi => h s i (by simp [hi])) _).trans (h s j (by simp))

theorem foldl_visits {k : Nat} {l : List Nat} (distinct : l.Nodup) (hk : k ∈ l)
    (other : ∀ s, ∀ j ∈ l, j ≠ k → view (f s j) = view s) (s : State) :
    ∃ t, view t = view s ∧ view (l.foldl f s) = view (f t k) := by
  obtain ⟨before, after, rfl⟩ := List.append_of_mem hk
  obtain ⟨-, rest, apart⟩ := List.nodup_append.1 distinct
  rw [List.foldl_append, List.foldl_cons]
  refine ⟨before.foldl f s, foldl_keeps view (fun s j hj => other s j (by simp [hj]) ?_) s,
    foldl_keeps view (fun s j hj => other s j (by simp [hj]) ?_) _⟩
  · exact apart j hj k (by simp)
  · rintro rfl
    exact (List.nodup_cons.1 rest).1 hj

end Folds

/-! Status bits. -/

theorem State.getBit_congr {s u : State} {f : Fld} (h : u.reg f.reg = s.reg f.reg) (i : Nat) : u.getBit f i = s.getBit f i := by
  rw [State.getBit, State.getBit, State.rd_congr h]

theorem State.reg_wrB_other (s : State) (f : Fld) (b : Bool) {o : Nat} (h : o ≠ f.reg) : (s.wrB f b).reg o = s.reg o :=
  State.reg_wr_other s f _ o h

theorem State.reg_setBit_other (s : State) (f : Fld) (i : Nat) (b : Bool) {o : Nat} (h : o ≠ f.reg) :
    (s.setBit f i b).reg o = s.reg o := State.reg_wr_other s ⟨f.reg, f.lo + i, 1⟩ _ o h

/-- A status bit and a sticky bit in two registers, set together. -/
theorem State.status_sticky (s : State) (f g : Fld) {i : Nat} (apart : f.reg ≠ g.reg) (hf : f.lo + f.w ≤ 32) (hw : 0 < f.w)
    (hg : g.lo + g.w ≤ 32) (hi : i < g.w) :
    ((s.wrB f true).setBit g i true).rdB f = true ∧ ((s.wrB f true).setBit g i true).getBit g i = true :=
  ⟨(State.rdB_congr (State.reg_setBit_other _ g i true apart)).trans (State.rdB_wrB_same s f true hf hw),
    State.getBit_setBit_same _ g true hi hg⟩

theorem stillReg_err : stillReg R.MI_ERR := stillReg_mi (by decide) (by decide)

/-! Clock faults. -/

/-- CLKF on the newest output of one preset (R85). -/
def State.flagPreset (c : Nat) (s : State) (p : Nat) : State :=
  match s.outputs c p with
  | [] => s
  | (h, w) :: r =>
    { s.wr ⟨presetReg c p, 25, 1⟩ 1 with miLog := Store.put s.miLog [] (4 * c + p) ((h, w ||| 0x02000000) :: r) }

theorem State.reg_withMiLog (s : State) (x : Store (List (Time × Word))) (o : Nat) :
    ({ s with miLog := x } : State).reg o = s.reg o := rfl

theorem State.outputs_withMiLog (s : State) (x : Store (List (Time × Word))) (c p : Nat) :
    ({ s with miLog := x } : State).outputs c p = Store.get x [] (4 * c + p) := rfl

theorem State.flagClock_eq (s : State) (c : Nat) : s.flagClock c = (List.range 4).foldl (State.flagPreset c) s := rfl

theorem State.flagPreset_reg (s : State) (c p : Nat) {o : Nat} (h : o ≠ presetReg c p) :
    (s.flagPreset c p).reg o = s.reg o := by
  unfold State.flagPreset
  split
  · rfl
  · rw [State.reg_withMiLog, State.reg_wr_other s _ _ _ h]

theorem State.flagPreset_outputs (s : State) {c p q : Nat} (h : q ≠ p) : (s.flagPreset c p).outputs c q = s.outputs c q := by
  unfold State.flagPreset
  split
  · rfl
  · rw [State.outputs_withMiLog, Store.get_put_other _ _ _ _ _ (by omega), State.outputs]

theorem State.flagPreset_none {s : State} {c p : Nat} (h : s.outputs c p = []) : s.flagPreset c p = s := by
  unfold State.flagPreset
  rw [h]

theorem State.flagPreset_some {s : State} {c p : Nat} (h : s.outputs c p ≠ []) :
    bits ((s.flagPreset c p).reg (presetReg c p)).toNat 25 1 = 1 := by
  unfold State.flagPreset
  split
  next none => exact absurd none h
  next =>
    rw [State.reg_withMiLog]
    exact State.rd_wr_same s ⟨presetReg c p, 25, 1⟩ 1 (by show 25 + 1 ≤ 32; decide)

theorem State.flagClock_reg (s : State) {c o : Nat} (h : ∀ p < 4, o ≠ presetReg c p) : (s.flagClock c).reg o = s.reg o := by
  rw [State.flagClock_eq]
  exact foldl_keeps (fun s => s.reg o) (fun s p hp => s.flagPreset_reg c p (h p (List.mem_range.1 hp))) s

/-- A clock fault flags every preset that has an output, and leaves the placeholders (R85, R542). -/
theorem State.flagClock_preset (s : State) (c : Nat) {p : Nat} (hp : p < 4) :
    (s.outputs c p ≠ [] → bits ((s.flagClock c).reg (presetReg c p)).toNat 25 1 = 1) ∧
      (s.outputs c p = [] → (s.flagClock c).reg (presetReg c p) = s.reg (presetReg c p)) := by
  obtain ⟨t, before, after⟩ := foldl_visits (f := State.flagPreset c) (fun s => (s.outputs c p, s.reg (presetReg c p)))
    List.nodup_range (List.mem_range.2 hp)
    (fun s q _ hne => Prod.ext (s.flagPreset_outputs hne.symm)
      (s.flagPreset_reg c q (by rw [presetReg_eq, presetReg_eq]; omega))) s
  obtain ⟨outputs, reg⟩ := Prod.mk.inj before
  rw [State.flagClock_eq, (Prod.mk.inj after).2, ← outputs, ← reg]
  exact ⟨State.flagPreset_some, fun none => by rw [State.flagPreset_none none]⟩

/-- A measured period changes the channel's status alone. -/
theorem State.notePeriod_keeps (s : State) (c : Nat) (period : Time) :
    (s.notePeriod c period).miLog = s.miLog ∧ ∀ o, o ≠ R.MI_CHSTAT c → (s.notePeriod c period).reg o = s.reg o := by
  unfold State.notePeriod
  exact ⟨by rw [State.wr_miLog, State.setChan_miLog], fun o ho => by rw [State.reg_wr_other _ _ _ _ ho, State.reg_setChan]⟩

/-- A clock fault, whether its period was measured or no edge came. -/
theorem miClockFault_eq {s : State} {c : Nat} {period : Option Time} (on : s.chanOn c = true) (ext : s.hubClock c = false)
    (bad : badPeriod period = true) : ∃ t : State, t.miLog = s.miLog ∧ (∀ o, o ≠ R.MI_CHSTAT c → t.reg o = s.reg o) ∧
      miClockFault c period s = (((t.wrB (F.MI_CHSTAT_CLK_FAULT c) true).setBit F.MI_ERR_CLK_STICKY c true).flagClock c).live
        (0x030 + c) true := by
  cases period with
  | none => exact ⟨s, rfl, fun _ _ => rfl, by simp [miClockFault, on, ext, bad]⟩
  | some p =>
    obtain ⟨log, reg⟩ := s.notePeriod_keeps c p
    exact ⟨s.notePeriod c p, log, reg, by simp [miClockFault, on, ext, bad]⟩

theorem badPeriod_iff (period : Option Time) :
    badPeriod period = true ↔ ∀ x, period = some x → 2 * x < ns 45 ∨ ns 220 < x := by
  cases period <;> simp [badPeriod]

theorem miClockFault_spec {s : State} {c : Nat} (hc : c < 16) {period : Option Time} (on : s.chanOn c = true)
    (ext : s.hubClock c = false) (bad : badPeriod period = true) :
    (miClockFault c period s).rdB (F.MI_CHSTAT_CLK_FAULT c) = true ∧
      (miClockFault c period s).getBit F.MI_ERR_CLK_STICKY c = true ∧ (miClockFault c period s).liveBit (0x030 + c) = true ∧
      ∀ p < 4, (s.outputs c p ≠ [] → bits ((miClockFault c period s).reg (presetReg c p)).toNat 25 1 = 1) ∧
        (s.outputs c p = [] → (miClockFault c period s).reg (presetReg c p) = s.reg (presetReg c p)) := by
  obtain ⟨t, log, reg, h⟩ := miClockFault_eq on ext bad
  rw [h]
  obtain ⟨fault, sticky⟩ := t.status_sticky (F.MI_CHSTAT_CLK_FAULT c) F.MI_ERR_CLK_STICKY (i := c)
    (by simp only [F.MI_CHSTAT_CLK_FAULT, F.MI_ERR_CLK_STICKY]; omega) (by simp [F.MI_CHSTAT_CLK_FAULT])
    (by simp [F.MI_CHSTAT_CLK_FAULT]) (by decide) hc
  have presets (p : Nat) (hp : p < 4) :
      ((t.wrB (F.MI_CHSTAT_CLK_FAULT c) true).setBit F.MI_ERR_CLK_STICKY c true).reg (presetReg c p) = s.reg (presetReg c p) := by
    calc _ = (t.wrB (F.MI_CHSTAT_CLK_FAULT c) true).reg (presetReg c p) :=
          State.reg_setBit_other _ _ _ _ (by rw [presetReg_eq]; simp only [F.MI_ERR_CLK_STICKY]; omega)
      _ = t.reg (presetReg c p) := State.reg_wrB_other _ _ _ (presetReg_ne_chstat hp)
      _ = s.reg (presetReg c p) := reg _ (presetReg_ne_chstat hp)
  have logs : ((t.wrB (F.MI_CHSTAT_CLK_FAULT c) true).setBit F.MI_ERR_CLK_STICKY c true).miLog = s.miLog := log
  generalize (t.wrB (F.MI_CHSTAT_CLK_FAULT c) true).setBit F.MI_ERR_CLK_STICKY c true = x at *
  have flagged {o : Nat} (still : stillReg o) (ho : ∀ p < 4, o ≠ presetReg c p) :
      ((x.flagClock c).live (0x030 + c) true).reg o = x.reg o :=
    (State.reg_live_still _ _ still (by omega)).trans (x.flagClock_reg ho)
  refine ⟨?_, ?_, State.liveBit_live _ _ _ (by omega), fun p hp => ?_⟩
  · exact (State.rdB_congr (flagged (stillReg_chstat hc) fun p hp => (presetReg_ne_chstat hp).symm)).trans fault
  · refine (State.getBit_congr (flagged stillReg_err fun p hp => ?_) c).trans sticky
    rw [presetReg_eq]
    simp only [F.MI_ERR_CLK_STICKY]
    omega
  · rw [State.reg_live_still _ _ (stillReg_preset hc hp) (by omega), State.outputs, ← logs, ← presets p hp]
    exact x.flagClock_preset c hp

theorem miClockRecovery_spec {s : State} {c : Nat} (hc : c < 16) {period : Time} (on : s.chanOn c = true)
    (ext : s.hubClock c = false) (fault : s.rdB (F.MI_CHSTAT_CLK_FAULT c) = true) (lo : ns 25 ≤ period)
    (hi : period ≤ ns 200) :
    (miClockRecovery c period s).rdB (F.MI_CHSTAT_CLK_FAULT c) = false ∧
      (miClockRecovery c period s).liveBit (0x030 + c) = false ∧
      (miClockRecovery c period s).rd (F.MI_CHSTAT_EXT_PERIOD c) = period / 65536 := by
  have ended : miClockRecovery c period s =
      ((s.notePeriod c period).wrB (F.MI_CHSTAT_CLK_FAULT c) false).live (0x030 + c) false := by
    simp [miClockRecovery, on, ext, fault, Nat.not_lt.2 lo, Nat.not_lt.2 hi]
  have still := State.reg_live_still ((s.notePeriod c period).wrB (F.MI_CHSTAT_CLK_FAULT c) false) (src := 0x030 + c) false
    (stillReg_chstat hc) (by omega)
  rw [ended]
  refine ⟨?_, State.liveBit_live _ _ _ (by omega), ?_⟩
  · exact (State.rdB_congr still).trans
      (State.rdB_wrB_same _ _ _ (by simp [F.MI_CHSTAT_CLK_FAULT]) (by simp [F.MI_CHSTAT_CLK_FAULT]))
  · have small : period / 65536 ≤ 200 := Nat.le_trans (Nat.div_le_div_right hi) (by decide)
    calc _ = ((s.notePeriod c period).wrB (F.MI_CHSTAT_CLK_FAULT c) false).rd (F.MI_CHSTAT_EXT_PERIOD c) := State.rd_congr still
      _ = (s.notePeriod c period).rd (F.MI_CHSTAT_EXT_PERIOD c) :=
          State.rd_wr_fld _ _ _ _ (by simp [F.MI_CHSTAT_EXT_PERIOD]) (by simp [F.MI_CHSTAT_EXT_PERIOD, F.MI_CHSTAT_CLK_FAULT])
      _ = min 255 (period / 65536) % 2 ^ 8 := State.rd_wr_same _ _ _ (by simp [F.MI_CHSTAT_EXT_PERIOD])
      _ = period / 65536 := by
          rw [Nat.min_eq_right (Nat.le_trans small (by decide)), Nat.mod_eq_of_lt (Nat.lt_of_le_of_lt small (by decide))]

/-! Stuck data. -/

theorem State.chan_live (s : State) (src : Nat) (on : Bool) (c : Nat) : (s.live src on).chan c = s.chan c := by
  rw [State.chan, (State.live_keeps s src on).mi, State.wrB_mi, State.chan]

theorem modulatorStuck_spec {s : State} {c : Nat} (hc : c < 16) (on : s.chanOn c = true) :
    (modulatorStuck c s).rdB (F.MI_CHSTAT_OVR c) = true ∧ (modulatorStuck c s).getBit F.MI_ERR_OVR_STICKY c = true ∧
      (modulatorStuck c s).liveBit (0x020 + c) = true ∧ ((modulatorStuck c s).chan c).stuck = true := by
  unfold modulatorStuck
  extract_lets _ x
  rw [on, Bool.not_true, if_neg Bool.false_ne_true]
  obtain ⟨status, sticky⟩ := x.status_sticky (F.MI_CHSTAT_OVR c) F.MI_ERR_OVR_STICKY (i := c)
    (by simp only [F.MI_CHSTAT_OVR, F.MI_ERR_OVR_STICKY]; omega) (by simp [F.MI_CHSTAT_OVR])
    (by simp [F.MI_CHSTAT_OVR]) (by decide) hc
  refine ⟨?_, ?_, State.liveBit_live _ _ _ (by omega), ?_⟩
  · exact (State.rdB_congr (State.reg_live_still _ _ (stillReg_chstat hc) (by omega))).trans status
  · exact (State.getBit_congr (State.reg_live_still _ _ stillReg_err (by omega)) c).trans sticky
  · rw [State.chan_live, State.chan_setBit, State.chan_wrB, State.chan_setChan_same]

theorem modulatorStuckEnd_spec {s : State} {c : Nat} (hc : c < 16) (stuck : (s.chan c).stuck = true) :
    (modulatorStuckEnd c s).rdB (F.MI_CHSTAT_OVR c) = false ∧ (modulatorStuckEnd c s).liveBit (0x020 + c) = false ∧
      ((modulatorStuckEnd c s).chan c).stuck = false ∧ ((modulatorStuckEnd c s).chan c).stuckEnd = some s.clk.hall := by
  unfold modulatorStuckEnd
  extract_lets x
  rw [if_pos stuck, State.chan_live, State.chan_wrB, State.chan_setChan_same]
  refine ⟨?_, State.liveBit_live _ _ _ (by omega), rfl, rfl⟩
  exact (State.rdB_congr (State.reg_live_still _ _ (stillReg_chstat hc) (by omega))).trans
    (State.rdB_wrB_same _ _ _ (by simp [F.MI_CHSTAT_OVR]) (by simp [F.MI_CHSTAT_OVR]))

/-! Alignment. -/

/-- What the alignment of channel `c` reads and writes. -/
def State.alignView (s : State) (c : Nat) : ClkSt × MiChan × Word × Word × Word :=
  (s.clk, s.chan c, s.reg R.MI_CTRL, s.reg (R.MI_CFG c), s.reg (R.MI_CHSTAT c))

theorem State.chan_setChan_other (s : State) {c d : Nat} (m : MiChan) (h : d ≠ c) : (s.setChan c m).chan d = s.chan d :=
  Store.get_put_other _ _ _ _ _ h

theorem State.hubClock_setChan (s : State) (c d : Nat) (m : MiChan) : (s.setChan c m).hubClock d = s.hubClock d :=
  congrArg not (State.rdB_setChan s c m _)

/-- The alignment of another channel. -/
theorem State.alignChan_view (s : State) {c d : Nat} (h : d ≠ c) : (s.alignChan d).alignView c = s.alignView c := by
  have regs (x : State) (b : Bool) {o : Nat} (h1 : o ≠ R.MI_STAT) (h2 : o ≠ R.MI_CHSTAT d) :
      (x.setAligned d b).reg o = x.reg o :=
    (State.reg_wrB_other _ _ _ h2).trans (State.reg_setBit_other _ _ _ _ h1)
  unfold State.alignChan
  split
  · extract_lets m per hall ix x
    unfold State.alignView
    rw [regs _ _ (by decide) (by simp only [R.MI_CTRL, R.MI_CHSTAT]; omega),
      regs _ _ (by simp only [R.MI_CFG, R.MI_STAT]; omega) (by simp only [R.MI_CFG, R.MI_CHSTAT]; omega),
      regs _ _ (by simp only [R.MI_CHSTAT, R.MI_STAT]; omega) (by simp only [R.MI_CHSTAT]; omega),
      State.setAligned, State.wrB_clk, State.setBit_clk, State.chan_wrB, State.chan_setBit,
      State.chan_setChan_other s _ h.symm]
    rfl
  · rfl

/-- An enabled channel that the hub clocks is aligned to the present cycle (R94). -/
theorem State.alignChan_hub {s : State} {c : Nat} (on : s.chanOn c = true) (hub : s.hubClock c = true) :
    ((s.alignChan c).chan c).alignHall = s.clk.tkHall ∧
      ((s.alignChan c).chan c).startIx = ceilDiv (s.clk.hall + ns 900 - s.clk.tkHall) (max 1 (s.modPeriod c)) ∧
      (s.alignChan c).rdB (F.MI_CHSTAT_ALIGNED c) = true := by
  unfold State.alignChan
  extract_lets m per hall ix x
  rw [if_pos on, State.hubClock_setChan, hub, State.setAligned, State.chan_wrB, State.chan_setBit, State.chan_setChan_same]
  exact ⟨rfl, if_pos hub, State.rdB_wrB_same _ _ _ (by simp [F.MI_CHSTAT_ALIGNED]) (by simp [F.MI_CHSTAT_ALIGNED])⟩

theorem State.realignAll_spec {s : State} {c : Nat} (hc : c < 16) (on : s.chanOn c = true) (hub : s.hubClock c = true) :
    (s.realignAll.chan c).alignHall = s.clk.tkHall ∧
      (s.realignAll.chan c).startIx = ceilDiv (s.clk.hall + ns 900 - s.clk.tkHall) (max 1 (s.modPeriod c)) ∧
      s.realignAll.rdB (F.MI_CHSTAT_ALIGNED c) = true := by
  obtain ⟨t, before, after⟩ := foldl_visits (f := fun s c => if s.chanOn c && s.hubClock c then s.alignChan c else s)
    (fun s => s.alignView c) List.nodup_range (List.mem_range.2 hc)
    (fun s d _ hne => by
      split
      · exact s.alignChan_view hne
      · rfl) s
  simp only [State.alignView, Prod.mk.injEq] at before
  obtain ⟨clk, chan, ctrl, cfg, -⟩ := before
  have on' : t.chanOn c = true := (State.rdB_congr cfg).trans on
  have hub' : t.hubClock c = true := (congrArg not (State.rdB_congr cfg)).trans hub
  have period : t.modPeriod c = s.modPeriod c := by
    rw [State.modPeriod, State.modPeriod, if_pos hub', if_pos hub, State.rd_congr ctrl]
  rw [on', hub', Bool.and_true, if_pos rfl] at after
  simp only [State.alignView, Prod.mk.injEq] at after
  obtain ⟨-, aligned, -, -, status⟩ := after
  have := State.alignChan_hub on' hub'
  rw [clk, period, ← aligned, ← State.rdB_congr status] at this
  exact this

end Sys2Proof.Machine
end

section
/-!
PROOFS. Measurement inputs (R84 to R98): the commands' outcomes.
-/

namespace Sys2Proof.Machine

/-! The output instants (R84, R93). -/

section Instants

variable {s : State} {c p : Nat} (rise fall : Nat) (per t : Time)

theorem presetOutput_hub (on : s.chanOn c = true) (hub : s.hubClock c = true) : presetOutput c p rise fall per t s =
    ((s.advanceHall ((s.chan c).alignHall + s.nextOutput c p * presetOsr p * s.modPeriod c - ns 900)).sampleTo c
      (s.nextOutput c p * presetOsr p) rise fall).output c p (s.nextOutput c p) := by
  simp [presetOutput, on, hub]

theorem presetOutput_ext (on : s.chanOn c = true) (ext : s.hubClock c = false)
    (clocked : (s.advance t).rdB (F.MI_CHSTAT_CLK_FAULT c) = false) (good : badPeriod (some per) = false) {y : State}
    (noted : y = (s.advance t).notePeriod c per) : presetOutput c p rise fall per t s =
      (y.sampleTo c (y.nextOutput c p * presetOsr p) rise fall).output c p (y.nextOutput c p) := by
  subst noted
  simp only [presetOutput, on, ext, clocked, good, Bool.not_true, Bool.false_eq_true, if_false]

end Instants

/-! A command reads and changes a channel behind the gate and at its instant. -/

section Advance

variable (s : State) (t : Time) (c p : Nat)

@[simp] theorem State.chanOn_advance : (s.advance t).chanOn c = s.chanOn c := State.rdB_advance s t _
@[simp] theorem State.hubClock_advance : (s.advance t).hubClock c = s.hubClock c := congrArg not (State.rdB_advance s t _)
@[simp] theorem State.modPeriod_advance : (s.advance t).modPeriod c = s.modPeriod c := by simp [State.modPeriod]
@[simp] theorem State.outputs_advance : (s.advance t).outputs c p = s.outputs c p := by simp [State.outputs]

end Advance

theorem State.OutputFrom.onChip {x s : State} {f : State → State} {c p n : Nat} (h : x.OutputFrom (f s) c p n) :
    x.OutputFrom (s.onChip f) c p n :=
  ⟨h.code, h.clkf, h.settling, h.stuck, h.seq, h.log, h.no⟩

/-- Settles O13: command by command. The model's own choice in it: the flag of a clock fault stays on the latest output after the
recovery, until the preset's next one (log entry 69). -/
theorem measurementChannelsFollowTheirInputs : Obligations.MeasurementChannelsFollowTheirInputs := by
  refine ⟨fun s x c p rise fall n per t held on hub hn hx => ?_,
    fun s x y c p rise fall n per t held on ext clocked lo hi hy hn hx => ?_,
    fun s c period t held on ext bad => ?_, fun s c period t held on ext fault lo hi => ?_, fun s c t held on => ?_,
    fun s c t held stuck => ?_, fun s t held => ?_, fun s t held => ?_⟩
  · refine ⟨_, rfl, ?_⟩
    rw [State.onHub_awake s _ held]
    refine .onChip ?_
    rw [presetOutput_hub rise fall per t on hub, ← hn, ← hx]
    exact x.output_spec c.isLt p.isLt n
  · have good : badPeriod (some per) = false := by
      simp [badPeriod, Nat.not_lt.2 lo, Nat.not_lt.2 hi]
    refine ⟨_, rfl, ?_⟩
    rw [State.onHub_awake s _ held]
    refine .onChip ?_
    rw [presetOutput_ext rise fall per t on ext (by rwa [State.rdB_advance]) good hy, ← hn, ← hx]
    exact x.output_spec c.isLt p.isLt n
  · obtain ⟨shown, sticky, live, flags⟩ := miClockFault_spec (s := s.advance t) c.isLt (by simpa using on) (by simpa using ext)
      ((badPeriod_iff period).2 bad)
    simp only [State.outputs_advance, State.reg_advance] at flags
    refine ⟨_, rfl, ?_⟩
    simp only [State.onHubAt_awake s t _ held, State.onChip_rdB, State.onChip_getBit, State.onChip_liveBit, State.onChip_reg]
    exact ⟨shown, sticky, live, fun p => flags p p.isLt⟩
  · refine ⟨_, rfl, ?_⟩
    simp only [State.onHubAt_awake s t _ held, State.onChip_rdB, State.onChip_rd, State.onChip_liveBit]
    exact miClockRecovery_spec c.isLt (by simpa using on) (by simpa using ext) (by simpa using fault) lo hi
  · refine ⟨_, rfl, ?_⟩
    simp only [State.onHubAt_awake s t _ held, State.onChip_rdB, State.onChip_getBit, State.onChip_liveBit, State.onChip_chan]
    exact modulatorStuck_spec c.isLt (by simpa using on)
  · refine ⟨_, rfl, ?_⟩
    simp only [State.onHubAt_awake s t _ held, State.onChip_rdB, State.onChip_liveBit, State.onChip_chan]
    exact modulatorStuckEnd_spec c.isLt (by simpa using stuck)
  · refine ⟨_, rfl, ?_⟩
    simp only [State.onHubAt_awake s t _ held, State.onChip_miApply, State.onChip_mi, State.onChip_regs]
    exact ⟨rfl, State.advance_mi s t, State.advance_regs s t⟩
  · refine ⟨_, rfl, fun deblocked => ?_, fun blocked c on hub => ?_⟩
    · have ignored : realign (s.advance t) = (s.advance t).raise 0x006 := if_pos (by rwa [State.anyDeblocked_advance])
      simp only [State.onHubAt_awake s t _ held, State.onChip_latchBit, State.onChip_mi, ignored]
      exact ⟨State.latched_raise _ _ _ _ (by simp) (by decide), (RaiseKeeps.raise0 _ _).mi.trans (State.advance_mi s t)⟩
    · have aligned : realign (s.advance t) = (s.advance t).realignAll :=
        if_neg (by rw [State.anyDeblocked_advance, blocked]; exact Bool.false_ne_true)
      simp only [State.onHubAt_awake s t _ held, State.onChip_chan, State.onChip_rdB, aligned]
      simpa only [State.tkHall_advance, State.modPeriod_advance] using
        State.realignAll_spec (s := s.advance t) c.isLt (by simpa using on) (by simpa using hub)

end Sys2Proof.Machine
end

section
/-!
PROOFS. Core memory (R141, R402, R489, R491): only an engine pass, a BAR2 write and the boot copy write it, and each of their
writes keeps its canonical form.
-/

namespace Sys2Proof.Machine

/-! Who changes core memory. -/

/-- From `s` to `u` core memory has stayed. -/
structure State.KeepsCoreMem (s u : State) : Prop where
  mem : u.coreMem = s.coreMem

namespace State.KeepsCoreMem

/-! One rule per gate. -/

theorem onHub (s : State) (f : State → State) : s.KeepsCoreMem (s.onHub f) := ⟨State.onHub_coreMem s f⟩
theorem onChip (s : State) (f : State → State) : s.KeepsCoreMem (s.onChip f) := ⟨State.onChip_coreMem s f⟩
theorem onSafety (s : State) (f : State → State) : s.KeepsCoreMem (s.onSafety f) := ⟨State.onSafety_coreMem s f⟩

theorem onLane (s : State) (l : Lane) (t : Time) (f : Lane → State → State) : s.KeepsCoreMem (s.onLane l t f) :=
  ⟨State.onLane_coreMem s l t f⟩

/-- A command of a Tread, by what it leaves of the hub (R7). -/
theorem of_tread {s u : State} {i : Cell} (h : s.KeepsSide (some i) u) : s.KeepsCoreMem u := ⟨by rw [h.hub i rfl]⟩

end State.KeepsCoreMem

/-- Every command but three keeps core memory, by the gate that it passes. -/
theorem exec_keepsCoreMem (c : Instr) (s : State) (pass : c ≠ .enginePass) (bar2 : ∀ off bytes t, c ≠ .bar2Write off bytes t)
    (boot : ∀ a b t, c ≠ .bootVerify a b t) : ∃ u, exec c s = .next u ∧ s.KeepsCoreMem u := by
  cases c with
  | enginePass => exact absurd rfl pass
  | bar2Write off bytes t => exact absurd rfl (bar2 off bytes t)
  | bootVerify a b t => exact absurd rfl (boot a b t)
  | registerWrite who tgt off v t =>
    cases tgt with
    | none => exact ⟨_, rfl, .onHub s _⟩
    | some i => exact ⟨_, rfl, .of_tread (.onTread s i _)⟩
  | rcRead who tgt off t =>
    cases tgt with
    | none => exact ⟨_, rfl, .onHub s _⟩
    | some i => exact ⟨_, rfl, .of_tread (.readBus s (some i) t _ _)⟩
  | resourceGrant g t =>
    cases g with
    | hub res asks => exact ⟨_, rfl, .onHub s _⟩
    | tread i asks => exact ⟨_, rfl, .of_tread (.onTread s i _)⟩
  | treadSupplyGood => exact ⟨_, rfl, .of_tread (.updTread s _ _)⟩
  | outboundFrame | inboundFrame | rd | wr | bwr | fwblk | cartAdmit | linkTake | linkRelease | rateQuery | rateGo | ident
  | actionInstant | ditherEdge | deadTimeTurnOn | gateFeedbackOff | gfbMismatch | carrierEdge | refreshRequest | notchEnd
  | carrierNotch | bypConfRise | bypassGatesOff | bypassConfTimeout | thyFirePulse | bypassTest | bypassRelease
  | landingActionBase | frameLossWatchdog | guardWatchdog | treadBootDecision | treadSupplyFall | ovSetMeasure | guardTrip
  | supokLoss | verify | verifyDone | fwSwitch | adcConversion | desatFault | digestUpdate | tSchReady | tSchWait
  | tSchSleep | tSchPrio | tSchSuspend | tSchWake | tEvcSelect | tFltClr => exact ⟨_, rfl, .of_tread (.onTread s _ _)⟩
  | blockLock l t | lossOfLock l t | lossOfSignal l t | signalReturn l t | rateSwitch l t | linkFaultReceived l t
  | linkFaultCleared l t | farendReceived l t | farendStops l t => exact ⟨_, rfl, .onLane s l t _⟩
  | permitToken | tokenTimeout | selftestDone | safetyInternalFault | safReset | safetyTrip | sboRel | dclr | test
  | sboPulseTest | readbackFailure | safetyInputChange | discrepancyTimeout | balustradeOutput | balustradeClockLoss
  | lockKey | close | abandon | lockTimeout | safetyDiagnostic => exact ⟨_, rfl, .onSafety s _⟩
  | islandClockFault | pllLock | refLoss | powerOnReset | resetPin | chip | thermalShutdown | pfail | islandClockReturn
  | railOutOfRange | coreVoltageOutOfRange | thermalShutdownEnd | resetNRelease | pfailNRise | jtagInstruction =>
    exact ⟨_, rfl, .onChip s _⟩
  | _ => exact ⟨_, rfl, .onHub s _⟩

/-! What the three commands write. -/

theorem wf_storeWords (l : List (Nat × Nat)) {m : List Host.Cell} (h : Memory.wf m) :
    Memory.wf (l.foldl (fun m p => writeBytes m p.1 4 p.2) m) := by
  induction l generalizing m with
  | nil => exact h
  | cons p l ih => exact ih (wf_writeBytes m p.1 4 p.2 h)

theorem State.onPass_wf (f : State → State × List (Nat × Nat)) {s : State} (h : Memory.wf s.coreMem) :
    Memory.wf (s.onPass f).coreMem := by
  unfold State.onPass
  split
  · exact h
  · exact wf_storeWords _ h

theorem State.onHubMem_wf {f : State → State} {s : State} (h : Memory.wf s.coreMem)
    (hf : Memory.wf (f s).coreMem) : Memory.wf (s.onHubMem f).coreMem := by
  unfold State.onHubMem
  split
  · exact h
  · exact hf

theorem bar2Write_wf (off : Nat) (bytes : List Byte) {s : State} (h : Memory.wf s.coreMem) :
    Memory.wf (bar2Write off bytes s).coreMem := by
  unfold bar2Write
  split
  · exact h
  · exact wf_writeBytes _ _ _ _ h

theorem State.setIrq_coreMem (s : State) (c : Nat) (on : Bool) : (s.setIrq c on).coreMem = s.coreMem := (rfl)

theorem State.setNext_coreMem (s : State) (c : Nat) (t : Option Nat) : (s.setNext c t).coreMem = s.coreMem := by
  unfold State.setNext
  extract_lets s1
  split
  · simp only [s1, State.wr_coreMem, State.wrB_coreMem]
  · simp only [s1, State.setIrq_coreMem, State.wr_coreMem, State.wrB_coreMem]

theorem State.bootStart_coreMem (s : State) (l : List Byte) : (s.bootStart l).coreMem = s.coreMem := by
  simp only [State.bootStart, State.startCore, State.setRun, State.setIrq_coreMem, State.setNext_coreMem, State.wr_coreMem,
    State.wrB_coreMem]

/-- An image goes to core memory whether it passes its check or not (R491). -/
theorem State.trySlot_wf (b : Bool) (x : Option (List Byte)) {s : State} (h : Memory.wf s.coreMem) :
    Memory.wf (s.trySlot b x).1.coreMem := by
  unfold State.trySlot
  cases x with
  | none => exact h
  | some i =>
    have copied : Memory.wf (writeBytes s.coreMem 0 i.length (imgNum i 0 i.length)) := wf_writeBytes _ _ _ _ h
    dsimp only
    split
    · simpa only [State.bootStart_coreMem, State.wrB_coreMem, State.wr_coreMem] using copied
    · simpa only [State.wrB_coreMem, State.wr_coreMem] using copied

theorem bootVerify_wf (a b : Option (List Byte)) {s : State} (h : Memory.wf s.coreMem) :
    Memory.wf (bootVerify a b s).coreMem := by
  unfold bootVerify
  extract_lets first pick r q
  have one : Memory.wf r.1.coreMem := State.trySlot_wf _ _ h
  have both : Memory.wf q.1.coreMem := by
    show Memory.wf (if _ then _ else _ : State × Bool).1.coreMem
    split
    · exact State.trySlot_wf _ _ one
    · exact one
  split
  · exact h
  · split
    · exact one
    · split
      · exact both
      · rwa [State.wrB_coreMem]

/-- Every command keeps the canonical form. -/
theorem exec_wf {c : Instr} {s u : State} (h : Memory.wf s.coreMem) (hu : exec c s = .next u) : Memory.wf u.coreMem := by
  have same (kept : ∃ v, exec c s = .next v ∧ s.KeepsCoreMem v) : Memory.wf u.coreMem := by
    obtain ⟨v, hv, ⟨kept⟩⟩ := kept
    rw [hu] at hv
    cases hv
    rwa [kept]
  cases c with
  | enginePass =>
    cases hu
    exact State.onPass_wf enginePass h
  | bar2Write off bytes t =>
    cases hu
    exact State.onHubMem_wf h (bar2Write_wf off bytes (by rwa [State.advance_coreMem]))
  | bootVerify a b t =>
    cases hu
    exact State.onHubMem_wf h (bootVerify_wf a b (by rwa [State.advance_coreMem]))
  | _ => exact same (exec_keepsCoreMem _ s nofun nofun nofun)

/-- Settles O38: who writes core memory, by the gates; its form, by the three commands that write it, and a step by the command at
the front of the queue. -/
theorem stepsKeepCoreMemoryInForm : Obligations.StepsKeepCoreMemoryInForm := by
  refine ⟨fun c s u hu pass bar2 boot => ?_, fun s u h hu => ?_⟩
  · obtain ⟨v, hv, ⟨kept⟩⟩ := exec_keepsCoreMem c s pass bar2 boot
    rw [hu] at hv
    cases hv
    exact kept
  · unfold step at hu
    split at hu
    · cases hu
      exact h
    · next c rest _ => exact exec_wf (s := { s with pending := rest }) h hu

end Sys2Proof.Machine
end

section
/-!
PROOFS. Status fields of the engine (Tables 12, 28 and 31 of spec/04), its staging areas and mailboxes (R130 to R133).
-/

namespace Sys2Proof.Machine

/-! Fields. -/

/-- Field `g` lies in one word and shares no bit with `f`. -/
abbrev FldApart (f g : Fld) : Prop := g.lo + g.w ≤ 32 ∧ (g.reg ≠ f.reg ∨ f.lo + f.w ≤ g.lo ∨ g.lo + g.w ≤ f.lo)

section Apart

variable {s : State} {f g : Fld}

theorem State.rd_wr_apart {v : Nat} (h : FldApart f g) : (s.wr f v).rd g = s.rd g := by
  obtain ⟨word, reg | bits⟩ := h
  · exact State.rd_wr_reg s f g v reg
  · exact State.rd_wr_fld s f g v word bits

theorem State.rdB_wr_apart {v : Nat} (h : FldApart f g) : (s.wr f v).rdB g = s.rdB g := congrArg (· != 0) (State.rd_wr_apart h)
theorem State.rd_wrB_apart {b : Bool} (h : FldApart f g) : (s.wrB f b).rd g = s.rd g := State.rd_wr_apart h
theorem State.rdB_wrB_apart {b : Bool} (h : FldApart f g) : (s.wrB f b).rdB g = s.rdB g := State.rdB_wr_apart h

end Apart

/-! The engine's own state, beside the registers. -/

section Engine

variable (s : State) (x : AceSt)

@[simp] theorem State.rd_withAce (f : Fld) : ({ s with ace := x } : State).rd f = s.rd f := (rfl)
@[simp] theorem State.rdB_withAce (f : Fld) : ({ s with ace := x } : State).rdB f = s.rdB f := (rfl)

variable (f : State → State) (t : Time)

@[simp] theorem State.onChip_blk (b : Nat) : (s.onChip f).blk b = (f s).blk b := (rfl)
@[simp] theorem State.onChip_bank (active : Bool) : (s.onChip f).bank active = (f s).bank active := (rfl)
@[simp] theorem State.onChip_stgStat (q : Nat) : (s.onChip f).stgStat q = (f s).stgStat q := (rfl)

@[simp] theorem State.bank_advance (active : Bool) : (s.advance t).bank active = s.bank active := by simp [State.bank]
@[simp] theorem State.stgStat_advance (q : Nat) : (s.advance t).stgStat q = s.stgStat q := by simp [State.stgStat]
@[simp] theorem State.stgWords_advance (q : Nat) : (s.advance t).stgWords q = s.stgWords q := by simp [State.stgWords]
@[simp] theorem State.nextCommit_advance (m : Nat) : (s.advance t).nextCommit m = s.nextCommit m := by simp [State.nextCommit]
@[simp] theorem State.targetOk_advance : (s.advance t).targetOk = s.targetOk := by simp [State.targetOk, State.deblocked]
@[simp] theorem State.armOf_advance (r : Nat) : (s.advance t).armOf r = s.armOf r := by
  rw [State.armOf, State.armOf, State.ringField, State.ringField, State.erd_advance, State.dupMode_advance]
@[simp] theorem State.armOn_advance (a : Nat) : (s.advance t).armOn a = s.armOn a := by
  simp only [State.armOn, State.ringsOf, State.armOf_advance, State.erd_advance, State.erdB_advance]
@[simp] theorem State.checkList_advance : (s.advance t).checkList = s.checkList := by
  simp only [State.checkList, State.bank_advance, State.rdB_advance, State.rd_advance, funext (State.armOn_advance s t)]

end Engine

/-! Staging areas (R130, R131). -/

theorem State.stgStat_setStgStat_same (s : State) (q v : Nat) : (s.setStgStat q v).stgStat q = v % 2 ^ 32 := by
  rw [State.stgStat, State.setStgStat, Store.get_put_same, BitVec.toNat_ofNat]

theorem State.stgStat_setStgStat_other (s : State) {q r : Nat} (v : Nat) (h : r ≠ q) :
    (s.setStgStat q v).stgStat r = s.stgStat r := congrArg BitVec.toNat (Store.get_put_other _ _ _ _ _ h)

/-- A bit of a staging area's status that has just been written. -/
theorem State.bit_setStgStat (s : State) (q v x : Nat) {i : Nat} (hi : i < 32) :
    bitOf ((s.setStgStat q (setBits v i 1 x)).stgStat q) i = x.testBit 0 := by
  rw [State.stgStat_setStgStat_same, bitOf_eq_testBit, Nat.testBit_mod_two_pow, testBit_setBits, decide_eq_true hi,
    if_pos ⟨Nat.le_refl i, Nat.lt_succ_self i⟩, Nat.sub_self, Bool.true_and]

/-- A commit of a requester with a commit pending is refused (R131). -/
theorem State.commitMbx_pending {s : State} {q : Nat} (m : Nat) (words : List Word) (pend : bitOf (s.stgStat q) 0 = true) :
    bitOf ((s.commitMbx q m words).stgStat q) 1 = true ∧ (s.commitMbx q m words).ace.waiting = s.ace.waiting := by
  rw [State.commitMbx, if_pos pend]
  exact ⟨s.bit_setStgStat q _ 1 (by decide), rfl⟩

/-- A commit of a requester without one is presented (R131). -/
theorem State.commitMbx_free {s : State} {q m : Nat} (hm : m < 64) (words : List Word) (free : bitOf (s.stgStat q) 0 = false) :
    (s.commitMbx q m words).stgStat q = 1 + m * 4 ∧ (s.commitMbx q m words).ace.waiting =
      s.ace.waiting ++ [{ slot := s.cyc, who := q, mbx := m, words := words }] := by
  rw [State.commitMbx, if_neg (by rw [free]; exact Bool.false_ne_true), State.stgStat_setStgStat_same, Nat.mod_eq_of_lt hm]
  exact ⟨Nat.mod_eq_of_lt (by omega), rfl⟩

/-! Grants (R131, R416). -/

/-- From `s` to `u` the granted commits and the staging status of the cores have stayed. -/
structure State.KeepsGrants (s u : State) : Prop where
  granted : u.ace.granted = s.ace.granted
  cores : ∀ q, q ≠ 4 → u.stgStat q = s.stgStat q

namespace State.KeepsGrants

theorem of_ace {s u : State} (h : u.ace = s.ace) : s.KeepsGrants u :=
  ⟨by rw [h], fun q _ => by rw [State.stgStat, State.stgStat, h]⟩

theorem trans {s t u : State} (h : s.KeepsGrants t) (k : t.KeepsGrants u) : s.KeepsGrants u :=
  ⟨k.granted.trans h.granted, fun q hq => (k.cores q hq).trans (h.cores q hq)⟩

theorem foldl {α : Type} (f : State → α → State) (l : List α) (h : ∀ (s : State) x, s.KeepsGrants (f s x)) (s : State) :
    s.KeepsGrants (l.foldl f s) := by
  induction l generalizing s with
  | nil => exact of_ace rfl
  | cons x l ih => exact (h s x).trans (ih _)

theorem ringIdle (s : State) (n : Nat) : s.KeepsGrants (s.ringIdle n) := by
  unfold State.ringIdle
  extract_lets s1
  have idle : s1.ace = s.ace := by simp only [s1, State.wrB_ace, State.updHring_ace]
  split
  · exact of_ace (by rw [State.wrB_ace, State.updHring_ace, idle])
  · exact of_ace idle

theorem putCompl (s : State) (n cid status result cyc : Nat) : s.KeepsGrants (s.putCompl n cid status result cyc) := by
  have ring : s.cqOf n < 64 := by
    have := State.rd_lt s (F.HQ_RING_CFG_CQ n)
    simp only [State.cqOf, F.HQ_RING_CFG_CQ] at *
    omega
  unfold State.putCompl State.putComplAt
  extract_lets q e
  split
  · exact of_ace (RaiseKeeps.ringWrite s q e ring).ace
  · exact of_ace (State.updHring_ace s q _)

theorem finish (s : State) (n cid status result cyc : Nat) : s.KeepsGrants (s.finish n cid status result cyc) :=
  (putCompl s n cid status result cyc).trans (ringIdle _ n)

theorem setStgStat (s : State) (v : Nat) : s.KeepsGrants (s.setStgStat 4 v) :=
  ⟨rfl, fun _ core => s.stgStat_setStgStat_other v core⟩

theorem withStaging (s : State) (x : Store Word) : s.KeepsGrants { s with ace := { s.ace with staging := x } } :=
  ⟨rfl, fun _ _ => rfl⟩

theorem withWaiting (s : State) (l : List MbxCommit) : s.KeepsGrants { s with ace := { s.ace with waiting := l } } :=
  ⟨rfl, fun _ _ => rfl⟩

theorem commitMbx (s : State) (m : Nat) (words : List Word) : s.KeepsGrants (s.commitMbx 4 m words) := by
  unfold State.commitMbx
  split
  · exact setStgStat s _
  · exact (withWaiting s _).trans (setStgStat _ _)

theorem waitOn (s : State) (n : Nat) (w : RingWait) : s.KeepsGrants (s.waitOn n w) :=
  of_ace (by rw [State.waitOn, State.wrB_ace, State.updHring_ace])

theorem mbxPresent (s : State) (n cid m : Nat) (words : List Word) : s.KeepsGrants (s.mbxPresent n cid m words) :=
  ((withStaging s _).trans (commitMbx _ m words)).trans (waitOn _ n _)

theorem hostGrants (s : State) : s.KeepsGrants s.hostGrants := by
  unfold State.hostGrants
  extract_lets s1
  have finished : s.KeepsGrants s1 := by
    refine foldl _ _ (fun s n => ?_) s
    split
    · exact finish s _ _ _ _ _
    · exact of_ace rfl
  split
  · exact of_ace rfl
  · split
    · exact finished
    · split
      · exact finished.trans (mbxPresent s1 _ _ _ _)
      · exact finished

end State.KeepsGrants

/-- The next commit of a mailbox is granted once in a cycle (R131). -/
theorem mailboxGrant_spec {s : State} {m : Nat} {c : MbxCommit} (next : s.nextCommit m = some c)
    (first : s.ace.granted.any (fun c => c.mbx == m) = false) :
    (mailboxGrant m s).ace.granted = s.ace.granted ++ [c] ∧
      (c.who ≠ 4 → bitOf ((mailboxGrant m s).stgStat c.who) 0 = false) := by
  have keeps := State.KeepsGrants.hostGrants (mailboxCommitGrant m s)
  have taken : ∃ x : State, x.ace.granted = s.ace.granted ++ [c] ∧
      mailboxCommitGrant m s = (x.setStgStat c.who (setBits (x.stgStat c.who) 0 1 0)).count 0x00A := by
    refine ⟨_, ?_, by rw [mailboxCommitGrant, first, if_neg Bool.false_ne_true, next]⟩
    rfl
  obtain ⟨x, granted, grant⟩ := taken
  refine ⟨?_, fun core => ?_⟩
  · rw [mailboxGrant, keeps.granted, grant, State.count_ace]
    exact granted
  · rw [mailboxGrant, keeps.cores _ core, grant, State.stgStat, State.count_ace]
    exact x.bit_setStgStat c.who _ 0 (by decide)

end Sys2Proof.Machine
end

section
/-!
PROOFS. List commands, generator, capture and DFT bins (R134 to R142): what each command makes of the banks and of its status.
-/

namespace Sys2Proof.Machine

/-! Banks (R134, R135). -/

theorem State.bank_wrB {s : State} {f : Fld} {b : Bool} (h : FldApart f F.ACE_STAT_BANK) (active : Bool) :
    (s.wrB f b).bank active = s.bank active := by
  simp only [State.bank, State.rdB_wrB_apart h, State.wrB_ace]

/-- The state with `k` in its edit bank. -/
def State.withEditBank (s : State) (k : Store Word) : State :=
  if s.rdB F.ACE_STAT_BANK then { s with ace := { s.ace with bank0 := k } } else { s with ace := { s.ace with bank1 := k } }

section EditBank

variable (s : State) (k : Store Word)

theorem State.rdB_withEditBank (f : Fld) : (s.withEditBank k).rdB f = s.rdB f := by
  unfold State.withEditBank
  split
  · exact State.rdB_withAce s _ f
  · exact State.rdB_withAce s _ f

theorem State.bank_withEditBank : (s.withEditBank k).bank false = k ∧ (s.withEditBank k).bank true = s.bank true := by
  unfold State.bank
  rw [State.rdB_withEditBank, State.withEditBank]
  cases s.rdB F.ACE_STAT_BANK with
  | false => exact ⟨rfl, rfl⟩
  | true => exact ⟨rfl, rfl⟩

end EditBank

theorem State.editWrite_shut {s : State} (key : Nat) (v : Word)
    (shut : (s.rdB F.ACE_STAT_SWITCH_PEND || s.rdB F.ACE_LIST_STAT_BUSY) = true) :
    s.editWrite key v = s.wrB F.ACE_LIST_STAT_IGN true := if_pos shut

theorem State.editWrite_eq {s x : State} (key : Nat) (v : Word) (hx : x = s.wrB F.ACE_LIST_STAT_OK false)
    (opened : (s.rdB F.ACE_STAT_SWITCH_PEND || s.rdB F.ACE_LIST_STAT_BUSY) = false) :
    s.editWrite key v = x.withEditBank (Store.put (x.bank false) 0 key v) := by
  unfold State.editWrite
  rw [opened, if_neg Bool.false_ne_true, ← hx]
  dsimp only [State.withEditBank, State.bank]
  cases x.rdB F.ACE_STAT_BANK with
  | false => rfl
  | true => rfl

/-- A word of the edit window while the edit bank may be changed (R134). -/
theorem State.editWrite_open {s : State} (key : Nat) (v : Word)
    (opened : (s.rdB F.ACE_STAT_SWITCH_PEND || s.rdB F.ACE_LIST_STAT_BUSY) = false) :
    (s.editWrite key v).bank true = s.bank true ∧ (s.editWrite key v).rdB F.ACE_LIST_STAT_OK = false ∧
      Store.get ((s.editWrite key v).bank false) 0 key = v := by
  have banks (active : Bool) : (s.wrB F.ACE_LIST_STAT_OK false).bank active = s.bank active := State.bank_wrB (by decide) _
  have ok : (s.wrB F.ACE_LIST_STAT_OK false).rdB F.ACE_LIST_STAT_OK = false :=
    State.rdB_wrB_same s _ _ (by decide) (by decide)
  rw [State.editWrite_eq key v rfl opened]
  generalize s.wrB F.ACE_LIST_STAT_OK false = x at *
  obtain ⟨edit, active⟩ := x.bank_withEditBank (Store.put (x.bank false) 0 key v)
  rw [edit, active, State.rdB_withEditBank]
  exact ⟨banks true, ok, Store.get_put_same _ _ _ _⟩

theorem aceCopyDone_eq {s x y : State} (hx : x = { s with ace := { s.ace with copying := false } })
    (hy : y = (x.wrB F.ACE_LIST_STAT_BUSY false).wrB F.ACE_LIST_STAT_OK false) (copying : s.ace.copying = true) :
    aceCopyDone s = y.withEditBank (y.bank true) := by
  unfold aceCopyDone
  rw [if_pos copying, ← hx]
  dsimp only
  rw [← hy]
  dsimp only [State.withEditBank, State.bank]
  cases y.rdB F.ACE_STAT_BANK with
  | false => rfl
  | true => rfl

/-- COPY ends with the active bank in both (R135). -/
theorem aceCopyDone_spec {s : State} (copying : s.ace.copying = true) :
    (aceCopyDone s).bank false = s.bank true ∧ (aceCopyDone s).bank true = s.bank true ∧
      (aceCopyDone s).rdB F.ACE_LIST_STAT_BUSY = false ∧ (aceCopyDone s).rdB F.ACE_LIST_STAT_OK = false := by
  obtain ⟨x, hx⟩ : ∃ x : State, x = { s with ace := { s.ace with copying := false } } := ⟨_, rfl⟩
  obtain ⟨y, hy⟩ : ∃ y, y = (x.wrB F.ACE_LIST_STAT_BUSY false).wrB F.ACE_LIST_STAT_OK false := ⟨_, rfl⟩
  have same : y.bank true = s.bank true := by
    rw [hy, State.bank_wrB (by decide), State.bank_wrB (by decide), hx]
    rfl
  have ended : y.rdB F.ACE_LIST_STAT_BUSY = false ∧ y.rdB F.ACE_LIST_STAT_OK = false := by
    rw [hy, State.rdB_wrB_apart (by decide)]
    exact ⟨State.rdB_wrB_same x _ _ (by decide) (by decide), State.rdB_wrB_same _ _ _ (by decide) (by decide)⟩
  obtain ⟨edit, active⟩ := y.bank_withEditBank (y.bank true)
  rw [aceCopyDone_eq hx hy copying, edit, active, State.rdB_withEditBank, State.rdB_withEditBank]
  exact ⟨same, same, ended⟩

/-! The load check and the switch (R135, R136). -/

theorem aceCheckDone_spec {s : State} {err at_ kind cost : Nat} (checking : s.ace.checking = some (err, at_, kind, cost)) :
    (aceCheckDone s).rdB F.ACE_LIST_STAT_BUSY = false ∧
      (aceCheckDone s).rdB F.ACE_LIST_STAT_OK = (err == 0 && !s.ace.topoHit) ∧
      (aceCheckDone s).rd F.ACE_LIST_STAT_ERR = err % 16 ∧ (aceCheckDone s).rd F.ACE_LIST_STAT_BLOCK = at_ % 256 ∧
      (aceCheckDone s).rd F.ACE_LIST_STAT_COST = min 511 cost := by
  have small : min 511 cost % 2 ^ 9 = min 511 cost := Nat.mod_eq_of_lt (by omega)
  unfold aceCheckDone
  rw [checking]
  simp (disch := decide) only [State.rdB_wr_apart, State.rd_wr_apart, State.rdB_wrB_apart, State.rdB_wrB_same, State.rd_wr_same]
  exact ⟨trivial, trivial, rfl, rfl, small⟩

theorem aceSwitch_refused {s : State} (idle : s.rdB F.ACE_LIST_STAT_BUSY = false)
    (refused : (!s.rdB F.ACE_LIST_STAT_OK || s.rdB F.ACE_STAT_SWITCH_PEND) = true) : (aceSwitch s).latchBit 0x008 = true := by
  rw [aceSwitch, idle, if_neg Bool.false_ne_true, if_pos refused]
  exact State.latched_raise _ _ _ _ (by simp) (by decide)

theorem aceSwitch_taken {s : State} (idle : s.rdB F.ACE_LIST_STAT_BUSY = false)
    (taken : (s.rdB F.ACE_LIST_STAT_OK && !s.rdB F.ACE_STAT_SWITCH_PEND) = true) :
    (aceSwitch s).rdB F.ACE_STAT_SWITCH_PEND = true := by
  rw [Bool.and_eq_true, Bool.not_eq_true'] at taken
  obtain ⟨ok, pend⟩ := taken
  rw [aceSwitch, idle, if_neg Bool.false_ne_true, ok, pend]
  exact State.rdB_wrB_same s _ _ (by decide) (by decide)

/-! The generator (R140). -/

theorem injectStart_refused {s : State} (refused : s.targetOk = false ∨ s.rd F.ACE_INJ_STAT_STATE ≠ 0 ∨
    s.rd F.ACE_INJ_CTRL_MODE = 3 ∨ 6 ≤ s.rd F.ACE_INJ_CTRL_PRBS) : injectStart s = s.wrB F.ACE_INJ_STAT_REFUSED true := by
  refine if_pos ?_
  rcases refused with target | busy | mode | prbs
  · simp [target]
  · simp [busy]
  · simp [mode]
  · simp [prbs]

/-- RUN starts the generator, whatever an armed capture does with it (R140, R141). -/
theorem State.genRun_spec (s : State) : s.genRun.rd F.ACE_INJ_STAT_STATE = 2 ∧
    s.genRun.rdB F.ACE_INJ_STAT_REFUSED = s.rdB F.ACE_INJ_STAT_REFUSED ∧ s.genRun.ace.acc = s.ace.acc := by
  obtain ⟨x, hx, run⟩ : ∃ x : State, x = { s.wr F.ACE_INJ_STAT_STATE 2 with ace := { s.ace with genN := 0, genIdx := 0 } } ∧
      s.genRun = if x.rd F.ACE_CAP_STAT_STATE = 1 then x.capRun else x := ⟨_, rfl, rfl⟩
  have running : x.rd F.ACE_INJ_STAT_STATE = 2 := by
    rw [hx, State.rd_withAce, State.rd_wr_same _ _ _ (by decide)]
    rfl
  have kept : x.rdB F.ACE_INJ_STAT_REFUSED = s.rdB F.ACE_INJ_STAT_REFUSED := by
    rw [hx, State.rdB_withAce, State.rdB_wr_apart (by decide)]
  have acc : x.ace.acc = s.ace.acc := by rw [hx]
  rw [run]
  clear hx run
  split
  · rw [State.capRun, State.rd_withAce, State.rdB_withAce, State.rd_wr_apart (by decide), State.rdB_wr_apart (by decide)]
    exact ⟨running, kept, acc⟩
  · exact ⟨running, kept, acc⟩

/-- The generator starts: its counters are those of a new run, and REFUSED, DONE and ABORTED read 0 (R140). -/
theorem injectStart_started {s : State} (target : s.targetOk = true) (idle : s.rd F.ACE_INJ_STAT_STATE = 0)
    (tones : s.rd F.ACE_INJ_CTRL_MODE = 1) (prbs : s.rd F.ACE_INJ_CTRL_PRBS < 6) :
    (injectStart s).rd F.ACE_INJ_STAT_STATE = (if s.rd F.ACE_INJ_CTRL_FADE = 0 then 2 else 1) ∧
      (injectStart s).rdB F.ACE_INJ_STAT_REFUSED = false ∧ (injectStart s).ace.acc = 0 := by
  unfold injectStart
  extract_lets mode s1 fade _ s2
  have started : ¬ (s.rd F.ACE_INJ_STAT_STATE != 0 || !s.targetOk || mode == 3 || 6 ≤ s.rd F.ACE_INJ_CTRL_PRBS ||
      (mode == 0 && s.rd F.ACE_INJ_LEN_LEN == 0)) = true := by
    simp [mode, target, idle, tones, prbs]
  have cleared : s2.rdB F.ACE_INJ_STAT_REFUSED = false := by
    simp (disch := decide) only [s2, s1, State.rdB_withAce, State.rdB_wrB_apart, State.rdB_wrB_same]
  have same : fade = s.rd F.ACE_INJ_CTRL_FADE := by
    simp (disch := decide) only [fade, s1, State.rd_wrB_apart]
  have new : s2.ace.acc = 0 := rfl
  clear_value s2
  rw [if_neg started, ← same]
  split
  · obtain ⟨running, kept, acc⟩ := s2.genRun_spec
    exact ⟨running, kept.trans cleared, acc.trans new⟩
  · rw [State.rdB_wr_apart (by decide), State.wr_ace]
    exact ⟨State.rd_wr_same s2 _ _ (by decide), cleared, new⟩

theorem injectStop_spec (s : State) :
    (injectStop s).ace.stopReq = (s.ace.stopReq || decide (s.rd F.ACE_INJ_STAT_STATE = 2)) ∧ (injectStop s).regs = s.regs := by
  unfold injectStop
  split
  · next running => simp [running]
  · next idle => simp [idle]

/-! The capture and its bins (R141, R142). -/

theorem captureStart_started {s : State} (idle : s.rd F.ACE_CAP_STAT_STATE = 0 ∨ s.rd F.ACE_CAP_STAT_STATE = 3) :
    (captureStart s).rd F.ACE_CAP_STAT_STATE = (if s.rdB F.ACE_CAP_CTRL_SYNC_INJ then 1 else 2) ∧
      (captureStart s).rd F.ACE_CAP_CNT_COUNT = 0 := by
  obtain ⟨x, hx, start⟩ : ∃ x : State,
      x = (((s.wrB F.ACE_CAP_STAT_ABORTED false).wrB F.ACE_CAP_STAT_DFT_DONE false).wr F.ACE_CAP_STAT_DFT_NA 0).wr
        F.ACE_CAP_CNT_COUNT 0 ∧
      captureStart s = if x.rdB F.ACE_CAP_CTRL_SYNC_INJ then x.wr F.ACE_CAP_STAT_STATE 1 else x.capRun :=
    ⟨_, rfl, if_pos idle⟩
  have sync : x.rdB F.ACE_CAP_CTRL_SYNC_INJ = s.rdB F.ACE_CAP_CTRL_SYNC_INJ := by
    simp (disch := decide) only [hx, State.rdB_wr_apart, State.rdB_wrB_apart]
  have count : x.rd F.ACE_CAP_CNT_COUNT = 0 := by
    rw [hx, State.rd_wr_same _ _ _ (by decide)]
    exact Nat.zero_mod _
  have shown (v : Nat) (hv : v < 4) : (x.wr F.ACE_CAP_STAT_STATE v).rd F.ACE_CAP_STAT_STATE = v ∧
      (x.wr F.ACE_CAP_STAT_STATE v).rd F.ACE_CAP_CNT_COUNT = 0 :=
    ⟨(State.rd_wr_same x _ _ (by decide)).trans (Nat.mod_eq_of_lt hv), (State.rd_wr_apart (by decide)).trans count⟩
  rw [start, sync]
  clear hx start
  split
  · exact shown 1 (by decide)
  · rw [State.capRun, State.rd_withAce, State.rd_withAce]
    exact shown 2 (by decide)

theorem captureStop_stopped {s : State} (running : s.rd F.ACE_CAP_STAT_STATE = 1 ∨ s.rd F.ACE_CAP_STAT_STATE = 2) :
    (captureStop s).rd F.ACE_CAP_STAT_STATE = 0 ∧ (captureStop s).rdB F.ACE_CAP_STAT_ABORTED = true := by
  unfold captureStop State.capAbort
  extract_lets st
  rw [if_pos running]
  exact ⟨(State.rd_wrB_apart (by decide)).trans (State.rd_wr_same s _ _ (by decide)),
    State.rdB_wrB_same _ _ _ (by decide) (by decide)⟩

theorem State.dftBin_ace (s : State) (j : Nat) : (s.dftBin j).ace = s.ace := by
  unfold State.dftBin
  extract_lets p n h num den x nre nim put s1 s2 dre dim d2 zero zre zim s3 s4
  have put_ace (t : State) (f : Fld) (v : Fp) : (put t f v).ace = t.ace := State.wr_ace t f _
  have one : s2.ace = s.ace := (put_ace _ _ _).trans (put_ace _ _ _)
  have both : s4.ace = s.ace := (((put_ace _ _ _).trans (put_ace _ _ _)).trans ((put_ace _ _ _).trans (put_ace _ _ _))).trans one
  clear_value s4 s2
  have flagged (t : State) (c : Prop) [Decidable c] :
      (if c then t.setBit F.ACE_CAP_STAT_DFT_NA j true else t).ace = t.ace := by
    split
    · exact State.setBit_ace _ _ _ _
    · rfl
  split
  · rfl
  · split
    · exact (flagged s4 _).trans both
    · exact (flagged s2 _).trans one

theorem dftDone_spec {s : State} (done : s.rd F.ACE_CAP_STAT_STATE = 3) (on : s.rdB F.ACE_CAP_CTRL_DFT_EN = true) :
    (dftDone s).rdB F.ACE_CAP_STAT_DFT_DONE = true ∧ (dftDone s).ace = s.ace := by
  unfold dftDone
  extract_lets r
  split
  · rw [State.wrB_ace, State.tick_ace]
    exact ⟨State.rdB_wrB_same _ _ _ (by decide) (by decide), foldl_keeps State.ace (fun s j _ => s.dftBin_ace j) s⟩
  · next shown =>
    refine ⟨?_, rfl⟩
    simpa [done, on] using shown

end Sys2Proof.Machine
end

section
/-!
PROOFS. The engine's pass (R105 to R110): which of its parts write PASS and the records of blocks, and the result of a TAP block.
-/

namespace Sys2Proof.Machine

/-- From `s` to `u` `ACE_STAT` and the records of the blocks have stayed. -/
structure State.KeepsBlocks (s u : State) : Prop where
  stat : u.reg R.ACE_STAT = s.reg R.ACE_STAT
  blks : u.ace.blks = s.ace.blks

namespace State.KeepsBlocks

/-! Rules. -/

theorem refl (s : State) : s.KeepsBlocks s := ⟨rfl, rfl⟩

theorem trans {s t u : State} (h : s.KeepsBlocks t) (k : t.KeepsBlocks u) : s.KeepsBlocks u :=
  ⟨k.stat.trans h.stat, k.blks.trans h.blks⟩

theorem ite {s t u : State} {p : Prop} [Decidable p] (h : s.KeepsBlocks t) (k : s.KeepsBlocks u) :
    s.KeepsBlocks (if p then t else u) := by
  split
  · exact h
  · exact k

theorem foldl {α : Type} (f : State → α → State) (l : List α) (h : ∀ (s : State) x, s.KeepsBlocks (f s x)) (s : State) :
    s.KeepsBlocks (l.foldl f s) := by
  induction l generalizing s with
  | nil => exact refl s
  | cons x l ih => exact (h s x).trans (ih _)

theorem of_raise {s u : State} (h : RaiseKeeps s u) : s.KeepsBlocks u :=
  ⟨h.reg _ (by simp [quietReg, R.ACE_STAT]), by rw [h.ace]⟩

theorem wr (s : State) (f : Fld) (v : Nat) (h : R.ACE_STAT < f.reg) : s.KeepsBlocks (s.wr f v) :=
  ⟨State.reg_wr_other s f v _ (Nat.ne_of_lt h), rfl⟩

theorem wrB (s : State) (f : Fld) (b : Bool) (h : R.ACE_STAT < f.reg) : s.KeepsBlocks (s.wrB f b) := wr s f _ h

theorem wrI (s : State) (f : Fld) (i : Int) (h : R.ACE_STAT < f.reg) : s.KeepsBlocks (s.wrI f i) := wr s f _ h

theorem withAce (s : State) (x : AceSt) (h : x.blks = s.ace.blks) : s.KeepsBlocks { s with ace := x } := ⟨rfl, h⟩

theorem advanceHall (s : State) (h : Time) : s.KeepsBlocks (s.advanceHall h) := ⟨State.reg_advanceHall s h _, by simp⟩

/-- A register of an arm or of a detector lies above `ACE_STAT`. -/
theorem above {a b : Nat} (h : R.ACE_STAT < a) : R.ACE_STAT < a + b := Nat.lt_add_right b h

/-! Faults and detectors (R110, R123). -/

theorem numFault (s : State) (b : Option Nat) : s.KeepsBlocks (s.numFault b) := by
  unfold State.numFault
  extract_lets s1
  have noted : s.KeepsBlocks s1 := by
    cases b with
    | none => exact (wrB s _ _ (by decide)).trans (of_raise (.count _ _ _))
    | some b =>
      exact ((ite (wr s _ _ (by decide)) (refl s)).trans (wr _ _ _ (by decide))).trans (of_raise (.count _ _ _))
  exact (noted.trans (wrB s1 _ _ (by decide))).trans (of_raise (.raise0 _ _))

theorem detector (x : PassCtx) (s : State) (d : Nat) : s.KeepsBlocks (s.detector x d) := by
  have shown (b1 b2 r set : Nat) : s.KeepsBlocks ((((s.wr (F.ACE_RGN_STAT_BAND1 d) b1).wr (F.ACE_RGN_STAT_BAND2 d) b2).wr
      (F.ACE_RGN_STAT_REGION d) r).wr (F.ACE_RGN_STAT_SET d) set) :=
    (((wr s _ _ (above (by decide))).trans (wr _ _ _ (above (by decide)))).trans (wr _ _ _ (above (by decide)))).trans
      (wr _ _ _ (above (by decide)))
  have counted (t : State) (p : Prop) [Decidable p] : t.KeepsBlocks (if p then t else t.incWrap (F.ACE_RGN_STAT_CHANGES d)) :=
    ite (refl t) (wr t _ _ (above (by decide)))
  have flagged (t : State) (b : Bool) : t.KeepsBlocks (t.wrB (F.ACE_RGN_STAT_NUMF d) b) := wrB t _ b (above (by decide))
  unfold State.detector
  extract_lets
  refine ite ?_ ?_
  · exact ((shown _ _ _ _).trans (flagged _ _)).trans (counted _ _)
  · exact (((shown _ _ _ _).trans (counted _ _)).trans (flagged _ _)).trans (ite (numFault _ _) (refl _))

/-! The generator, the capture and the triggers (R121, R139 to R141). -/

theorem capAbort (s : State) : s.KeepsBlocks s.capAbort := (wr s _ _ (by decide)).trans (wrB _ _ _ (by decide))

theorem genAbort (s : State) : s.KeepsBlocks s.genAbort := by
  have idle : s.KeepsBlocks ((({ s with ace := { s.ace with sample := 0, stopReq := false } } : State).wr
      F.ACE_INJ_STAT_STATE 0).wrB F.ACE_INJ_STAT_ABORTED true) :=
    ((withAce s _ (by rfl)).trans (wr _ _ _ (by decide))).trans (wrB _ _ _ (by decide))
  exact idle.trans (ite (capAbort _) (refl _))

theorem genShift (s : State) : s.KeepsBlocks s.genShift :=
  ite (ite (withAce s _ (by rfl)) (withAce s _ (by rfl))) (refl s)

theorem genSample (s : State) : s.KeepsBlocks s.genSample := by
  unfold State.genSample
  extract_lets _ s1 g
  exact ite (withAce s _ (by rfl)) (ite (genAbort s) ((genShift s).trans (withAce s1 _ (by rfl))))

theorem genRun (s : State) : s.KeepsBlocks s.genRun := by
  unfold State.genRun
  extract_lets _ _ s1
  have running : s.KeepsBlocks s1 := (wr s _ _ (by decide)).trans (withAce _ _ (by rfl))
  exact running.trans (ite ((wr s1 _ _ (by decide)).trans (withAce _ _ (by rfl))) (refl s1))

theorem genStep (s : State) : s.KeepsBlocks s.genStep := by
  unfold State.genStep
  extract_lets st fade len _ s1 _ s2
  have stepped : s.KeepsBlocks s1 := withAce s _ (by rfl)
  have stopped : s1.KeepsBlocks s2 := withAce s1 _ (by rfl)
  have ended (t : State) : t.KeepsBlocks ((t.wr F.ACE_INJ_STAT_STATE 0).wrB F.ACE_INJ_STAT_DONE true) :=
    (wr t _ _ (by decide)).trans (wrB _ _ _ (by decide))
  refine ite (refl s) (stepped.trans (ite (ite (genRun s1) (refl s1)) (ite (ite (stopped.trans ?_) (refl s1)) ?_)))
  · exact ite (ended s2) (wr s2 _ _ (by decide))
  · exact ite (ended s1) (refl s1)

theorem capSample (s : State) (k : Store Word) : s.KeepsBlocks (s.capSample k).1 := by
  unfold State.capSample
  extract_lets _ n s1 base out _ _ s2
  have counted : s.KeepsBlocks s2 := by
    have named : s.KeepsBlocks s1 := ite (wr s _ _ (by decide)) (refl s)
    exact (named.trans (wr s1 _ _ (by decide))).trans (withAce _ _ (by rfl))
  split
  · exact refl s
  · split
    · exact withAce s _ (by rfl)
    · exact counted.trans (ite (wr s2 _ _ (by decide)) (refl s2))

theorem tapTriggers (s : State) (x : PassCtx) : s.KeepsBlocks (s.tapTriggers x) := by
  unfold State.tapTriggers
  extract_lets m r s1
  have fired : RaiseKeeps s r.1 := by
    refine RaiseKeeps.foldl_fst _ _ (fun r i => ?_) (s, [])
    split
    · exact .refl _
    · exact .fire _ _ _
  exact of_raise ((fired.trans (.recd r.1 _)).trans (.raiseAll _ _ _))

theorem keepInputs (s : State) (x : PassCtx) : s.KeepsBlocks (s.keepInputs x) := ite (withAce s _ (by rfl)) (refl s)

/-! Arm output records (R127). -/

theorem setRec (s : State) (arm : Nat) (r : ArmRec) : s.KeepsBlocks (s.setRec arm r) := withAce s _ (by rfl)

theorem showRec (s : State) (arm : Nat) (hi lo : Bool) : s.KeepsBlocks (s.showRec arm hi lo) := by
  unfold State.showRec
  extract_lets r s1 s2 s3
  have h1 : s.KeepsBlocks s1 := (wrI s _ _ (above (by decide))).trans (wrI _ _ _ (above (by decide)))
  have h2 : s1.KeepsBlocks s2 := (wrB s1 _ _ (above (by decide))).trans (wrB _ _ _ (above (by decide)))
  have h3 : s2.KeepsBlocks s3 := (wrB s2 _ _ (above (by decide))).trans (wrB _ _ _ (above (by decide)))
  exact ((h1.trans h2).trans h3).trans ((wr s3 _ _ (above (by decide))).trans (wrI _ _ _ (above (by decide))))

end State.KeepsBlocks

/-! Blocks. -/

/-- The constant source 1.0 (Table 2). -/
theorem State.source_one (s : State) {x : PassCtx} (own : x.inp = []) : s.source x 0x3FE = (0x3F800000, false) := by
  simp [State.source, own]

open State.KeepsBlocks in
/-- A block writes its own record, and a TAP of the constant one holds 1.0 (R107, R121). -/
theorem execBlock_record (x : PassCtx) (s : State) (b : Nat) : ∃ new, (s.setBlk b new).KeepsBlocks (State.execBlock x s b) ∧
    (dType x.k b = 11 → dA x.k b = 0x3FE → x.inp = [] → new.y = 0x3F800000 ∧ new.numf = false) := by
  unfold State.execBlock
  extract_lets k t arm o set blocked va vb vc a bb c g p cZero meas o1 lk armout lo hi c1 tgt res bad shown new s1 s2 _ s3 r s4
  refine ⟨new, ?_, fun tap one own => ?_⟩
  · have faulted : s1.KeepsBlocks s2 := ite (numFault s1 _) (refl s1)
    have tapped : s2.KeepsBlocks s3 := ite (withAce s2 _ (by rfl)) (refl s2)
    have recorded : s3.KeepsBlocks s4 := by
      dsimp only [s4]
      split
      · exact setRec s3 _ _
      · split
        · exact setRec s3 _ _
        · exact setRec s3 _ _
    clear_value s2 s3 s4
    refine (faulted.trans tapped).trans ?_
    split
    · exact recorded.trans (showRec s4 _ _ _)
    · exact refl s3
  · have value : a = eDec 0x3F800000 := by
      simp only [a, va]
      rw [one, s.source_one own]
    have result : res = ⟨{ o1 with y := 0x3F800000 }, false⟩ := by
      simp only [res, show t = 11 from tap, value]
      rfl
    have finite : bad = false := by
      simp only [bad, result]
      decide
    simp only [new, shown, finite, result]
    exact ⟨rfl, rfl⟩

/-! The pass. -/

section Pass

variable (s : State) (h : Time)

theorem State.idleUnit_advanceHall : (s.advanceHall h).idleUnit = s.idleUnit := by
  simp only [State.idleUnit, State.rd_advanceHall, State.advanceHall_stk]

theorem State.bank_advanceHall (active : Bool) : (s.advanceHall h).bank active = s.bank active := by simp [State.bank]

end Pass

/-- The blocks run between parts that leave their records, and the pass ends with its count (R105 to R108). -/
theorem enginePass_parts {s : State} (awake : s.idleUnit = false) : ∃ (x : PassCtx) (pre post : State),
    x.k = s.bank true ∧ x.inp = [] ∧ s.KeepsBlocks pre ∧
      ((List.range 256).foldl (State.execBlock x) pre).KeepsBlocks post ∧ (enginePass s).1 = post.incWrap F.ACE_STAT_PASS := by
  unfold enginePass
  extract_lets s1 h x s2 s3 s4 s5 s6 r
  have running : s1.idleUnit = false := (s.idleUnit_advanceHall _).trans awake
  have bank : s1.bank true = s.bank true := s.bank_advanceHall _ true
  have served : s.KeepsBlocks s1 := .advanceHall s _
  clear_value s1
  have before : s1.KeepsBlocks s4 :=
    ((State.KeepsBlocks.keepInputs s1 x).trans (.foldl _ _ (fun s d => .detector x s d) s2)).trans (.genSample s3)
  have after : s5.KeepsBlocks r.1.genStep :=
    ((State.KeepsBlocks.tapTriggers s5 x).trans (.capSample s6 x.k)).trans (.genStep r.1)
  refine ⟨x, s4, r.1.genStep, bank, rfl, served.trans before, after, ?_⟩
  rw [if_neg (by rw [running]; exact Bool.false_ne_true)]

/-- No block writes `ACE_STAT`, and a record is its own block's work (R107). -/
theorem blocks_spec (x : PassCtx) (s : State) {b : Nat} (hb : b < 256) :
    ((List.range 256).foldl (State.execBlock x) s).reg R.ACE_STAT = s.reg R.ACE_STAT ∧
      (dType x.k b = 11 → dA x.k b = 0x3FE → x.inp = [] → (((List.range 256).foldl (State.execBlock x) s).blk b).y = 0x3F800000 ∧
        (((List.range 256).foldl (State.execBlock x) s).blk b).numf = false) := by
  have stat (t : State) (j : Nat) : (State.execBlock x t j).reg R.ACE_STAT = t.reg R.ACE_STAT := by
    obtain ⟨new, keeps, -⟩ := execBlock_record x t j
    exact keeps.stat
  have record (t : State) (j : Nat) : ∃ new, (State.execBlock x t j).ace.blks = Store.put t.ace.blks {} j new ∧
      (dType x.k j = 11 → dA x.k j = 0x3FE → x.inp = [] → new.y = 0x3F800000 ∧ new.numf = false) := by
    obtain ⟨new, keeps, tap⟩ := execBlock_record x t j
    exact ⟨new, keeps.blks, tap⟩
  have other (t : State) (j : Nat) (apart : j ≠ b) : (State.execBlock x t j).blk b = t.blk b := by
    obtain ⟨new, blks, -⟩ := record t j
    rw [State.blk, blks]
    exact Store.get_put_other _ _ _ _ _ apart.symm
  obtain ⟨t, -, own⟩ := foldl_visits (fun s => s.blk b) List.nodup_range (List.mem_range.2 hb)
    (fun t j _ apart => other t j apart) s
  obtain ⟨new, blks, tap⟩ := record t b
  refine ⟨foldl_keeps (fun s => s.reg R.ACE_STAT) (fun t j _ => stat t j) s, ?_⟩
  rw [own, State.blk, blks, Store.get_put_same]
  exact tap

/-- A pass counts itself, and its TAP of the constant one holds 1.0 (R105, R107, R121). -/
theorem enginePass_spec {s : State} (awake : s.idleUnit = false) {b : Nat} (hb : b < 256) :
    (enginePass s).1.rd F.ACE_STAT_PASS = (s.rd F.ACE_STAT_PASS + 1) % 2 ^ 16 ∧
      (dType (s.bank true) b = 11 → dA (s.bank true) b = 0x3FE →
        ((enginePass s).1.blk b).y = 0x3F800000 ∧ ((enginePass s).1.blk b).numf = false) := by
  obtain ⟨x, pre, post, bank, own, before, after, pass⟩ := enginePass_parts awake
  obtain ⟨stat, tap⟩ := blocks_spec x pre hb
  have count : post.rd F.ACE_STAT_PASS = s.rd F.ACE_STAT_PASS :=
    State.rd_congr ((after.stat.trans stat).trans before.stat)
  have record : (post.incWrap F.ACE_STAT_PASS).blk b = ((List.range 256).foldl (State.execBlock x) pre).blk b := by
    rw [State.incWrap, State.blk, State.wr_ace, after.blks, State.blk]
  rw [pass, record, ← bank]
  refine ⟨?_, fun type source => tap type source own⟩
  rw [State.incWrap, State.rd_wr_same _ _ _ (by decide), count]
  rfl

end Sys2Proof.Machine
end

section
/-!
PROOFS. The arm control engine (R105 to R107, R130 to R142): its commands, from their effects on the engine.
-/

namespace Sys2Proof.Machine

/-! The pass as a command. -/

section Awake

variable {s : State} (f : State → State × List (Nat × Nat))

theorem State.onPass_rd (held : s.pwr.held = false) (g : Fld) : (s.onPass f).rd g = (f s).1.rd g := by
  rw [State.onPass, held]
  rfl

theorem State.onPass_blk (held : s.pwr.held = false) (b : Nat) : (s.onPass f).blk b = (f s).1.blk b := by
  rw [State.onPass, held]
  rfl

end Awake

/-! COPY and CHECK as they start (R135). -/

theorem aceCopy_ignored {s : State} (idle : s.rdB F.ACE_LIST_STAT_BUSY = false)
    (pend : s.rdB F.ACE_STAT_SWITCH_PEND = true) : aceCopy s = s.wrB F.ACE_LIST_STAT_IGN true := by
  rw [aceCopy, idle, pend]
  rfl

theorem aceCopy_started {s : State} (idle : s.rdB F.ACE_LIST_STAT_BUSY = false)
    (free : s.rdB F.ACE_STAT_SWITCH_PEND = false) :
    (aceCopy s).rdB F.ACE_LIST_STAT_BUSY = true ∧ (aceCopy s).ace.copying = true := by
  rw [aceCopy, idle, free, if_neg Bool.false_ne_true, if_neg Bool.false_ne_true, State.rdB_withAce]
  exact ⟨State.rdB_wrB_same s _ _ (by decide) (by decide), rfl⟩

theorem aceCheck_started {s : State} (idle : s.rdB F.ACE_LIST_STAT_BUSY = false) :
    (aceCheck s).rdB F.ACE_LIST_STAT_BUSY = true ∧ (aceCheck s).ace.checking = some s.checkList := by
  rw [aceCheck, idle, if_neg Bool.false_ne_true, State.rdB_withAce]
  exact ⟨State.rdB_wrB_same s _ _ (by decide) (by decide), rfl⟩

/-! Requests of the windows (R131, R134). -/

theorem execStgCommit_eq {who : Requester} {q : Nat} (own : stgOf who = some q) (m : Fin 64) (t : Time) (s : State) :
    execStgCommit who m t s = .next (s.onHubAt t (stgCommit q m)) := by
  rw [execStgCommit, own]

/-- A word of the edit window is ignored with IGN, or it is the edit bank's and the check of the bank is void. -/
theorem State.editWrite_spec (s : State) (key : Nat) (v : Word) : (s.editWrite key v).bank true = s.bank true ∧
    (s.rdB F.ACE_STAT_SWITCH_PEND || s.rdB F.ACE_LIST_STAT_BUSY →
      (s.editWrite key v).rdB F.ACE_LIST_STAT_IGN = true ∧ (s.editWrite key v).bank false = s.bank false) ∧
    (!(s.rdB F.ACE_STAT_SWITCH_PEND || s.rdB F.ACE_LIST_STAT_BUSY) →
      (s.editWrite key v).rdB F.ACE_LIST_STAT_OK = false ∧ Store.get ((s.editWrite key v).bank false) 0 key = v) := by
  cases busy : s.rdB F.ACE_STAT_SWITCH_PEND || s.rdB F.ACE_LIST_STAT_BUSY with
  | true =>
    rw [State.editWrite_shut key v busy, State.bank_wrB (by decide), State.bank_wrB (by decide)]
    exact ⟨rfl, fun _ => ⟨State.rdB_wrB_same s _ _ (by decide) (by decide), rfl⟩, nofun⟩
  | false =>
    obtain ⟨active, ok, word⟩ := State.editWrite_open key v busy
    exact ⟨active, nofun, fun _ => ⟨ok, word⟩⟩

/-- Settles O14, command by command on the advanced state. That STOP of the generator acts in RUN alone is the model's
reading of R140 (log entry 22). -/
theorem engineFollowsItsCommands : Obligations.EngineFollowsItsCommands := by
  unfold Obligations.EngineFollowsItsCommands
  refine ⟨fun s b held awake => ?_, fun s who q m t held own => ?_, fun s m t c held next first => ?_,
    fun s w v t held => ?_, fun s t held idle => ⟨?_, ?_, ?_⟩, fun s t held copying => ?_,
    fun s t err at_ kind cost held checking => ?_, fun s t held => ⟨?_, ?_, ?_, ?_, fun done on => ?_⟩⟩
  · refine ⟨_, rfl, ?_⟩
    rw [State.onPass_rd _ held, State.onPass_blk _ held]
    exact enginePass_spec awake b.isLt
  · refine ⟨_, execStgCommit_eq own m t s, ?_⟩
    have mbx : m.val % 64 < 64 := Nat.mod_lt _ (by decide)
    simp only [State.onHubAt_awake s t _ held, State.onChip_stgStat, State.onChip_ace, stgCommit]
    refine ⟨fun pend => ?_, fun free => ?_⟩
    · simpa using State.commitMbx_pending (s := s.advance t) (m.val % 64) _ (by simpa using pend)
    · simpa [Nat.mod_eq_of_lt m.isLt] using
        State.commitMbx_free (s := s.advance t) mbx ((s.advance t).stgWords q) (by simpa using free)
  · refine ⟨_, rfl, ?_⟩
    simp only [State.onHubAt_awake s t _ held, State.onChip_stgStat, State.onChip_ace]
    simpa using mailboxGrant_spec (s := s.advance t) (m := m) (c := c) (by simpa using next) (by simpa using first)
  · refine ⟨_, rfl, ?_⟩
    simp only [State.onHubAt_awake s t _ held, State.onChip_bank, State.onChip_rdB]
    cases w with
    | desc k => simpa [State.editWord] using (s.advance t).editWrite_spec k (v &&& dMask (k.val % 16))
    | gain k => simpa [State.editWord] using (s.advance t).editWrite_spec (4096 + k) v
  · refine ⟨_, rfl, fun pend => ?_, fun free => ?_⟩
    · simp only [State.onHubAt_awake s t _ held, State.onChip_ace, State.onChip_rdB]
      rw [aceCopy_ignored (by simpa using idle) (by simpa using pend), State.wrB_ace, State.advance_ace]
      exact ⟨State.rdB_wrB_same _ _ _ (by decide) (by decide), rfl⟩
    · simp only [State.onHubAt_awake s t _ held, State.onChip_ace, State.onChip_rdB]
      exact aceCopy_started (by simpa using idle) (by simpa using free)
  · refine ⟨_, rfl, ?_⟩
    simp only [State.onHubAt_awake s t _ held, State.onChip_ace, State.onChip_rdB]
    simpa using aceCheck_started (s := s.advance t) (by simpa using idle)
  · refine ⟨_, rfl, ?_⟩
    simp only [State.onHubAt_awake s t _ held, State.onChip_rdB, State.onChip_latchBit]
    exact ⟨fun taken => aceSwitch_taken (by simpa using idle) (by simpa using taken),
      fun refused => aceSwitch_refused (by simpa using idle) (by simpa using refused)⟩
  · refine ⟨_, rfl, ?_⟩
    simp only [State.onHubAt_awake s t _ held, State.onChip_rdB, State.onChip_bank]
    simpa using aceCopyDone_spec (s := s.advance t) (by simpa using copying)
  · refine ⟨_, rfl, ?_⟩
    simp only [State.onHubAt_awake s t _ held, State.onChip_rdB, State.onChip_rd]
    simpa using aceCheckDone_spec (s := s.advance t) (by simpa using checking)
  · refine ⟨_, rfl, fun refused => ?_, fun ⟨target, still, tones, prbs⟩ => ?_⟩
    · simp only [State.onHubAt_awake s t _ held, State.onChip_ace, State.onChip_rdB]
      rw [injectStart_refused (by simpa using refused), State.wrB_ace, State.advance_ace]
      exact ⟨State.rdB_wrB_same _ _ _ (by decide) (by decide), rfl⟩
    · simp only [State.onHubAt_awake s t _ held, State.onChip_ace, State.onChip_rdB, State.onChip_rd]
      simpa using injectStart_started (s := s.advance t) (by simpa using target) (by simpa using still)
        (by simpa using tones) (by simpa using prbs)
  · refine ⟨_, rfl, ?_⟩
    simp only [State.onHubAt_awake s t _ held, State.onChip_ace, State.onChip_regs]
    simpa using injectStop_spec (s.advance t)
  · refine ⟨_, rfl, fun ready => ?_⟩
    simp only [State.onHubAt_awake s t _ held, State.onChip_rd]
    simpa using captureStart_started (s := s.advance t) (by simpa using ready)
  · refine ⟨_, rfl, fun running => ?_⟩
    simp only [State.onHubAt_awake s t _ held, State.onChip_rd, State.onChip_rdB]
    exact captureStop_stopped (by simpa using running)
  · refine ⟨_, rfl, ?_⟩
    simp only [State.onHubAt_awake s t _ held, State.onChip_ace, State.onChip_rdB]
    simpa using dftDone_spec (s := s.advance t) (by simpa using done) (by simpa using on)

end Sys2Proof.Machine
end

section
/-!
PROOFS. A load of an estimator sum (R178): accepted while the cell is excluded or its arm blocked, else ignored with source 0x009.
-/

namespace Sys2Proof.Machine

/-! The record of a cell. -/

@[simp] theorem State.setGalCell_flt (s : State) (i : Nat) (c : GalCell) : (s.setGalCell i c).flt = s.flt := (rfl)

theorem State.galCell_setGalCell_same (s : State) (i : Nat) (c : GalCell) : (s.setGalCell i c).galCell i = c :=
  Store.get_put_same _ _ _ _

/-- The record of a cell with sum 0 A, 1 B or 2 E replaced. -/
def GalCell.withSum (c : GalCell) (which w : Nat) : GalCell :=
  if which = 0 then { c with estA := w } else if which = 1 then { c with estB := w } else { c with estE := w }

theorem GalCell.withSum_sums (c : GalCell) (which : Fin 3) (w : Nat) :
    (c.withSum which w).estA = (if which = 0 then w else c.estA) ∧ (c.withSum which w).estB = (if which = 1 then w else c.estB) ∧
      (c.withSum which w).estE = (if which = 2 then w else c.estE) :=
  match which with
  | 0 => ⟨rfl, rfl, rfl⟩
  | 1 => ⟨rfl, rfl, rfl⟩
  | 2 => ⟨rfl, rfl, rfl⟩

/-! What the display of the estimate leaves (R171): the cell's record, the fault collector and the count of windows. -/

/-- `u` has the record and NACC of cell `i` and the fault collector as `s` has them. -/
structure State.KeepsWindows (i : Nat) (s u : State) : Prop where
  cell : u.galCell i = s.galCell i
  flt : u.flt = s.flt
  nacc : u.rd (F.GAL_CELL_CONF_NACC i) = s.rd (F.GAL_CELL_CONF_NACC i)

namespace State.KeepsWindows

variable {i : Nat}

theorem refl (s : State) : s.KeepsWindows i s := ⟨rfl, rfl, rfl⟩

theorem trans {s t u : State} (h : s.KeepsWindows i t) (k : t.KeepsWindows i u) : s.KeepsWindows i u :=
  ⟨k.cell.trans h.cell, k.flt.trans h.flt, k.nacc.trans h.nacc⟩

theorem wr (s : State) {f : Fld} (v : Nat) (h : FldApart f (F.GAL_CELL_CONF_NACC i)) : s.KeepsWindows i (s.wr f v) :=
  ⟨State.galCell_wr s f v i, State.wr_flt s f v, State.rd_wr_apart h⟩

/-- A word of the cell other than `GAL_CELL_CONF`. -/
theorem wrWord (s : State) {base lo w : Nat} (v : Nat) (h : R.GAL_CELL_CONF 0 ≠ base) :
    s.KeepsWindows i (s.wr ⟨base + 0x40 * i, lo, w⟩ v) :=
  wr s v ⟨Nat.le_refl 32, .inl fun e => h (Nat.add_right_cancel e)⟩

theorem showEst (s : State) : s.KeepsWindows i (s.showEst i) := by
  unfold State.showEst
  extract_lets c a b e shown bZero ratio be beZero conf
  have sums : s.KeepsWindows i shown := ((wrWord s _ (by decide)).trans (wrWord _ _ (by decide))).trans (wrWord _ _ (by decide))
  have estimate : shown.KeepsWindows i ratio := by
    unfold ratio
    split
    · exact refl shown
    · exact wrWord shown _ (by decide)
  exact (sums.trans estimate).trans (wr ratio conf ⟨Nat.le_refl 32, .inr (.inl (Nat.le_refl 8))⟩)

end State.KeepsWindows

/-! The load (R178). -/

theorem State.cellFree_advance (s : State) (t : Time) (i : Nat) : (s.advance t).cellFree i = s.cellFree i := by
  simp only [State.cellFree, State.ringDeblocked, State.deblocked, State.rd_advance, State.rdB_advance, State.armOf_advance]

theorem estimateLoad_ignored {s : State} {i : Nat} (which : Nat) (v : Word) (shut : s.cellFree i = false) :
    estimateLoad i which v s = s.raise 0x009 := by
  rw [estimateLoad, shut, Bool.not_false, if_pos rfl]

/-- An accepted load stores the sum and NACC; the display of the estimate keeps both. -/
theorem estimateLoad_accepted {s : State} {i : Nat} (which : Nat) (v : Word) (free : s.cellFree i = true) :
    ((s.setGalCell i ((s.galCell i).withSum which (b64.put (b32.dec v.toNat)))).wr (F.GAL_CELL_CONF_NACC i) 64).KeepsWindows i
      (estimateLoad i which v s) := by
  rw [estimateLoad, free, Bool.not_true, if_neg Bool.false_ne_true]
  exact .showEst _

theorem estimateLoad_accepted_spec {s : State} {i : Nat} (which : Nat) (v : Word) (free : s.cellFree i = true) :
    (estimateLoad i which v s).rd (F.GAL_CELL_CONF_NACC i) = 64 ∧
      (estimateLoad i which v s).galCell i = (s.galCell i).withSum which (b64.put (b32.dec v.toNat)) ∧
      (estimateLoad i which v s).flt = s.flt := by
  obtain ⟨cell, flt, nacc⟩ := estimateLoad_accepted which v free
  refine ⟨?_, ?_, ?_⟩
  · exact nacc.trans (State.rd_wr_same _ _ 64 (Nat.le_refl 32))
  · rw [cell, State.galCell_wr, State.galCell_setGalCell_same]
  · rw [flt, State.wr_flt, State.setGalCell_flt]

theorem estimateLoad_ignored_spec {s : State} (i : Cell) (which : Nat) (v : Word) (shut : s.cellFree i = false) :
    (estimateLoad i which v s).galCell i = s.galCell i ∧
      (estimateLoad i which v s).rd (F.GAL_CELL_CONF_NACC i) = s.rd (F.GAL_CELL_CONF_NACC i) ∧
      (estimateLoad i which v s).latchBit 0x009 = true := by
  rw [estimateLoad_ignored which v shut]
  have quiet : quietReg (F.GAL_CELL_CONF_NACC i).reg := by
    simp only [quietReg, F.GAL_CELL_CONF_NACC]
    omega
  refine ⟨?_, State.rd_raise s _ _ quiet, State.latched_raise s 0x009 none 0 (by simp) (by decide)⟩
  rw [State.galCell, (RaiseKeeps.raise0 s _).gal, State.galCell]

/-- Settles O45: the load of a free cell and of another one, on the advanced state. -/
theorem estimateLoadsAreAcceptedWhileFree : Obligations.EstimateLoadsAreAcceptedWhileFree := by
  unfold Obligations.EstimateLoadsAreAcceptedWhileFree
  intro s i which v t free held hfree
  have isFree : free = (s.advance t).cellFree i := by
    rw [hfree, State.cellFree_advance, State.cellFree, State.ringDeblocked]
    cases s.armOf (i.val / 32) <;> rfl
  refine ⟨_, rfl, fun accepted => ?_, fun ignored => ?_⟩
  · obtain ⟨nacc, cell, flt⟩ := estimateLoad_accepted_spec which v (isFree.symm.trans accepted)
    simp only [State.onHubAt_awake s t _ held, State.onChip_rd, State.onChip_galCell, State.onChip_flt]
    rw [cell, State.galCell_advance]
    obtain ⟨sumA, sumB, sumE⟩ := (s.galCell i).withSum_sums which (b64.put (b32.dec v.toNat))
    exact ⟨nacc, sumA, sumB, sumE, flt.trans (State.advance_flt s t)⟩
  · simp only [State.onHubAt_awake s t _ held, State.onChip_rd, State.onChip_galCell, State.onChip_latchBit]
    simpa using estimateLoad_ignored_spec i which v (isFree.symm.trans ignored)

end Sys2Proof.Machine
end
